-- ==== Sys2Proof/Word.lean ====
section
/-! DEFINITION. The byte of the station link and the pair of signal components that every chapter computes with. -/

namespace Sys2Proof

/-- One byte of a frame (11.1). -/
abbrev Byte := BitVec 8

/-- A signal value: a pair of signed integers X and Y (00_scope, 5 Conventions). In counts for a raw
sample, in display units for a channel value. -/
structure Vec where
  /-- The X component. -/
  x : Int
  /-- The Y component. -/
  y : Int
  deriving DecidableEq, Repr, Inhabited

end Sys2Proof
end

