-- ==== Sys2Proof/Syntax.lean ====
section
/-! DEFINITION. The commands of the block: one constructor of `Instr` for each of the 38 rows of spec/opcode_table.json.

The table gives its rows no bits and no operand fields. An operand here is what the outside world brings to the
event: the lane, the input, a pin level, the encoder's phase state, the converter's output, the bytes on the
line. The request rows have none, because the handler reads the request from the front frame of its queue (R177). -/

namespace Sys2Proof

/-- The two lanes (00_scope, 5 Conventions): Lane A is 0 and Lane B is 1. -/
inductive LaneId where
  | a
  | b
  deriving DecidableEq, Repr, Inhabited

/-- The three discrete inputs of a lane (7.1). -/
inductive InputId where
  | guideLatched
  | probeHome
  | motorFault
  deriving DecidableEq, Repr, Inhabited

/-- The encoder's phase state (2.2): the levels of phase 1 and phase 2, `true` for high. -/
structure EncPhase where
  /-- The level of phase 1. -/
  p1 : Bool
  /-- The level of phase 2. -/
  p2 : Bool
  deriving DecidableEq, Repr, Inhabited

/-- The converter's output over a slot's INTEGRATE phase (R6, R7): its codes at equal intervals,
the first as INTEGRATE begins, over the slot's whole integrate cycles, and the code of the converter's full-scale amplitude (log entry 14). -/
structure Demod where
  /-- The codes, in the order of time. -/
  output : List Int
  /-- The code of full scale: the converter's range is −full..+full. -/
  full : Nat
  deriving DecidableEq, Repr, Inhabited

/-- The commands: one constructor for each row of spec/opcode_table.json, in the table's order. -/
inductive Instr where
  /-- POWER_ON (R186). -/
  | powerOn
  /-- RAW_LEVEL_CHANGE (R119): `level` is `true` where the input is now asserted. -/
  | rawLevelChange (lane : LaneId) (input : InputId) (level : Bool)
  /-- DEBOUNCED_STATE_CHANGE (R120). -/
  | debouncedStateChange (lane : LaneId) (input : InputId)
  /-- EDGE (R20), and within it the invalid transition of R21: the encoder shows the given phase state. -/
  | edge (lane : LaneId) (phase : EncPhase)
  /-- CONTROL_PERIOD_END (R28). -/
  | controlPeriodEnd (lane : LaneId)
  /-- STALL (R129). -/
  | stall (lane : LaneId)
  /-- SWITCH_END (R4). -/
  | switchEnd (lane : LaneId)
  /-- SETTLE_END (R5). -/
  | settleEnd (lane : LaneId)
  /-- SLOT_END (R8). -/
  | slotEnd (lane : LaneId) (demod : Demod)
  /-- GUIDE_POLL (R143). -/
  | guidePoll (lane : LaneId)
  /-- TURN_DWELL_END (R145). -/
  | turnDwellEnd (lane : LaneId)
  /-- TAKE_ORDER (R142). -/
  | takeOrder (lane : LaneId)
  /-- JOB_COMPLETION (R80). -/
  | jobCompletion
  /-- REPORT_RECORD (R169). -/
  | reportRecord (lane : LaneId)
  /-- FRAME_RECEIVED (R173): the bytes that arrive, the last of them a frame's last CRC byte. -/
  | frameReceived (bytes : List Byte)
  /-- FRAME_TIMEOUT (R173). -/
  | frameTimeout
  /-- SILENCE_TIMEOUT (R176). -/
  | silenceTimeout
  /-- TRANSMISSION_END (R180). -/
  | transmissionEnd
  /-- BAD_KIND (R177). -/
  | badKind
  /-- STATUS (R183). -/
  | status
  /-- SET_LINK (R181). -/
  | setLink
  /-- SET_LAYOUT (R86). -/
  | setLayout
  /-- SET_SCAN (R17). -/
  | setScan
  /-- SET_CHANNEL (R49). -/
  | setChannel
  /-- SET_MIX (R50, R51). -/
  | setMix
  /-- SET_LANDMARK (R89). -/
  | setLandmark
  /-- SET_MOTION (R134). -/
  | setMotion
  /-- QUEUE_TUBE (R139). -/
  | queueTube
  /-- CANCEL_TUBE (R140). -/
  | cancelTube
  /-- ABORT (R153). -/
  | abort
  /-- HOLD (R151). -/
  | hold
  /-- RESUME (R152). -/
  | resume
  /-- RETRACT (R154). -/
  | retract
  /-- LANE_RESET (R155). -/
  | laneReset
  /-- SPAN_CAL (R55, R56). -/
  | spanCal
  /-- SOLVE_MIX (R59). -/
  | solveMix
  /-- SYNC_WORD_FOUND (R173): the bytes that arrive, the last of them the second sync byte. -/
  | syncWordFound (bytes : List Byte)
  /-- FRAME_LENGTH_OUT_OF_RANGE (R173): the bytes that arrive, the last of them the second length byte. -/
  | frameLengthOutOfRange (bytes : List Byte)
  deriving DecidableEq, Repr

end Sys2Proof
end

