-- ==== Sys2Proof/Decode.lean ====
section
/-! DEFINITION. The command that a word of the table's bits spells. The table of this block gives no row any bits. -/

namespace Sys2Proof

/-- spec/opcode_table.json gives bits to none of its 38 rows (their "fields" are empty and they carry no "fixed"), so
no word spells a command. -/
def decodeTableWord (_nbits _w : Nat) : Option Instr := none

end Sys2Proof
end

