-- ==== Sys2Proof/Config.lean ====
section
/-! DEFINITION. The sizes and times the spec fixes for every C220, and the free values: what the spec does not state,
as constants without a body. -/

namespace Sys2Proof.Config

/-- Buffers of record memory (9.1). -/
def bufferCount : Nat := 256

/-- Free buffers kept from line and region data (R161): a block opens only with more than this many free. -/
def reserve : Nat := 16

/-- Orders a worklist holds at most (R139). -/
def worklistMax : Nat := 32

/-- Jobs a lane's queue holds at most (R77). -/
def jobQueueMax : Nat := 4

/-- Frames the request queue holds at most (R175). -/
def requestQueueMax : Nat := 4

/-- Lines the calibration store holds at most (R52). -/
def storeMax : Nat := 2048

/-- Lines the assembly window holds after a capture (R36). -/
def windowMax : Nat := 4

/-- Lines a span store holds at most (R72). -/
def spanMax : Nat := 256

/-- Quiet lines that end a region of interest (R75). -/
def roiQuietMax : Nat := 32

/-- Entries a catalogue holds at most (R107). -/
def catalogueMax : Nat := 64

/-- Entries of one CATALOGUE record (R114). -/
def entriesPerRecord : Nat := 32

/-- UNEXPECTED entries a landmark list holds at most (R98). -/
def unexpectedMax : Nat := 16

/-- Entries of the history ring at most (R165). -/
def ringMax : Nat := 32

/-- The greatest value of a 16-bit count that stops (R98, R110). -/
def count16Max : Nat := 65535

/-- The greatest value of a 32-bit unit counter (R184). -/
def count32Max : Nat := 4294967295

/-- Nanoseconds in a millisecond. -/
def nsPerMs : Nat := 1000000

/-- The SWITCH phase of a slot, in ns (R4). -/
def switchNs : Nat := 2000

/-- The control period, in ns (2.5). -/
def controlPeriodNs : Nat := 10 * nsPerMs

/-- The gap between bytes that abandons a frame, in ns (R173). -/
def frameGapNs : Nat := nsPerMs

/-- The time a byte takes on the line, in ns (R180). -/
def byteNs : Nat := 1000

/-- The margin of a segment's stops, in µm (R24). -/
def segmentMargin : Int := 20000

/-- FREE VALUE (log entry 13). What a field of a reply or record holds when the value its rule gives does not fit the
field: the spec states no such result. A function of the value alone, with no body. -/
opaque unstatedField : Int → Nat

/-- FREE VALUE (log entry 20). What a 32-bit count of a tube holds after a rise past its greatest value: R39 and R164 state no such
result. A function of the time of the rise, with no body. -/
opaque countPast : Nat → BitVec 32

/-- FREE VALUE (log entry 14). The averages X and Y of converter codes that do not determine them, two or fewer to a cycle: two to a cycle
may all fall on the reference's zeros. A function of the time of the slot's end and of the codes, with no body. -/
opaque unresolvedAverage : Nat → List Int → Int × Int

end Sys2Proof.Config
end

