-- ==== Sys2Proof/WellFormed.lean ====
section
/-! DEFINITION. What a command must be, as syntax, to be the event its row names. -/

namespace Sys2Proof

/-- The first byte of the sync word (11.1). -/
def syncFirst : Byte := 0x5A

/-- The second byte of the sync word (11.1). -/
def syncSecond : Byte := 0xC3

/-- The payload length that two length bytes give, least significant first (11.1). -/
def lengthField (lo hi : Byte) : Nat := lo.toNat + 256 * hi.toNat

/-- A payload length a frame may have (R173). -/
def lengthInRange (n : Nat) : Bool := decide (4 ≤ n) && decide (n ≤ 2040)

/-- The converter gives more than two codes to a cycle of the shortest INTEGRATE phase, which is 4 cycles (R2), and none beyond its
full-scale range (R6, R7). For a slot of more cycles `demodResolves` says how many it takes. -/
def Demod.consistent (d : Demod) : Bool := decide (0 < d.full) && decide (8 < d.output.length) && d.output.all fun v => decide (v.natAbs ≤ d.full)

/-- The bytes are a frame after its sync word: a length in range, that many payload bytes and four CRC bytes (R173). -/
def isFrameBody : List Byte → Bool
  | lo :: hi :: rest => lengthInRange (lengthField lo hi) && decide (rest.length = lengthField lo hi + 4)
  | _ => false

/-- The bytes are a whole frame, with or without its sync word before it (R173). -/
def isFrame : List Byte → Bool
  | b0 :: b1 :: rest => isFrameBody (b0 :: b1 :: rest) || (b0 == syncFirst && b1 == syncSecond && isFrameBody rest)
  | _ => false

/-- The sync word stands at the end of the bytes and nowhere before it (R173). -/
def endsInSync : List Byte → Bool
  | [b0, b1] => b0 == syncFirst && b1 == syncSecond
  | b0 :: b1 :: rest => !(b0 == syncFirst && b1 == syncSecond) && endsInSync (b1 :: rest)
  | _ => false

/-- The bytes are a length field outside 4..2040 (R173). -/
def isBadLength : List Byte → Bool
  | [lo, hi] => !lengthInRange (lengthField lo hi)
  | _ => false

/-- A command is well-formed when its operands are those of the event its row names. -/
def Instr.wf : Instr → Bool
  | .powerOn => true
  | .rawLevelChange _ _ _ => true
  | .debouncedStateChange _ _ => true
  | .edge _ _ => true
  | .controlPeriodEnd _ => true
  | .stall _ => true
  | .switchEnd _ => true
  | .settleEnd _ => true
  | .slotEnd _ d => d.consistent
  | .guidePoll _ => true
  | .turnDwellEnd _ => true
  | .takeOrder _ => true
  | .jobCompletion => true
  | .reportRecord _ => true
  | .frameReceived bytes => isFrame bytes
  | .frameTimeout => true
  | .silenceTimeout => true
  | .transmissionEnd => true
  | .badKind => true
  | .status => true
  | .setLink => true
  | .setLayout => true
  | .setScan => true
  | .setChannel => true
  | .setMix => true
  | .setLandmark => true
  | .setMotion => true
  | .queueTube => true
  | .cancelTube => true
  | .abort => true
  | .hold => true
  | .resume => true
  | .retract => true
  | .laneReset => true
  | .spanCal => true
  | .solveMix => true
  | .syncWordFound bytes => endsInSync bytes
  | .frameLengthOutOfRange bytes => isBadLength bytes

end Sys2Proof
end

