-- ==== Sys2Proof/Machine/Arith.lean ====
section
/-! DEFINITION. The arithmetic of the spec: rounding, saturation, the max chord with its length and angle, the exact
rounding of the span solve, and the CRC. -/

namespace Sys2Proof.Machine

/-! ### Rounding and saturation (00_scope, 5 Conventions) -/

/-- The integer nearest to `n / d`, a value exactly halfway going away from zero (00_scope, 5). -/
def roundDiv (n : Int) (d : Nat) : Int :=
  if n < 0 then -((2 * n.natAbs + d) / (2 * d) : Nat) else ((2 * n.natAbs + d) / (2 * d) : Nat)

/-- The integer nearest to `n / d`, halves up, of naturals (R83). -/
def roundHalfUp (n d : Nat) : Nat := (2 * n + d) / (2 * d)

/-- Saturation to −32767..+32767 (00_scope, 5). -/
def sat (v : Int) : Int := max (-32767) (min 32767 v)

/-- Clamping to the signed 32-bit range (R104, R113). -/
def clampS32 (v : Int) : Int := max (-2147483648) (min 2147483647 v)

/-- A 32-bit count of a tube goes up by one. The spec states no value past the greatest: there it is a free value of the time
(R39, R164; log entry 20). -/
def countTube (now n : Nat) : Nat := if n < Config.count32Max then n + 1 else (Config.countPast now).toNat

/-- A count that stops at its greatest value. -/
def countUp (top n : Nat) : Nat := if n < top then n + 1 else n

/-- The line index of a raw position: floor(position / pitch) (00_scope, 5). -/
def lineIndex (position : Int) (pitch : Nat) : Int := Int.fdiv position pitch

/-! ### The max chord (R54) -/

/-- A chord: its squared length D and its vector, earlier to later (R54). -/
structure Chord where
  /-- The squared length D. -/
  d : Nat
  /-- The vector c. -/
  c : Vec
  deriving DecidableEq, Repr

/-- The chord from an earlier value to a later one, formed exactly (R54). -/
def chordOf (p q : Vec) : Chord :=
  let c : Vec := ⟨q.x - p.x, q.y - p.y⟩
  { d := (c.x * c.x + c.y * c.y).natAbs, c := c }

/-- Of two chords, the one with the greater D; the one found earlier where they share it (R54). -/
def betterChord (best : Option Chord) (k : Chord) : Option Chord :=
  match best with
  | none => some k
  | some b => if b.d < k.d then some k else some b

/-- The pairs whose earlier member is `p`, in the order of the later member. -/
def chordsFrom (p : Vec) : List Vec → Option Chord → Option Chord
  | [], best => best
  | q :: rest, best => chordsFrom p rest (betterChord best (chordOf p q))

/-- The pairs of the sequence in the order of the earlier member, then of the later. -/
def maxChordFrom : List Vec → Option Chord → Option Chord
  | [], best => best
  | p :: rest, best => maxChordFrom rest (chordsFrom p rest best)

/-- The max chord of a sequence in capture order (R54); `none` for fewer than two values. -/
def maxChord (values : List Vec) : Option Chord := maxChordFrom values none

/-- floor(sqrt n), bit by bit from bit `k` down. -/
def isqrtBits (n : Nat) : Nat → Nat → Nat
  | 0, r => r
  | k + 1, r => if (r + 2 ^ k) * (r + 2 ^ k) ≤ n then isqrtBits n k (r + 2 ^ k) else isqrtBits n k r

/-- floor(sqrt n). -/
def isqrt (n : Nat) : Nat := isqrtBits n (n.log2 / 2 + 1) 0

/-- The integer nearest to sqrt D: with v = floor(sqrt D), v + 1 when D − v² exceeds v, else v (R54, R82). -/
def vppOf (d : Nat) : Nat :=
  let v := isqrt d
  if v < d - v * v then v + 1 else v

/-! ### Sine and cosine to any precision

`p` binary places. Each result is within a few times `p` units of the last place of the true value; the users below
allow for 2^(p/2) units (log entry 22). -/

/-- arctan(1/q) in units of 2^-p: `t` is 2^p/q^k, `k` the odd number of the term. -/
def arctanInv (q : Nat) : Nat → Nat → Nat → Int
  | 0, _, _ => 0
  | fuel + 1, t, k => if t = 0 then 0 else (t / k : Nat) - arctanInv q fuel (t / (q * q)) (k + 2)

/-- π in units of 2^-p, by Machin's formula. -/
def piFix (p : Nat) : Nat :=
  (16 * arctanInv 5 p (2 ^ p / 5) 1 - 4 * arctanInv 239 p (2 ^ p / 239) 1).toNat

/-- The alternating Taylor series from `term` on: `xx` is the square of the angle, both in units of 2^-p. -/
def taylor (p xx : Nat) : Nat → Nat → Nat → Int
  | 0, _, _ => 0
  | fuel + 1, term, k =>
    if term = 0 then 0 else (term : Int) - taylor p xx fuel (term * xx / 2 ^ p / ((k + 1) * (k + 2))) (k + 2)

/-- cos and sin of π·num/den for an angle in the first quadrant, in units of 2^-p. -/
def cosSinFix (p num den : Nat) : Int × Int :=
  let x := piFix p * num / den
  let xx := x * x / 2 ^ p
  (taylor p xx p (2 ^ p) 0, taylor p xx p x 1)

/-- cos and sin of an angle `q` quarter turns, fewer than four, beyond one whose cos and sin are given. -/
def quarterTurns (q : Nat) (cs : Int × Int) : Int × Int :=
  match q with
  | 0 => cs
  | 1 => (-cs.2, cs.1)
  | 2 => (-cs.1, -cs.2)
  | _ => (cs.2, -cs.1)

/-- cos and sin of `k / n` of a turn, k < n, in units of 2^-p. -/
def cosSinTurn (p k n : Nat) : Int × Int := quarterTurns (4 * k / n) (cosSinFix p (4 * k % n) (2 * n))

/-! ### The angle of a chord (R54, R82) -/

/-- The direction of (a, b) lies above the angle of n + 1/2 tenths of a degree, (2n + 1)·π/3600. -/
def aboveHalf (a b n : Nat) : Bool :=
  let cs := cosSinFix 128 (2 * n + 1) 3600
  decide ((a : Int) * cs.2 < (b : Int) * cs.1)

/-- One bit of the search of `octantTenths`. -/
def octantStep (a b k bit : Nat) : Nat :=
  if k + bit ≤ 450 && aboveHalf a b (k + bit - 1) then k + bit else k

/-- The whole number of tenths of a degree nearest to the angle of (a, b), 0 ≤ b ≤ a: how many of the half-way angles
lie below it, found by bisection. -/
def octantTenths (a b : Nat) : Nat := [256, 128, 64, 32, 16, 8, 4, 2, 1].foldl (octantStep a b) 0

/-- The nearest tenth of a degree in the first quadrant, 0..900. -/
def quadrantTenths (x y : Nat) : Nat := if y ≤ x then octantTenths x y else 900 - octantTenths y x

/-- The integer in 0..3599 nearest to the true angle of a vector in tenths of a degree, 3600 becoming 0; `none` for the
zero vector (R54). An exact half cannot occur: the tangent of an odd multiple of a twentieth of a degree is irrational
(log entry 22). -/
def angleTenths (c : Vec) : Option Nat :=
  if c.x = 0 ∧ c.y = 0 then none
  else
    let q := quadrantTenths c.x.natAbs c.y.natAbs
    some ((if 0 ≤ c.x then (if 0 ≤ c.y then q else 3600 - q) else (if 0 ≤ c.y then 1800 - q else 1800 + q)) % 3600)

/-! ### The span solve (R57) and the mix solve (R60) -/

/-- Twice the cosine of `phi` tenths of a degree where it is a whole number. -/
def twiceCos (phi : Nat) : Option Int :=
  match phi with
  | 0 => some 2
  | 600 => some 1
  | 900 => some 0
  | 1200 => some (-1)
  | 1800 => some (-2)
  | 2400 => some (-1)
  | 2700 => some 0
  | 3000 => some 1
  | _ => none

/-- cos and sin of `phi` tenths of a degree, in units of 2^-p. -/
def cosSinTenths (p phi : Nat) : Int × Int := quarterTurns (phi / 900) (cosSinFix p (phi % 900) 1800)

/-- A value in units of 2^-p with the bound on its error: exact where twice the value is a whole number. -/
def bounded (p : Nat) (exact : Option Int) (approx : Int) : Int × Nat :=
  match exact with
  | some h => (h * 2 ^ (p - 1), 0)
  | none => (approx, 2 ^ (p / 2))

/-- round(4096·A·(u·cos φ + v·sin φ) / D), halves away from zero, from the exact real value: `p` binary places
are doubled until both ends of the error interval round alike. An interval that is not a point holds an irrational
value, which is no half-way point, so some precision decides (log entry 22). -/
def turnedFrom (amplitude d : Nat) (u v : Int) (phi : Nat) : Nat → Nat → Int
  | 0, p =>
    let cs := cosSinTenths p phi
    roundDiv (4096 * amplitude * (u * cs.1 + v * cs.2)) (d * 2 ^ p)
  | fuel + 1, p =>
    let cs := cosSinTenths p phi
    let c := bounded p (twiceCos phi) cs.1
    let s := bounded p (twiceCos ((phi + 2700) % 3600)) cs.2
    let mid := u * c.1 + v * s.1
    let err : Int := (u.natAbs * c.2 + v.natAbs * s.2 : Nat)
    let lo := roundDiv (4096 * amplitude * (mid - err)) (d * 2 ^ p)
    let hi := roundDiv (4096 * amplitude * (mid + err)) (d * 2 ^ p)
    if lo = hi then lo else turnedFrom amplitude d u v phi fuel (2 * p)

/-- round(4096·A·(u·cos φ + v·sin φ) / D) from the exact real value (R57). -/
def turned (amplitude d : Nat) (u v : Int) (phi : Nat) : Int := turnedFrom amplitude d u v phi 12 128

/-- A coefficient component fits in 16 bits (R57, R60). -/
def fitsS16 (k : Int) : Bool := decide (-32768 ≤ k) && decide (k ≤ 32767)

/-- Why a solve fails (R57, R60). -/
inductive SolveError where
  | spanWeak
  | gainRange
  deriving DecidableEq, Repr

/-- The coefficient of a span solve (R57). With g = A/√D and r = φ − angle(c), 4096·g·cos r is
4096·A·(cx·cos φ + cy·sin φ)/D, and 4096·g·sin r is 4096·A·(cx·sin φ − cy·cos φ)/D. -/
def solveSpan (amplitude phi : Nat) (k : Chord) : Except SolveError (Int × Int) :=
  if k.d < 4096 then .error .spanWeak
  else
    let kc := turned amplitude k.d k.c.x k.c.y phi
    let ks := turned amplitude k.d (-k.c.y) k.c.x phi
    if fitsS16 kc && fitsS16 ks then .ok (kc, ks) else .error .gainRange

/-- The sums Nr, Ni and Den of a mix solve (R60). -/
def mixSums : List Vec → List Vec → Int × Int × Nat
  | p :: ps, q :: qs =>
    let s := mixSums ps qs
    (p.x * q.x + p.y * q.y + s.1, p.y * q.x - p.x * q.y + s.2.1, (q.x * q.x + q.y * q.y).natAbs + s.2.2)
  | _, _ => (0, 0, 0)

/-- The coefficient of a mix solve (R60). -/
def solveMixCoefficient (ps qs : List Vec) : Except SolveError (Int × Int) :=
  let s := mixSums ps qs
  if s.2.2 = 0 then .error .spanWeak
  else
    let mc := roundDiv (4096 * s.1) s.2.2
    let ms := roundDiv (4096 * s.2.1) s.2.2
    if fitsS16 mc && fitsS16 ms then .ok (mc, ms) else .error .gainRange

/-! ### The channel arithmetic (R45, R46) -/

/-- The calibrated value of a raw sample (R45): null subtracted exactly, rotated and scaled, rounded, then saturated. -/
def calibrate (null : Vec) (kc ks : Int) (raw : Vec) : Vec :=
  let dx := raw.x - null.x
  let dy := raw.y - null.y
  ⟨sat (roundDiv (kc * dx - ks * dy) 4096), sat (roundDiv (ks * dx + kc * dy) 4096)⟩

/-- The value of a mix from its sources' calibrated values (R46). -/
def mixValue (mc ms : Int) (p q : Vec) : Vec :=
  let tx := roundDiv (mc * q.x - ms * q.y) 4096
  let ty := roundDiv (ms * q.x + mc * q.y) 4096
  ⟨sat (p.x - tx), sat (p.y - ty)⟩

/-! ### The CRC (R174) -/

/-- One bit of the reflected CRC-32 register; 0xEDB88320 is the generator 0x04C11DB7 with its bits reversed. -/
def crcBit (c : BitVec 32) : BitVec 32 := if c.getLsbD 0 then (c >>> 1) ^^^ 0xEDB88320 else c >>> 1

/-- One byte, least significant bit first (R174). -/
def crcByte (c : BitVec 32) (b : Byte) : BitVec 32 :=
  crcBit (crcBit (crcBit (crcBit (crcBit (crcBit (crcBit (crcBit (c ^^^ b.zeroExtend 32))))))))

/-- The CRC of the bytes: register from all ones, result inverted (R174). -/
def crc32 (bytes : List Byte) : BitVec 32 := ~~~(bytes.foldl crcByte 0xFFFFFFFF)

end Sys2Proof.Machine
end

