-- ==== Sys2Proof/Machine/State.lean ====
section
/-! DEFINITION. The state of the block: every register, table, queue, counter, mode, timer and pin the spec gives the
C220, and its state after reset. Plain data throughout. -/

namespace Sys2Proof.Machine

/-- Why the block stops with a fault. NOTHING RAISES ONE: the spec describes the effect of every command in every
state, so no meaning ends in a fault and the type has no constructor (safe). -/
inductive Fault where
  deriving DecidableEq, Repr

/-- Why the block refuses a command. -/
inductive Refusal where
  /-- Raised by `exec` alone, for a row of the table that has no meaning yet, by the row's mnemonic. No arm raises it
  now (safe: a refused command proves nothing). -/
  | notModelled (mnemonic : String)
  deriving DecidableEq, Repr

/-! ### Excitation unit (chapter 1) -/

/-- The phase of a slot (1.4). -/
inductive SlotPhase where
  | switch
  | settle
  | integrate
  deriving DecidableEq, Repr

/-- One slot of the scan table (R2). -/
structure Slot where
  /-- The coil input, 0..7. -/
  coil : Nat
  /-- The frequency table entry. -/
  freqIndex : Nat
  /-- The drive level in eighths, 1..8. -/
  drive : Nat
  /-- The gain step, 0..5. -/
  gain : Nat
  /-- Settle cycles, 1..16. -/
  settle : Nat
  /-- Integrate cycles, 4..64. -/
  integrate : Nat
  deriving DecidableEq, Repr, Inhabited

/-- A raw sample with its overload mark (R6, R7). -/
structure Sample where
  /-- The sample, in counts. -/
  value : Vec
  /-- The overload mark. -/
  overload : Bool
  deriving DecidableEq, Repr, Inhabited

/-- A CYCLING unit's place in the scan table (1.4). -/
structure Running where
  /-- The slot in progress. -/
  slot : Nat
  /-- The phase the slot has reached. -/
  phase : SlotPhase
  /-- When the slot began its SWITCH phase, on the model's clock, ns. -/
  start : Nat
  /-- The partial cycle: the samples of the cycle's ended slots, in slot order. -/
  partialCycle : List Sample
  deriving DecidableEq, Repr

/-- The excitation unit (R1 to R19). The cycle time, the line-rate limit and the effective pull speed are computed from
the tables (R12 to R14), not stored. -/
structure Excitation where
  /-- The frequency table, Hz (R1). -/
  freqs : List Nat
  /-- The scan table (R2). -/
  slots : List Slot
  /-- `none` while STOPPED, the place in the table while CYCLING (R3). -/
  run : Option Running
  deriving DecidableEq, Repr

/-! ### Position counter (chapter 2) -/

/-- The measured direction (R28). -/
inductive Direction where
  | still
  | forward
  | reverse
  deriving DecidableEq, Repr

/-- The position counter (2.2). The values of the two stops and the tube's pull speeds stand in the tube record. -/
structure Position where
  /-- The count (R20). -/
  count : Int
  /-- The last accepted phase state (R20, R21), which is the state the encoder shows. -/
  phase : EncPhase
  /-- The scale in µm per count, `none` while unset (R22). -/
  scale : Option Nat
  /-- The encoder error count (R21). -/
  errors : Nat
  /-- Stop A is armed (R25). -/
  armedA : Bool
  /-- Stop B is armed (R25). -/
  armedB : Bool
  /-- The reference position of the speed measurement, µm (R28). -/
  refPos : Int
  /-- The last measured speed, mm/s (R28). -/
  speed : Nat
  /-- The last measured direction (R28). -/
  direction : Direction
  /-- The control period in progress has so far lain wholly in PULL (R29). -/
  wholePull : Bool
  /-- When the control period in progress ends, on the model's clock, ns (2.5). -/
  periodEnd : Nat
  deriving DecidableEq, Repr

/-! ### Line capture (chapter 2) -/

/-- A line of the assembly window (R30). -/
structure CapLine where
  /-- The line index. -/
  index : Int
  /-- The raw samples of all slots, in slot order. -/
  samples : List Vec
  /-- The OVR flag. -/
  ovr : Bool
  /-- The REPEAT flag. -/
  rep : Bool
  deriving DecidableEq, Repr

/-- The line capture unit (R31). Its counts and flags stand in the tube record (R39). -/
structure Capture where
  /-- ARMED or DISARMED. -/
  armed : Bool
  /-- The assembly window, highest index first. -/
  window : List CapLine
  deriving DecidableEq, Repr

/-! ### Channel settings and the calibration store (chapters 3 and 4) -/

/-- The deviation a channel is screened on (R63). -/
inductive Component where
  | vert
  | max
  deriving DecidableEq, Repr

/-- The screening settings of a channel (R63). -/
structure Screening where
  /-- The screening enable. -/
  enable : Bool
  /-- The component. -/
  component : Component
  /-- The open threshold, du. -/
  openTh : Nat
  /-- The close threshold, du. -/
  closeTh : Nat
  /-- Lines needed to open. -/
  confirm : Nat
  /-- Lines needed to close. -/
  release : Nat
  /-- The baseline shift. -/
  shift : Nat
  deriving DecidableEq, Repr

/-- One point of a phase curve (R64). -/
structure CurvePoint where
  /-- Phase, tenths of a degree. -/
  phase : Nat
  /-- Depth, percent of wall. -/
  depth : Nat
  deriving DecidableEq, Repr

/-- Where a channel's values are sent (3.5, R162). -/
inductive Disposition where
  | off
  | full
  | windowed
  deriving DecidableEq, Repr

/-- The settings that base and mix channels have alike: the SCREENING, DISPOSITION and CURVE parts (3.5). -/
structure Facets where
  /-- The screening settings. -/
  screening : Screening
  /-- The disposition. -/
  disposition : Disposition
  /-- The phase curve; empty for no curve. -/
  curve : List CurvePoint
  deriving DecidableEq, Repr

/-- A base channel (R47). -/
structure BaseChannel where
  /-- The null, counts. -/
  null : Vec
  /-- The coefficient's Kc, Q4.12. -/
  kc : Int
  /-- The coefficient's Ks, Q4.12. -/
  ks : Int
  /-- Screening, disposition and curve. -/
  facets : Facets
  deriving DecidableEq, Repr

/-- The definition of a mix (R43). -/
structure MixDef where
  /-- The P source. -/
  p : Nat
  /-- The Q source. -/
  q : Nat
  /-- The coefficient's Mc, Q4.12. -/
  mc : Int
  /-- The coefficient's Ms, Q4.12. -/
  ms : Int
  deriving DecidableEq, Repr

/-- A mix channel (R43). -/
structure MixChannel where
  /-- `none` while undefined. -/
  defn : Option MixDef
  /-- Screening, disposition and curve. -/
  facets : Facets
  deriving DecidableEq, Repr

/-- A line of the calibration store (R52). -/
structure StoredLine where
  /-- The line index. -/
  index : Int
  /-- The raw samples of all slots. -/
  samples : List Vec
  deriving DecidableEq, Repr

/-! ### Screening (chapter 4) -/

/-- The screen states of a channel (R65). -/
inductive ScreenPhase where
  | quiet
  | confirming
  | opened
  | releasing
  deriving DecidableEq, Repr

/-- An entry of a span store (R65). -/
structure SpanEntry where
  /-- The line index. -/
  index : Int
  /-- The channel's value on the line. -/
  value : Vec
  /-- The line's deviation. -/
  dev : Nat
  /-- The line's OVR flag. -/
  ovr : Bool
  /-- The line's REPEAT flag. -/
  rep : Bool
  deriving DecidableEq, Repr

/-- The screen state of a channel (R65). -/
structure Screen where
  /-- The state. -/
  phase : ScreenPhase
  /-- The baseline, or none. -/
  baseline : Option Vec
  /-- Confirm lines reached in CONFIRMING, release lines reached in RELEASING, else 0. -/
  count : Nat
  /-- The span store, in capture order. -/
  span : List SpanEntry
  deriving DecidableEq, Repr

/-! ### Landmarks (chapter 5) -/

/-- A defined layout class (R85). -/
structure Layout where
  /-- Tube length L, µm. -/
  length : Int
  /-- Near sheet thickness Tn, µm. -/
  tn : Int
  /-- Far sheet thickness Tf, µm. -/
  tf : Int
  /-- Support centres, ascending, µm. -/
  supports : List Int
  deriving DecidableEq, Repr

/-- The landmark settings of a lane (R88). -/
structure LandmarkSettings where
  /-- The landmark channel, or none. -/
  channel : Option Nat
  /-- The reference, du. -/
  ref : Vec
  /-- The threshold, du. -/
  threshold : Nat
  /-- Shortest support run, lines. -/
  spMin : Nat
  /-- Longest support run, lines. -/
  spMax : Nat
  /-- Run length of a tube sheet, lines. -/
  tsMin : Nat
  /-- The match tolerance, µm. -/
  tolerance : Nat
  deriving DecidableEq, Repr

/-- An open run on the landmark channel (5.4). -/
structure LandmarkRun where
  /-- The run's first line, its highest index. -/
  first : Int
  /-- The run's length in lines. -/
  len : Nat
  /-- It began on the pull's first committed line. -/
  onFirst : Bool
  /-- It has already been decided (R93). -/
  decided : Bool
  deriving DecidableEq, Repr

/-- The kinds of landmark entries (R98). -/
inductive LandmarkKind where
  | tsf
  | tsn
  | support
  | sheet
  deriving DecidableEq, Repr

/-- The states of a landmark entry (R98). -/
inductive LandmarkState where
  | pending
  | matched
  | missed
  | unexpected
  deriving DecidableEq, Repr

/-- An entry of the landmark list (R98). -/
structure LandmarkEntry where
  /-- The kind. -/
  kind : LandmarkKind
  /-- The ordinal; 0 for a sheet and for an UNEXPECTED entry. -/
  ordinal : Nat
  /-- The state. -/
  state : LandmarkState
  /-- Nominal position of an expected entry, µm. -/
  nominal : Option Int
  /-- Found position, µm. -/
  found : Option Int
  /-- Raw position, µm. -/
  raw : Option Int
  deriving DecidableEq, Repr

/-- The detector's per-pull state (5.4). The landmark list is `expected` followed by `unexpected` (R98). -/
structure Detector where
  /-- The watch (R90). -/
  watch : Bool
  /-- The first committed line of the pull has been taken. -/
  firstTaken : Bool
  /-- The open run, if any. -/
  run : Option LandmarkRun
  /-- The expected list, in pull order (R95). -/
  expected : List LandmarkEntry
  /-- How many expected entries the pointer has passed (R95). -/
  pointer : Nat
  /-- The UNEXPECTED entries, in the order decided (R98). -/
  unexpected : List LandmarkEntry
  /-- The unexpected-landmark overflow count (R98). -/
  overflow : Nat
  /-- The correction, µm (R99). -/
  correction : Int
  deriving DecidableEq, Repr

/-! ### Pusher drive (chapter 7) -/

/-- A discrete input: raw level, debounced state and when the raw level last changed (R119). -/
structure Input where
  /-- The raw level, `true` for asserted. -/
  raw : Bool
  /-- The debounced state, `true` for ACTIVE. -/
  active : Bool
  /-- When the raw level last changed, on the model's clock, ns: the time stood runs from here. -/
  since : Nat
  deriving DecidableEq, Repr

/-- The direction output of the motor (7.3). -/
inductive DriveDir where
  | forward
  | reverse
  deriving DecidableEq, Repr

/-- The brake (R121). -/
inductive Brake where
  | engaged
  | released
  deriving DecidableEq, Repr

/-- The motion phase (R121). -/
inductive MotionPhase where
  | none
  | insert
  | pull
  | withdraw
  | retract
  deriving DecidableEq, Repr

/-- The stall window (R128). -/
structure StallWindow where
  /-- The start position p0, absent while the scale is unset. -/
  start : Option Int
  /-- The period count n. -/
  periods : Nat
  deriving DecidableEq, Repr

/-- The pusher drive (7.3). -/
structure Drive where
  /-- The motor condition, `true` for ENABLED. -/
  enabled : Bool
  /-- The brake. -/
  brake : Brake
  /-- The duty, per mille. -/
  duty : Nat
  /-- The direction output. -/
  dir : DriveDir
  /-- The motion phase. -/
  phase : MotionPhase
  /-- The stall window, absent when clear. -/
  window : Option StallWindow
  /-- The guide-latched input. -/
  guide : Input
  /-- The probe-home input. -/
  home : Input
  /-- The motor-fault input. -/
  fault : Input
  deriving DecidableEq, Repr

/-- The settings that SET_MOTION writes (R133), but the scale, which the position counter holds. -/
structure Motion where
  /-- The pitch, µm; `none` while unset (R30). -/
  pitch : Option Nat
  /-- Insert speed, mm/s. -/
  insertSpeed : Nat
  /-- Configured pull speed, mm/s. -/
  pullSpeed : Nat
  /-- Withdraw speed, mm/s. -/
  withdrawSpeed : Nat
  /-- Start duty, per mille. -/
  startDuty : Nat
  /-- Dmax, per mille. -/
  dmax : Nat
  /-- Kp. -/
  kp : Nat
  /-- Stall distance, µm. -/
  stallDistance : Nat
  /-- Stall time, ms. -/
  stallTime : Nat
  /-- Debounce time, ms. -/
  debounce : Nat
  /-- home_limit, µm. -/
  homeLimit : Nat
  /-- far_back, µm. -/
  farBack : Nat
  /-- pull_end, µm. -/
  pullEnd : Nat
  /-- Guide poll interval, ms. -/
  pollInterval : Nat
  /-- Guide attempt limit. -/
  attemptLimit : Nat
  /-- Turn dwell, ms. -/
  turnDwell : Nat
  deriving DecidableEq, Repr

/-! ### Tube orders and the tube record (chapters 6 and 8) -/

/-- A tube order (R137). -/
structure Order where
  /-- The tag. -/
  tag : Nat
  /-- The row. -/
  row : Nat
  /-- The column. -/
  column : Nat
  /-- The layout class, 0 for none. -/
  cls : Nat
  /-- The CAL flag. -/
  cal : Bool
  /-- The length, µm. -/
  length : Option Nat
  /-- The segment's upper and lower raw positions, µm. -/
  segment : Option (Nat × Nat)
  deriving DecidableEq, Repr

/-- The outcomes of a tube (R141). -/
inductive TubeOutcome where
  | examined
  | restricted
  | stalled
  | motorFault
  | aborted
  | noGuide
  | invalid
  deriving DecidableEq, Repr

/-- The causes of a fault mark and of a FAULTED notice (R150). -/
inductive FaultCause where
  | pullStall
  | withdrawStall
  | homeLimit
  | motorFault
  | retractStall
  deriving DecidableEq, Repr

/-- The flags of a tube record (R141). -/
structure TubeFlags where
  /-- DATA_GAP. -/
  dataGap : Bool
  /-- OVERSPEED. -/
  overspeed : Bool
  /-- REVERSAL. -/
  reversal : Bool
  /-- CATALOGUE_OVERFLOW. -/
  catOverflow : Bool
  /-- LANDMARK_MISSED. -/
  lmMissed : Bool
  /-- UNEXPECTED_LANDMARK. -/
  lmUnexpected : Bool
  /-- TRUNCATED. -/
  truncated : Bool
  /-- OVERLOAD. -/
  overload : Bool
  /-- HOLD_OCCURRED. -/
  holdOccurred : Bool
  /-- WITHDRAW_STALL. -/
  withdrawStall : Bool
  /-- HOME_FAULT. -/
  homeFault : Bool
  deriving DecidableEq, Repr

/-- The flags of a catalogue entry (R103). -/
structure EntryFlags where
  /-- LONG. -/
  long : Bool
  /-- TRUNCATED. -/
  truncated : Bool
  /-- UNMEASURED. -/
  unmeasured : Bool
  /-- OVR. -/
  ovr : Bool
  /-- REPEAT. -/
  rep : Bool
  /-- CLAMPED_LOW. -/
  clampedLow : Bool
  /-- CLAMPED_HIGH. -/
  clampedHigh : Bool
  /-- OUTSIDE. -/
  outside : Bool
  deriving DecidableEq, Repr

/-- The location of a catalogue entry (R113). -/
structure Location where
  /-- The landmark's kind. -/
  kind : LandmarkKind
  /-- The landmark's ordinal. -/
  ordinal : Nat
  /-- The signed offset, µm. -/
  offset : Int
  deriving DecidableEq, Repr

/-- A catalogue entry (R103). -/
structure CatEntry where
  /-- The channel. -/
  channel : Nat
  /-- The first line. -/
  first : Int
  /-- The last line. -/
  last : Int
  /-- The centre line. -/
  centre : Int
  /-- The corrected centre, µm. -/
  corrected : Int
  /-- The flags. -/
  flags : EntryFlags
  /-- Vpp, du. -/
  vpp : Option Nat
  /-- Phase, tenths of a degree. -/
  phase : Option Nat
  /-- Depth, percent of wall. -/
  depth : Option Nat
  /-- The location. -/
  location : Option Location
  /-- The join number (R108). -/
  join : Nat
  deriving DecidableEq, Repr

/-- The tube record (R141). The landmark list, its overflow count and the correction stand in the detector. -/
structure Tube where
  /-- The order. -/
  order : Order
  /-- Stop A as computed at taking, µm (R24). -/
  stopA : Int
  /-- Stop B as computed at taking, µm (R24). -/
  stopB : Int
  /-- The outcome, `none` while undecided. -/
  outcome : Option TubeOutcome
  /-- The flags. -/
  flags : TubeFlags
  /-- The fault mark with its cause. -/
  fault : Option FaultCause
  /-- The restriction position, µm. -/
  restriction : Option Int
  /-- Committed lines (R39). -/
  committed : Nat
  /-- Repeated lines (R39). -/
  repeated : Nat
  /-- Ignored cycles (R39). -/
  ignored : Nat
  /-- Lost lines (R164). -/
  lost : Nat
  /-- The catalogue, in its order (R107). -/
  catalogue : List CatEntry
  /-- The join count (R108). -/
  joins : Nat
  /-- The catalogue overflow count (R110). -/
  catOverflow : Nat
  /-- Minimum pull speed, mm/s (R29). -/
  minSpeed : Option Nat
  /-- Maximum pull speed, mm/s (R29). -/
  maxSpeed : Option Nat
  /-- The tube entered INSERT (R143). -/
  enteredInsert : Bool
  /-- FINISH's wait has ended and the location pass has run (R148, steps 1 and 2). -/
  located : Bool
  /-- Catalogue records the report assembler has queued (R169). -/
  reported : Nat
  deriving DecidableEq, Repr

/-! ### Jobs and the measurement engine (chapters 3 and 4) -/

/-- An indication as screening hands it on (R71, R76). -/
structure Indication where
  /-- The channel. -/
  channel : Nat
  /-- The first line. -/
  first : Int
  /-- The last line. -/
  last : Int
  /-- The peak line. -/
  peak : Int
  /-- The span values, in capture order. -/
  values : List Vec
  /-- OVR. -/
  ovr : Bool
  /-- REPEAT. -/
  rep : Bool
  /-- LONG. -/
  long : Bool
  /-- TRUNCATED. -/
  truncated : Bool
  /-- The correction at close, µm. -/
  correction : Int
  deriving DecidableEq, Repr

/-- A job of the measurement engine (R56, R59, R76). -/
inductive Job where
  /-- MEASURE: its tube's tag and the indication. -/
  | measure (tag : Nat) (ind : Indication)
  /-- SPAN: base channel, target amplitude, target phase, raw samples in capture order. -/
  | span (channel amplitude phase : Nat) (values : List Vec)
  /-- SOLVE: mix channel, calibrated values of the P and Q sources in capture order. -/
  | solve (channel : Nat) (ps qs : List Vec)
  deriving DecidableEq, Repr

/-- The job the engine is busy with (R78, R81). -/
structure EngineJob where
  /-- The job's lane. -/
  lane : LaneId
  /-- The job. -/
  job : Job
  /-- It is marked discarded (R81). -/
  discarded : Bool
  /-- When it completes, on the model's clock, ns (R79). -/
  doneAt : Nat
  deriving DecidableEq, Repr

/-- The measurement engine (R78). -/
structure Engine where
  /-- The job it is busy with; `none` while idle. -/
  busy : Option EngineJob
  /-- The served-last lane. -/
  servedLast : LaneId
  deriving DecidableEq, Repr

/-! ### Record memory (chapter 9) -/

/-- The flags of a line in a block (R162). -/
structure LineFlags where
  /-- OVR. -/
  ovr : Bool
  /-- REPEAT. -/
  rep : Bool
  /-- REGION. -/
  region : Bool
  /-- REGION_FIRST. -/
  regionFirst : Bool
  /-- REGION_LAST. -/
  regionLast : Bool
  /-- HISTORY. -/
  history : Bool
  deriving DecidableEq, Repr

/-- The two kinds of block (11.5). -/
inductive BlockKind where
  | full
  | region
  deriving DecidableEq, Repr

/-- A line of a block: its flags and its masked channels' values, ascending (R162). -/
structure BlockLine where
  /-- The line flags. -/
  flags : LineFlags
  /-- The values. -/
  values : List Vec
  deriving DecidableEq, Repr

/-- A line block, open in an assembler or complete in a record (R162). -/
structure Block where
  /-- The kind. -/
  kind : BlockKind
  /-- The tube's tag. -/
  tag : Nat
  /-- The index of the first line. -/
  first : Int
  /-- The channel mask, ascending channel numbers. -/
  mask : List Nat
  /-- The correction, µm. -/
  correction : Int
  /-- The lines, in the order placed. -/
  lines : List BlockLine
  deriving DecidableEq, Repr

/-- An entry of the history ring (R165). -/
structure RingLine where
  /-- The line index. -/
  index : Int
  /-- The line flags. -/
  flags : LineFlags
  /-- The values of the region mask's channels. -/
  values : List Vec
  /-- The correction of the line, µm. -/
  correction : Int
  deriving DecidableEq, Repr

/-- The notice kinds (11.5): seven lane notices, then the three unit notices. -/
inductive NoticeKind where
  | tubeStarted
  | pullStarted
  | pullEnded
  | held
  | resumed
  | faulted
  | laneReset
  | poolTight
  | poolEasy
  | linkUp
  deriving DecidableEq, Repr

/-- A notice (R170). -/
structure Notice where
  /-- The kind. -/
  kind : NoticeKind
  /-- The lane; `none` for a unit notice (lane value 255). -/
  lane : Option LaneId
  /-- The tag of the lane's current tube. -/
  tag : Option Nat
  /-- The cause of a FAULTED notice. -/
  cause : Option FaultCause
  deriving DecidableEq, Repr

/-- The content of a SUMMARY record (11.5). -/
structure Summary where
  /-- The order's tag. -/
  tag : Nat
  /-- The row. -/
  row : Nat
  /-- The column. -/
  column : Nat
  /-- The outcome. -/
  outcome : Option TubeOutcome
  /-- The flags. -/
  flags : TubeFlags
  /-- The restriction position. -/
  restriction : Option Int
  /-- Committed lines. -/
  committed : Nat
  /-- Lost lines. -/
  lost : Nat
  /-- Repeated lines. -/
  repeated : Nat
  /-- Ignored cycles. -/
  ignored : Nat
  /-- Catalogue entry count. -/
  entries : Nat
  /-- Catalogue record count. -/
  records : Nat
  /-- Catalogue overflow count. -/
  catOverflow : Nat
  /-- Unexpected-landmark overflow count. -/
  lmOverflow : Nat
  /-- Minimum pull speed. -/
  minSpeed : Option Nat
  /-- Maximum pull speed. -/
  maxSpeed : Option Nat
  /-- Final correction. -/
  correction : Int
  /-- The landmark entries, in ascending position. -/
  landmarks : List LandmarkEntry
  deriving DecidableEq, Repr

/-- A record (11.5). -/
inductive Record where
  | lineBlock (lane : LaneId) (block : Block)
  | catalogue (lane : LaneId) (tag number count : Nat) (entries : List CatEntry)
  | summary (lane : LaneId) (content : Summary)
  | notice (content : Notice)
  deriving DecidableEq, Repr

/-- Record memory (R157 to R160, R170). Each queued record stands for its buffer. -/
structure Pool where
  /-- The free count. -/
  free : Nat
  /-- The outbound queue, front first. -/
  queue : List Record
  /-- The pool state, `true` for TIGHT. -/
  tight : Bool
  /-- The low-water level. -/
  low : Nat
  /-- The resume level. -/
  resume : Nat
  /-- The notices-dropped count. -/
  dropped : Nat
  deriving DecidableEq, Repr

/-! ### Station link (chapter 10) -/

/-- The receiver (R173). -/
inductive Receiver where
  /-- HUNTING; whether the last byte looked at was a first sync byte. -/
  | hunting (first : Bool)
  /-- IN_FRAME, with the bytes read since the sync word. -/
  | inFrame (got : List Byte)
  deriving DecidableEq, Repr

/-- The header of a request (11.1). -/
structure Header where
  /-- The request kind. -/
  kind : Byte
  /-- The lane byte. -/
  lane : Byte
  /-- The tag. -/
  tag : BitVec 16
  deriving DecidableEq, Repr

/-- The request handler (R177). -/
inductive Handler where
  | free
  /-- WORKING on a SPAN_CAL or SOLVE_MIX in flight (R178). -/
  | working (hdr : Header)
  deriving DecidableEq, Repr

/-- The reply codes (R185). -/
inductive ReplyCode where
  | ok
  | badKind
  | badLength
  | badLane
  | badField
  | busy
  | state
  | full
  | duplicate
  | notFound
  | notReady
  | noData
  | spanWeak
  | gainRange
  deriving DecidableEq, Repr

/-- The states of a lane (8.1). -/
inductive LaneState where
  | idle
  | guideCheck
  | insert
  | turn
  | pull
  | withdraw
  | finish
  | held
  | faulted
  | retract
  deriving DecidableEq, Repr

/-- The unit part of a STATUS reply (R183, 11.4). -/
structure UnitStatus where
  /-- Link state, `true` for UP. -/
  up : Bool
  /-- Event mask. -/
  mask : BitVec 7
  /-- Frames in the request queue. -/
  requests : Nat
  /-- Pool state, `true` for TIGHT. -/
  tight : Bool
  /-- Silence time, ms. -/
  silence : Nat
  /-- Free count. -/
  free : Nat
  /-- Records in the outbound queue. -/
  records : Nat
  /-- Low-water level. -/
  low : Nat
  /-- Resume level. -/
  resume : Nat
  /-- The lane of the engine's job; `none` while idle. -/
  engine : Option LaneId
  /-- Served-last lane. -/
  servedLast : LaneId
  /-- Bad-frame count. -/
  bad : Nat
  /-- Overflowed-frame count. -/
  overflowed : Nat
  /-- Notices-dropped count. -/
  dropped : Nat
  deriving DecidableEq, Repr

/-- A lane part of a STATUS reply (R183, 11.4). -/
structure LaneStatus where
  /-- Lane state. -/
  state : LaneState
  /-- Held phase while HELD. -/
  heldPhase : Option LaneState
  /-- Orders in the worklist. -/
  orders : Nat
  /-- The current tube's tag. -/
  tag : Option Nat
  /-- The rearm flag. -/
  rearm : Bool
  /-- Measured direction. -/
  direction : Direction
  /-- Motor ENABLED. -/
  enabled : Bool
  /-- The brake. -/
  brake : Brake
  /-- The direction output. -/
  dir : DriveDir
  /-- Motion phase. -/
  phase : MotionPhase
  /-- Duty. -/
  duty : Nat
  /-- Measured speed. -/
  speed : Nat
  /-- Debounced guide-latched. -/
  guide : Bool
  /-- Debounced probe-home. -/
  home : Bool
  /-- Debounced motor-fault. -/
  fault : Bool
  /-- Jobs in the lane's queue. -/
  jobs : Nat
  /-- The engine holds a job of the lane. -/
  engine : Bool
  /-- Raw position. -/
  raw : Option Int
  /-- Encoder error count. -/
  errors : Nat
  /-- Lines in the calibration store. -/
  store : Nat
  /-- The store's first index. -/
  storeFirst : Option Int
  /-- Catalogue entries of the current tube. -/
  entries : Nat
  /-- Catalogue overflow count of the current tube. -/
  catOverflow : Nat
  deriving DecidableEq, Repr

/-- What a reply carries after its status byte (11.4). -/
inductive ReplyBody where
  | empty
  | setLink (silence : Nat) (mask : BitVec 7) (low resume : Nat)
  | setLayout (cls supports : Nat)
  | setScan (slots cycle : Nat) (limit : Option Nat) (effective : Nat)
  | setChannel (null : Vec) (kc ks : Int) (active : Bool)
  | active (isActive : Bool)
  | setMotion (limit : Option Nat) (effective : Nat)
  | queueTube (count : Nat) (stopA stopB : Int)
  | cancelTube (left : Nat)
  | spanCal (angle : Option Nat) (vpp : Nat) (coefficient : Option (Int × Int))
  | solveMix (mc ms : Int) (vpp : Nat)
  | status (unit : UnitStatus) (laneA laneB : LaneStatus)
  deriving DecidableEq, Repr

/-- A reply (R177). -/
structure Reply where
  /-- The header of the request answered. -/
  hdr : Header
  /-- The reply code. -/
  code : ReplyCode
  /-- The fields. -/
  body : ReplyBody
  deriving DecidableEq, Repr

/-- What the transmitter is sending (R180). -/
inductive Sending where
  | reply
  | record
  deriving DecidableEq, Repr

/-- The transmitter (R180). -/
inductive Transmitter where
  | idle
  /-- SENDING: what, the frame's bytes, and when the transmission ends on the model's clock, ns. -/
  | sending (what : Sending) (frame : List Byte) (doneAt : Nat)
  deriving DecidableEq, Repr

/-- The link interface and the request handler (chapter 10). -/
structure Link where
  /-- The receiver. -/
  rx : Receiver
  /-- When the last byte arrived, on the model's clock, ns (R173). -/
  lastByte : Nat
  /-- The request queue: payloads of good frames, front first (R175). -/
  requests : List (List Byte)
  /-- The request handler. -/
  handler : Handler
  /-- The reply slot (R179). -/
  slot : Option Reply
  /-- The transmitter. -/
  tx : Transmitter
  /-- The link state, `true` for UP (R176). -/
  up : Bool
  /-- When the silence timer expires, on the model's clock, ns; `none` while stopped (R176). -/
  silenceDue : Option Nat
  /-- The silence time, ms (R181). -/
  silence : Nat
  /-- The event mask (R182). -/
  mask : BitVec 7
  /-- The bad-frame count (R184). -/
  bad : Nat
  /-- The overflowed-frame count (R184). -/
  overflowed : Nat
  deriving DecidableEq, Repr

/-! ### A lane and the unit -/

/-- A timer of the lane controller: off, running to a due time, or frozen with the time left, ns (R151). -/
inductive Timer where
  | off
  | running (due : Nat)
  | frozen (left : Nat)
  deriving DecidableEq, Repr

/-- The lane controller's own state (chapter 8). -/
structure Control where
  /-- The lane state. -/
  state : LaneState
  /-- The held phase (R151). -/
  heldPhase : Option LaneState
  /-- The state a retraction returns to (R154). -/
  returnTo : Option LaneState
  /-- The worklist, front first (R139). -/
  worklist : List Order
  /-- The rearm flag (R143). -/
  rearm : Bool
  /-- The guide poll timer (R143). -/
  poll : Timer
  /-- The guide attempt count (R143). -/
  attempts : Nat
  /-- The dwell timer (R145). -/
  dwell : Timer
  /-- The current tube's record (R141). -/
  tube : Option Tube
  deriving DecidableEq, Repr

/-- All that one lane holds (3.1). -/
structure Lane where
  /-- The excitation unit. -/
  exc : Excitation
  /-- The position counter. -/
  pos : Position
  /-- Line capture. -/
  capture : Capture
  /-- Base channels 0 to 15. -/
  bases : List BaseChannel
  /-- Mix channels 16 to 19. -/
  mixes : List MixChannel
  /-- The calibration store, first index first (R52). -/
  store : List StoredLine
  /-- The screen states of channels 0 to 19 (R65). -/
  screens : List Screen
  /-- The ROI: `none` while inactive, the quiet-line count while active (R75). -/
  roi : Option Nat
  /-- The landmark settings (R88). -/
  landmark : LandmarkSettings
  /-- The landmark detector. -/
  detector : Detector
  /-- The motion and sequence settings (R133). -/
  motion : Motion
  /-- The pusher drive. -/
  drive : Drive
  /-- The lane controller. -/
  ctl : Control
  /-- The job queue, front first (R77). -/
  jobs : List Job
  /-- The line assembler's open block (R163). -/
  lineBlock : Option Block
  /-- The region assembler's open block (R163). -/
  regionBlock : Option Block
  /-- The history ring, oldest first (R165). -/
  ring : List RingLine
  deriving DecidableEq, Repr

/-- The state of the unit. -/
structure State where
  /-- Lane A. -/
  laneA : Lane
  /-- Lane B. -/
  laneB : Lane
  /-- The layout class table: entry k is class k + 1 (R85). -/
  layouts : List (Option Layout)
  /-- The measurement engine. -/
  engine : Engine
  /-- Record memory. -/
  pool : Pool
  /-- The station link. -/
  link : Link
  /-- The model's clock: ns since power-on (log entry 3). -/
  clock : Nat
  /-- The model's queue of waiting commands, front first. -/
  pending : List Instr
  deriving DecidableEq, Repr

/-! ### Reset -/

/-- The power-on screening settings (R63). -/
def Screening.reset : Screening :=
  { enable := false, component := .vert, openTh := 1000, closeTh := 500, confirm := 2, release := 3, shift := 4 }

/-- The power-on settings that base and mix channels share (R62). -/
def Facets.reset : Facets := { screening := Screening.reset, disposition := .off, curve := [] }

/-- A base channel after power-on (R62). -/
def BaseChannel.reset : BaseChannel := { null := ⟨0, 0⟩, kc := 4096, ks := 0, facets := Facets.reset }

/-- A mix channel after power-on (R62). -/
def MixChannel.reset : MixChannel := { defn := none, facets := Facets.reset }

/-- A channel's screen state at power-on, at each pull start and at LANE_RESET (R65, R84). -/
def Screen.reset : Screen := { phase := .quiet, baseline := none, count := 0, span := [] }

/-- The power-on landmark settings (R88, R102). -/
def LandmarkSettings.reset : LandmarkSettings :=
  { channel := none, ref := ⟨0, 0⟩, threshold := 3000, spMin := 10, spMax := 60, tsMin := 80, tolerance := 25000 }

/-- The landmark detector after power-on (R102). -/
def Detector.reset : Detector :=
  { watch := false, firstTaken := false, run := none, expected := [], pointer := 0, unexpected := [], overflow := 0, correction := 0 }

/-- The power-on motion settings (R133). -/
def Motion.reset : Motion :=
  { pitch := none, insertSpeed := 1000, pullSpeed := 500, withdrawSpeed := 1500, startDuty := 200, dmax := 900, kp := 24,
    stallDistance := 2000, stallTime := 500, debounce := 10, homeLimit := 500000, farBack := 25000, pullEnd := 10000,
    pollInterval := 100, attemptLimit := 600, turnDwell := 200 }

/-- The position counter after power-on (R40). The phase state is the model's choice (log entry 1). -/
def Position.reset : Position :=
  { count := 0, phase := ⟨false, false⟩, scale := none, errors := 0, armedA := false, armedB := false, refPos := 0, speed := 0,
    direction := .still, wholePull := false, periodEnd := Config.controlPeriodNs }

/-- The drive after power-on (R135, R119). The raw levels are the model's choice (log entry 2). -/
def Drive.reset : Drive :=
  { enabled := false, brake := .engaged, duty := 0, dir := .forward, phase := .none, window := none,
    guide := { raw := false, active := false, since := 0 }, home := { raw := false, active := false, since := 0 },
    fault := { raw := false, active := true, since := 0 } }

/-- The lane controller after power-on (R156). -/
def Control.reset : Control :=
  { state := .idle, heldPhase := none, returnTo := none, worklist := [], rearm := true, poll := .off, attempts := 0, dwell := .off,
    tube := none }

/-- A lane after power-on (R19, R40, R41, R62, R84, R102, R117, R135, R156, R172). -/
def Lane.reset : Lane :=
  { exc := { freqs := [], slots := [], run := none }, pos := Position.reset, capture := { armed := false, window := [] },
    bases := List.replicate 16 BaseChannel.reset, mixes := List.replicate 4 MixChannel.reset, store := [],
    screens := List.replicate 20 Screen.reset, roi := none, landmark := LandmarkSettings.reset, detector := Detector.reset,
    motion := Motion.reset, drive := Drive.reset, ctl := Control.reset, jobs := [], lineBlock := none, regionBlock := none, ring := [] }

/-- Record memory after power-on (R172). -/
def Pool.reset : Pool := { free := Config.bufferCount, queue := [], tight := false, low := 48, resume := 96, dropped := 0 }

/-- The link side after power-on (R186). -/
def Link.reset : Link :=
  { rx := .hunting false, lastByte := 0, requests := [], handler := .free, slot := none, tx := .idle, up := false, silenceDue := none,
    silence := 2000, mask := 0x7F, bad := 0, overflowed := 0 }

/-- The unit right after reset, which for this block is power-on (R186 and the power-on rule of each chapter). -/
def State.reset : State :=
  { laneA := Lane.reset, laneB := Lane.reset, layouts := List.replicate 16 none, engine := { busy := none, servedLast := .b },
    pool := Pool.reset, link := Link.reset, clock := 0, pending := [] }

end Sys2Proof.Machine
end

