-- ==== Sys2Proof/Machine/Flags.lean ====
section
/-! DEFINITION. The flag and code bytes of replies and records (11.1, 11.4, 11.5). -/

namespace Sys2Proof.Machine

/-- The number whose bit n is the n-th of the list, bit 0 first. -/
def bitsOf : List Bool → Nat
  | [] => 0
  | b :: rest => b.toNat + 2 * bitsOf rest

/-- The line flag bits (11.5, LINE_BLOCK). -/
def LineFlags.bits (f : LineFlags) : Nat := bitsOf [f.ovr, f.rep, f.region, f.regionFirst, f.regionLast, f.history]

/-- The catalogue entry flag bits (11.5, CATALOGUE). -/
def EntryFlags.bits (f : EntryFlags) : Nat :=
  bitsOf [f.long, f.truncated, f.unmeasured, f.ovr, f.rep, f.clampedLow, f.clampedHigh, f.outside]

/-- The summary flag bits (11.5, SUMMARY). -/
def TubeFlags.bits (f : TubeFlags) : Nat :=
  bitsOf [f.dataGap, f.overspeed, f.reversal, f.catOverflow, f.lmMissed, f.lmUnexpected, f.truncated, f.overload, f.holdOccurred,
    f.withdrawStall, f.homeFault]

/-- The flags of a tube record when the lane takes the order: all clear (R141). -/
def TubeFlags.clear : TubeFlags :=
  { dataGap := false, overspeed := false, reversal := false, catOverflow := false, lmMissed := false, lmUnexpected := false,
    truncated := false, overload := false, holdOccurred := false, withdrawStall := false, homeFault := false }

/-- Line flags with only OVR and REPEAT as given. -/
def LineFlags.plain (ovr rep : Bool) : LineFlags :=
  { ovr := ovr, rep := rep, region := false, regionFirst := false, regionLast := false, history := false }

/-- The mask bits of a list of channel numbers (11.5, LINE_BLOCK). -/
def maskBits (channels : List Nat) : Nat := bitsOf ((List.range 20).map fun n => channels.contains n)

/-- The lane byte (00_scope, 5). -/
def laneCode : LaneId → Nat
  | .a => 0
  | .b => 1

/-- The outcome codes (11.5, SUMMARY). -/
def TubeOutcome.code : TubeOutcome → Nat
  | .examined => 1
  | .restricted => 2
  | .stalled => 3
  | .motorFault => 4
  | .aborted => 5
  | .noGuide => 6
  | .invalid => 7

/-- The cause codes (11.5, NOTICE). -/
def FaultCause.code : FaultCause → Nat
  | .pullStall => 1
  | .withdrawStall => 2
  | .homeLimit => 3
  | .motorFault => 4
  | .retractStall => 5

/-- The notice kind codes (11.5, NOTICE). -/
def NoticeKind.code : NoticeKind → Nat
  | .tubeStarted => 1
  | .pullStarted => 2
  | .pullEnded => 3
  | .held => 4
  | .resumed => 5
  | .faulted => 6
  | .laneReset => 7
  | .poolTight => 8
  | .poolEasy => 9
  | .linkUp => 10

/-- The event mask bit of a lane notice kind; a unit notice has none (R182, 11.3). -/
def NoticeKind.maskBit : NoticeKind → Option Nat
  | .tubeStarted => some 0
  | .pullStarted => some 1
  | .pullEnded => some 2
  | .held => some 3
  | .resumed => some 4
  | .faulted => some 5
  | .laneReset => some 6
  | .poolTight => none
  | .poolEasy => none
  | .linkUp => none

/-- The landmark kind codes (11.5, SUMMARY and CATALOGUE). -/
def LandmarkKind.code : LandmarkKind → Nat
  | .tsf => 1
  | .tsn => 2
  | .support => 3
  | .sheet => 4

/-- The landmark state codes (11.5, SUMMARY). -/
def LandmarkState.code : LandmarkState → Nat
  | .pending => 0
  | .matched => 1
  | .missed => 2
  | .unexpected => 3

/-- The lane state codes (11.4, STATUS). -/
def LaneState.code : LaneState → Nat
  | .idle => 0
  | .guideCheck => 1
  | .insert => 2
  | .turn => 3
  | .pull => 4
  | .withdraw => 5
  | .finish => 6
  | .held => 7
  | .faulted => 8
  | .retract => 9

/-- The measured direction codes (11.4, STATUS). -/
def Direction.code : Direction → Nat
  | .still => 0
  | .forward => 1
  | .reverse => 2

/-- The motion phase codes (11.4, STATUS). -/
def MotionPhase.code : MotionPhase → Nat
  | .none => 0
  | .insert => 1
  | .pull => 2
  | .withdraw => 3
  | .retract => 4

/-- The reply codes (11.1). -/
def ReplyCode.code : ReplyCode → Nat
  | .ok => 0
  | .badKind => 1
  | .badLength => 2
  | .badLane => 3
  | .badField => 4
  | .busy => 5
  | .state => 6
  | .full => 7
  | .duplicate => 8
  | .notFound => 9
  | .notReady => 10
  | .noData => 11
  | .spanWeak => 12
  | .gainRange => 13

/-- The block kind codes (11.5, LINE_BLOCK). -/
def BlockKind.code : BlockKind → Nat
  | .full => 0
  | .region => 1

end Sys2Proof.Machine
end

