-- ==== Sys2Proof/Machine/Encode.lean ====
section
/-! DEFINITION. The bytes the unit sends: fields, replies, records and frames (chapter 11, R187 to R190). -/

namespace Sys2Proof.Machine

/-! ### Fields -/

/-- The low `k` bytes of a number, least significant first (00_scope, 5). -/
def leBytes : Nat → Nat → List Byte
  | 0, _ => []
  | k + 1, v => BitVec.ofNat 8 v :: leBytes k (v / 256)

/-- An unsigned field of `k` bytes; a value that does not fit leaves the field open (log entry 13). -/
def uField (k v : Nat) : List Byte := leBytes k (if v < 256 ^ k then v else Config.unstatedField v)

/-- A two's-complement field of `k` bytes; a value that does not fit leaves the field open (log entry 13). -/
def sField (k : Nat) (v : Int) : List Byte :=
  leBytes k (if -(256 ^ k : Nat) ≤ 2 * v ∧ 2 * v < (256 ^ k : Nat) then (v % (256 ^ k : Nat)).toNat else Config.unstatedField v)

/-- A presence or flag byte, bit 0 first. -/
def bitsField (bits : List Bool) : List Byte := uField 1 (bitsOf bits)

/-- Reserved bytes, written 0 (R188). -/
def reserved (k : Nat) : List Byte := leBytes k 0

/-- An optional unsigned field, zeros when absent (R189). -/
def uOpt (k : Nat) (v : Option Nat) : List Byte := uField k (v.getD 0)

/-- An optional signed field, zeros when absent (R189). -/
def sOpt (k : Nat) (v : Option Int) : List Byte := sField k (v.getD 0)

/-- A signal value as s16 X and s16 Y. -/
def vecField (v : Vec) : List Byte := sField 2 v.x ++ sField 2 v.y

/-! ### Replies (11.4) -/

/-- The unit part of a STATUS reply (11.4). -/
def UnitStatus.bytes (u : UnitStatus) : List Byte :=
  bitsField [u.up] ++ uField 1 u.mask.toNat ++ uField 1 u.requests ++ bitsField [u.tight] ++ uField 2 u.silence ++ uField 2 u.free ++
  uField 2 u.records ++ uField 1 u.low ++ uField 1 u.resume ++ bitsField [u.engine.isSome] ++
  uField 1 ((u.engine.map laneCode).getD 0) ++ uField 1 (laneCode u.servedLast) ++ reserved 1 ++ uField 4 u.bad ++
  uField 4 u.overflowed ++ uField 4 u.dropped

/-- A lane part of a STATUS reply (11.4). -/
def LaneStatus.bytes (l : LaneStatus) : List Byte :=
  uField 1 l.state.code ++ uField 1 ((l.heldPhase.map LaneState.code).getD 0) ++ uField 1 l.orders ++
  bitsField [l.tag.isSome, l.raw.isSome, l.storeFirst.isSome] ++ uOpt 4 l.tag ++ bitsField [l.rearm] ++ uField 1 l.direction.code ++
  bitsField [l.enabled, l.brake == .engaged, l.dir == .reverse] ++ uField 1 l.phase.code ++ uField 2 l.duty ++ reserved 2 ++
  uField 4 l.speed ++ bitsField [l.guide, l.home, l.fault] ++ uField 1 l.jobs ++ bitsField [l.engine] ++ reserved 1 ++ sOpt 4 l.raw ++
  uField 4 l.errors ++ uField 2 l.store ++ reserved 2 ++ sOpt 4 l.storeFirst ++ uField 1 l.entries ++ reserved 1 ++
  uField 2 l.catOverflow

/-- What a reply carries after its status byte (11.4). -/
def ReplyBody.bytes : ReplyBody → List Byte
  | .empty => []
  | .setLink silence mask low resume => uField 2 silence ++ uField 1 mask.toNat ++ uField 1 low ++ uField 1 resume ++ reserved 1
  | .setLayout cls supports => uField 1 cls ++ uField 1 supports
  | .setScan slots cycle limit effective =>
    uField 1 slots ++ bitsField [limit.isSome] ++ reserved 2 ++ uField 4 cycle ++ uOpt 4 limit ++ uField 4 effective
  | .setChannel null kc ks act => vecField null ++ sField 2 kc ++ sField 2 ks ++ bitsField [act] ++ reserved 3
  | .active act => bitsField [act]
  | .setMotion limit effective => bitsField [limit.isSome] ++ reserved 3 ++ uOpt 4 limit ++ uField 4 effective
  | .queueTube count stopA stopB => uField 1 count ++ reserved 3 ++ sField 4 stopA ++ sField 4 stopB
  | .cancelTube left => uField 1 left
  | .spanCal angle vpp coefficient =>
    bitsField [angle.isSome] ++ reserved 1 ++ uOpt 2 angle ++ uField 4 vpp ++
    (match coefficient with
      | some k => sField 2 k.1 ++ sField 2 k.2
      | none => [])
  | .solveMix mc ms vpp => sField 2 mc ++ sField 2 ms ++ uField 4 vpp
  | .status u la lb => u.bytes ++ la.bytes ++ lb.bytes

/-- The two tag bytes as received, least significant first (R187). -/
def tagField (tag : BitVec 16) : List Byte := leBytes 2 tag.toNat

/-- The payload of a reply: the kind with its top bit set, lane and tag as received, the code, the fields (R177, R187). -/
def Reply.payload (r : Reply) : List Byte :=
  [r.hdr.kind ||| 0x80, r.hdr.lane] ++ tagField r.hdr.tag ++ uField 1 r.code.code ++ r.body.bytes

/-! ### Records (11.5) -/

/-- A record's four header bytes: kind, lane and the tag field 0 (R187). -/
def recordHeader (kind lane : Nat) : List Byte := uField 1 kind ++ uField 1 lane ++ reserved 2

/-- A line of a LINE_BLOCK (11.5). -/
def BlockLine.bytes (l : BlockLine) : List Byte := uField 4 l.flags.bits ++ l.values.flatMap vecField

/-- The payload of a LINE_BLOCK after its header (11.5). -/
def Block.bytes (b : Block) : List Byte :=
  uField 4 b.tag ++ uField 1 b.kind.code ++ uField 1 b.lines.length ++ reserved 2 ++ sField 4 b.first ++ uField 4 (maskBits b.mask) ++
  sField 4 b.correction ++ b.lines.flatMap BlockLine.bytes

/-- An entry of a CATALOGUE (11.5). -/
def CatEntry.bytes (e : CatEntry) : List Byte :=
  uField 1 e.channel ++ bitsField [e.vpp.isSome, e.phase.isSome, e.depth.isSome, e.location.isSome] ++ uField 2 e.flags.bits ++
  sField 4 e.first ++ sField 4 e.last ++ sField 4 e.centre ++ sField 4 e.corrected ++ uOpt 4 e.vpp ++ uOpt 2 e.phase ++ uOpt 1 e.depth ++
  uField 1 ((e.location.map fun l => l.kind.code).getD 0) ++ uField 1 ((e.location.map fun l => l.ordinal).getD 0) ++ reserved 3 ++
  sField 4 ((e.location.map fun l => l.offset).getD 0)

/-- A landmark entry of a SUMMARY (11.5). -/
def LandmarkEntry.bytes (e : LandmarkEntry) : List Byte :=
  uField 1 e.kind.code ++ uField 1 e.ordinal ++ uField 1 e.state.code ++ bitsField [e.nominal.isSome, e.found.isSome, e.raw.isSome] ++
  sOpt 4 e.nominal ++ sOpt 4 e.found ++ sOpt 4 e.raw

/-- The payload of a SUMMARY after its header (11.5). An undecided outcome has no code (log entry 27). -/
def Summary.bytes (s : Summary) : List Byte :=
  uField 4 s.tag ++ uField 2 s.row ++ uField 2 s.column ++ uField 1 ((s.outcome.map TubeOutcome.code).getD (Config.unstatedField 0)) ++
  bitsField [s.restriction.isSome, s.minSpeed.isSome && s.maxSpeed.isSome] ++ uField 2 s.flags.bits ++ sOpt 4 s.restriction ++
  uField 4 s.committed ++ uField 4 s.lost ++ uField 4 s.repeated ++ uField 4 s.ignored ++ uField 1 s.entries ++ uField 1 s.records ++
  uField 2 s.catOverflow ++ uField 2 s.lmOverflow ++ uOpt 4 s.minSpeed ++ uOpt 4 s.maxSpeed ++ sField 4 s.correction ++
  uField 1 s.landmarks.length ++ reserved 3 ++ s.landmarks.flatMap LandmarkEntry.bytes

/-- The payload of a NOTICE after its header (11.5). -/
def Notice.bytes (n : Notice) : List Byte :=
  uField 1 n.kind.code ++ uField 1 ((n.cause.map FaultCause.code).getD 0) ++ bitsField [n.tag.isSome] ++ reserved 1 ++ uOpt 4 n.tag

/-- The payload of a record (R187, R190). -/
def Record.payload : Record → List Byte
  | .lineBlock lane b => recordHeader 0x60 (laneCode lane) ++ b.bytes
  | .catalogue lane tag number count entries =>
    recordHeader 0x61 (laneCode lane) ++ uField 4 tag ++ uField 1 number ++ uField 1 count ++ uField 1 entries.length ++ reserved 1 ++
    entries.flatMap CatEntry.bytes
  | .summary lane s => recordHeader 0x62 (laneCode lane) ++ s.bytes
  | .notice n => recordHeader 0x63 ((n.lane.map laneCode).getD 255) ++ n.bytes

/-! ### Frames (11.1, R174, R187) -/

/-- A frame after its sync word: the length, the payload and the CRC over both, least significant byte first. -/
def frameBody (payload : List Byte) : List Byte :=
  let covered := leBytes 2 payload.length ++ payload
  covered ++ leBytes 4 (crc32 covered).toNat

/-- A whole frame (11.1). -/
def frameOf (payload : List Byte) : List Byte := syncFirst :: syncSecond :: frameBody payload

end Sys2Proof.Machine
end

