-- ==== Sys2Proof/Machine/Ops.lean ====
section
/-! DEFINITION. The operations that the blocks share: the two lanes, the model's clock, the scan timing, record memory with
its pressure and notices (chapter 9), the transmitter (chapter 10), and the measurement engine's queues (chapter 4). -/

namespace Sys2Proof.Machine

/-! ### Lanes and the clock -/

/-- The lane of the given number. -/
def State.lane (s : State) : LaneId → Lane
  | .a => s.laneA
  | .b => s.laneB

/-- The state with one lane replaced. -/
def State.setLane (s : State) (l : LaneId) (x : Lane) : State :=
  match l with
  | .a => { s with laneA := x }
  | .b => { s with laneB := x }

/-- The state with one lane changed. -/
def State.upd (s : State) (l : LaneId) (f : Lane → Lane) : State := s.setLane l (f (s.lane l))

/-- The other lane. -/
def otherLane : LaneId → LaneId
  | .a => .b
  | .b => .a

/-- Time has reached `due`: a timed event that is taken moves the clock to its due time if that lies ahead (log entry 3). -/
def State.reach (s : State) (due : Nat) : State := { s with clock := max s.clock due }

/-- A change of the lane controller. -/
def Lane.updCtl (x : Lane) (f : Control → Control) : Lane := { x with ctl := f x.ctl }

/-- A change of the current tube's record; nothing where the lane has no current tube. -/
def Lane.updTube (x : Lane) (f : Tube → Tube) : Lane := { x with ctl := { x.ctl with tube := x.ctl.tube.map f } }

/-- A change of the current tube's flags. -/
def Lane.updFlags (x : Lane) (f : TubeFlags → TubeFlags) : Lane := x.updTube fun t => { t with flags := f t.flags }

/-- The tag of the current tube. -/
def Lane.tag (x : Lane) : Option Nat := x.ctl.tube.map fun t => t.order.tag

/-! ### Scan timing (R11 to R14) -/

/-- The frequency of a slot, Hz (R1). -/
def Excitation.freq (e : Excitation) (slot : Slot) : Nat := e.freqs.getD slot.freqIndex 0

/-- ceil(cycles × 10^9 / f) (R11). -/
def periodsNs (cycles f : Nat) : Nat := (cycles * 1000000000 + (f - 1)) / f

/-- The slot time of a slot, ns (R11). -/
def Excitation.slotTime (e : Excitation) (slot : Slot) : Nat :=
  periodsNs (slot.settle + slot.integrate) (e.freq slot) + Config.switchNs

/-- The cycle time, ns; 0 while STOPPED (R12). -/
def Excitation.cycleTime (e : Excitation) : Nat := (e.slots.map e.slotTime).sum

/-- The line-rate speed limit, mm/s; absent when the pitch is unset or the scan table empty (R13). -/
def Lane.lineRateLimit (x : Lane) : Option Nat :=
  match x.motion.pitch with
  | none => none
  | some pitch => if x.exc.slots = [] then none else some (pitch * 1000000 / x.exc.cycleTime)

/-- The effective pull speed, mm/s (R14). -/
def Lane.effectivePull (x : Lane) : Nat :=
  match x.lineRateLimit with
  | none => x.motion.pullSpeed
  | some limit => min x.motion.pullSpeed limit

/-- What the excitation drives: coil input, drive level in eighths, gain step, frequency (R4); nothing while STOPPED (R3). -/
def Excitation.driven (e : Excitation) : Option (Nat × Nat × Nat × Nat) :=
  match e.run with
  | none => none
  | some r => (e.slots[r.slot]?).map fun sl => (sl.coil, sl.drive, sl.gain, e.freq sl)

/-! ### Positions -/

/-- The raw position, µm; absent while the scale is unset (R22). -/
def Position.raw (p : Position) : Option Int := p.scale.map fun k => p.count * (k : Int)

/-- The pitch as a number. A lane with a tube has its pitch set (R138). -/
def Lane.pitch (x : Lane) : Nat := x.motion.pitch.getD 0

/-! ### The transmitter (R179, R180) -/

/-- The transmitter begins a frame: it takes 1 µs a byte (R180). -/
def State.send (s : State) (what : Sending) (payload : List Byte) : State :=
  { s with link := { s.link with
      tx := .sending what (frameOf payload) (s.clock + Config.byteNs * (payload.length + 8)) } }

/-- The transmitter chooses what to send: while the link is UP the reply in the slot, which leaves the slot at that
moment (R179), else the record at the front of the outbound queue; otherwise it becomes IDLE (R180). -/
def State.choose (s : State) : State :=
  let idle : State := { s with link := { s.link with tx := .idle } }
  if s.link.up then
    match s.link.slot, s.pool.queue with
    | some r, _ => { idle with link := { idle.link with slot := none } }.send .reply r.payload
    | none, k :: _ => idle.send .record k.payload
    | none, [] => idle
  else idle

/-- An IDLE transmitter begins at once with what waits (R180). -/
def State.kick (s : State) : State :=
  match s.link.tx with
  | .idle => s.choose
  | .sending _ _ _ => s

/-- A reply enters the reply slot (R177, R179). -/
def State.placeReply (s : State) (r : Reply) : State := { s with link := { s.link with slot := some r } }.kick

/-! ### Record memory (R157 to R161, R170) -/

/-- A complete record joins the outbound queue at the back (R158). -/
def State.enqueue (s : State) (r : Record) : State :=
  { s with pool := { s.pool with queue := s.pool.queue ++ [r] } }.kick

/-- A notice takes a buffer and joins the outbound queue, or is dropped for want of one (R170). The pool is not yet
tested. -/
def State.rawNotice (s : State) (n : Notice) : State :=
  if s.pool.free = 0 then
    { s with pool := { s.pool with dropped := countUp Config.count32Max s.pool.dropped } }
  else { s with pool := { s.pool with free := s.pool.free - 1 } }.enqueue (.notice n)

/-- A unit notice of the given kind (R170). -/
def unitNotice (kind : NoticeKind) : Notice := { kind := kind, lane := none, tag := none, cause := none }

/-- The pool becomes TIGHT and emits POOL_TIGHT (R159). -/
def State.becomeTight (s : State) : State :=
  { s with pool := { s.pool with tight := true } }.rawNotice (unitNotice .poolTight)

/-- The pool becomes EASY and emits POOL_EASY (R159). -/
def State.becomeEasy (s : State) : State :=
  { s with pool := { s.pool with tight := false } }.rawNotice (unitNotice .poolEasy)

/-- The test of the pool state after a change of the free count (R159). POOL_TIGHT's own buffer cannot change the state;
POOL_EASY's can make the pool TIGHT again at once. -/
def State.testPool (s : State) : State :=
  if s.pool.tight then
    if s.pool.resume ≤ s.pool.free then
      let e := s.becomeEasy
      if e.pool.free ≤ e.pool.low then e.becomeTight else e
    else s
  else if s.pool.free ≤ s.pool.low then s.becomeTight
  else s

/-- A buffer leaves the free pool, and the pool is tested (R157, R159). -/
def State.takeBuffer (s : State) : State := { s with pool := { s.pool with free := s.pool.free - 1 } }.testPool

/-- A buffer returns to the free pool, and the pool is tested (R157, R159). -/
def State.returnBuffer (s : State) : State := { s with pool := { s.pool with free := s.pool.free + 1 } }.testPool

/-- A record that takes its buffer and is complete in the same step: a report or a notice (R169, R170). It joins the
queue before the pool is tested (log entry 12). -/
def State.queueRecord (s : State) (r : Record) : State :=
  ({ s with pool := { s.pool with free := s.pool.free - 1 } }.enqueue r).testPool

/-- A notice is formed: it takes a buffer and is queued, or is dropped (R170). -/
def State.formNotice (s : State) (n : Notice) : State :=
  if s.pool.free = 0 then s.rawNotice n else s.queueRecord (.notice n)

/-- The event mask enables a notice kind; a unit notice is not subject to it (R182). -/
def Link.enables (k : Link) (kind : NoticeKind) : Bool :=
  match kind.maskBit with
  | some n => k.mask.getLsbD n
  | none => true

/-- A lane controller emits a notice: not formed where the event mask excludes it, else with the tag of the lane's current
tube (R170, R182). -/
def State.emit (s : State) (l : LaneId) (kind : NoticeKind) (cause : Option FaultCause) : State :=
  if s.link.enables kind then s.formNotice { kind := kind, lane := some l, tag := (s.lane l).tag, cause := cause } else s

/-! ### The measurement engine's queues (R77 to R79) -/

/-- The number of lines in a job's span (R79). -/
def Job.lines : Job → Nat
  | .measure _ ind => ind.values.length
  | .span _ _ _ values => values.length
  | .solve _ ps _ => ps.length

/-- A job's running time, ns (R79). -/
def Job.runningTime (j : Job) : Nat :=
  let n := j.lines
  match j with
  | .measure _ _ => 4000 + 40 * (n * (n - 1) / 2)
  | .span _ _ _ _ => 4000 + 40 * (n * (n - 1) / 2)
  | .solve _ _ _ => 4000 + 40 * n + 40 * (n * (n - 1) / 2)

/-- The engine takes the front job of a lane's queue (R78); nothing where the queue is empty. -/
def State.engineTake (s : State) (l : LaneId) : State :=
  match (s.lane l).jobs with
  | [] => s
  | j :: rest =>
    let s1 := s.upd l fun x => { x with jobs := rest }
    { s1 with engine :=
        { busy := some { lane := l, job := j, discarded := false, doneAt := s.clock + j.runningTime }, servedLast := l } }

/-- A job joins the back of a lane's queue; an idle engine takes it at once (R77, R78). -/
def State.appendJob (s : State) (l : LaneId) (j : Job) : State :=
  let s1 := s.upd l fun x => { x with jobs := x.jobs ++ [j] }
  if s.engine.busy.isNone then s1.engineTake l else s1

/-- The engine, free after a completion, chooses: the only lane that waits, or of two the one not served last; otherwise it
is idle (R78). -/
def State.engineChoose (s : State) : State :=
  let s1 : State := { s with engine := { s.engine with busy := none } }
  match s.laneA.jobs.isEmpty, s.laneB.jobs.isEmpty with
  | true, true => s1
  | false, true => s1.engineTake .a
  | true, false => s1.engineTake .b
  | false, false => s1.engineTake (otherLane s.engine.servedLast)

/-- A job of the lane is queued or in the engine and not discarded (R80, R81, R148). -/
def State.hasJob (s : State) (l : LaneId) (p : Job → Bool) : Bool :=
  (s.lane l).jobs.any p ||
  (match s.engine.busy with
    | some e => decide (e.lane = l) && !e.discarded && p e.job
    | none => false)

/-- The job is a MEASURE job, which belongs to a tube (R80). -/
def Job.isMeasure : Job → Bool
  | .measure _ _ => true
  | .span _ _ _ _ => false
  | .solve _ _ _ => false

end Sys2Proof.Machine
end

