-- ==== Sys2Proof/Machine/Catalogue.lean ====
section
/-! DEFINITION. The indication catalogue: forming entries, joining, eviction and the location pass (chapter 6). -/

namespace Sys2Proof.Machine

/-- What measurement adds to an entry (R82, R83): Vpp, phase, depth and the qualifier flags. -/
structure Measurement where
  /-- Vpp. -/
  vpp : Nat
  /-- Phase. -/
  phase : Option Nat
  /-- Depth. -/
  depth : Option Nat
  /-- CLAMPED_LOW. -/
  low : Bool
  /-- CLAMPED_HIGH. -/
  high : Bool
  /-- OUTSIDE. -/
  outside : Bool
  deriving DecidableEq, Repr

/-- The depth between two points of a curve, interpolated exactly and rounded halves up, or at a point; `none` off the
points given (R83). -/
def interpolate (phi : Nat) : List CurvePoint → Option Nat
  | [] => none
  | [p] => if phi = p.phase then some p.depth else none
  | p :: q :: rest =>
    if phi = p.phase then some p.depth
    else if q.phase < phi ∧ phi < p.phase then
      some (roundHalfUp (p.depth * (p.phase - q.phase) + (q.depth - p.depth) * (p.phase - phi)) (p.phase - q.phase))
    else interpolate phi (q :: rest)

/-- Depth and qualifier flags (low, high, outside) of a phase on a curve, the rows of R83's table from the top. -/
def depthOf (curve : List CurvePoint) (phi : Nat) : Option Nat × Bool × Bool × Bool :=
  match curve, curve.getLast? with
  | p1 :: _, some pn =>
    if 1800 < phi then (none, false, false, true)
    else if p1.phase < phi then (some p1.depth, true, false, false)
    else if phi < pn.phase then (some pn.depth, false, true, false)
    else (interpolate phi curve, false, false, false)
  | _, _ => (none, false, false, false)

/-- The measurement of a span's values with the channel's curve (R82, R83). -/
def measure (curve : List CurvePoint) (values : List Vec) : Measurement :=
  match maxChord values with
  | none => { vpp := 0, phase := none, depth := none, low := false, high := false, outside := false }
  | some k =>
    let phase := angleTenths k.c
    match phase with
    | none => { vpp := vppOf k.d, phase := none, depth := none, low := false, high := false, outside := false }
    | some phi =>
      let r := depthOf curve phi
      { vpp := vppOf k.d, phase := some phi, depth := r.1, low := r.2.1, high := r.2.2.1, outside := r.2.2.2 }

/-- The corrected centre: centre line × pitch + correction at close, clamped to the signed 32-bit range (R104). -/
def correctedCentre (pitch : Nat) (ind : Indication) : Int := clampS32 (ind.peak * (pitch : Int) + ind.correction)

/-- An entry formed from an indication, measured or not (R104). Its join number is given on insertion. -/
def entryOf (pitch : Nat) (ind : Indication) (m : Option Measurement) : CatEntry :=
  { channel := ind.channel, first := ind.first, last := ind.last, centre := ind.peak, corrected := correctedCentre pitch ind,
    flags :=
      { long := ind.long, truncated := ind.truncated, unmeasured := m.isNone, ovr := ind.ovr, rep := ind.rep,
        clampedLow := (m.map fun k => k.low).getD false, clampedHigh := (m.map fun k => k.high).getD false,
        outside := (m.map fun k => k.outside).getD false },
    vpp := m.map fun k => k.vpp, phase := m.bind fun k => k.phase, depth := m.bind fun k => k.depth, location := none, join := 0 }

/-- An entry stands before another: lower centre line, or the same and a lower channel (R107). -/
def CatEntry.before (e k : CatEntry) : Bool :=
  decide (e.centre < k.centre) || (decide (e.centre = k.centre) && decide (e.channel < k.channel))

/-- Insertion at the place of R107. -/
def insertEntry (e : CatEntry) : List CatEntry → List CatEntry
  | [] => [e]
  | k :: rest => if e.before k then e :: k :: rest else k :: insertEntry e rest

/-- An entry's amplitude for eviction: its Vpp, 0 for an UNMEASURED entry (R109). -/
def CatEntry.amplitude (e : CatEntry) : Nat := e.vpp.getD 0

/-- Of two entries, the one evicted first: the smaller amplitude, or the higher join number (R109). -/
def weaker (e k : CatEntry) : CatEntry :=
  if k.amplitude < e.amplitude ∨ (k.amplitude = e.amplitude ∧ e.join < k.join) then k else e

/-- The entry that an eviction removes: of smallest amplitude, and of those the highest join number (R109). -/
def weakest : List CatEntry → Option CatEntry
  | [] => none
  | e :: rest => some (rest.foldl weaker e)

/-- An eviction or a drop is counted and flagged (R110). -/
def Tube.overflow (t : Tube) : Tube :=
  { t with catOverflow := countUp Config.count16Max t.catOverflow, flags := { t.flags with catOverflow := true } }

/-- Insertion with the next join number (R107, R108). -/
def Tube.insert (t : Tube) (e : CatEntry) : Tube :=
  { t with catalogue := insertEntry { e with join := t.joins + 1 } t.catalogue, joins := t.joins + 1 }

/-- An entry joins the catalogue (R107 to R110). -/
def Tube.join (t : Tube) (e : CatEntry) : Tube :=
  if t.catalogue.length < Config.catalogueMax then t.insert e
  else
    match weakest t.catalogue with
    | none => t.overflow
    | some w =>
      if w.amplitude < e.amplitude then ({ t with catalogue := t.catalogue.filter fun k => k.join != w.join }.insert e).overflow
      else t.overflow

/-- A MATCHED landmark with its place, the nominal position (R113). -/
def matchedPlace (m : LandmarkEntry) : Option (LandmarkEntry × Int) :=
  match m.state, m.nominal with
  | .matched, some n => some (m, n)
  | _, _ => none

/-- Of two MATCHED landmarks, the one nearer to a position; the lower place where they are equally near (R113). -/
def nearer (x : Int) (a b : LandmarkEntry × Int) : LandmarkEntry × Int :=
  if (x - b.2).natAbs < (x - a.2).natAbs ∨ ((x - b.2).natAbs = (x - a.2).natAbs ∧ b.2 < a.2) then b else a

/-- The location of a corrected centre against the landmark list; absent without a MATCHED entry (R113). -/
def locationOf (landmarks : List LandmarkEntry) (x : Int) : Option Location :=
  match landmarks.filterMap matchedPlace with
  | [] => none
  | m :: rest =>
    let k := rest.foldl (nearer x) m
    some { kind := k.1.kind, ordinal := k.1.ordinal, offset := clampS32 (x - k.2) }

/-- The landmark list: the expected entries, then the UNEXPECTED ones (R98). -/
def Detector.landmarks (d : Detector) : List LandmarkEntry := d.expected ++ d.unexpected

/-- The location pass over the catalogue (R113). FINISH's wait has then ended (R148). -/
def Tube.locate (t : Tube) (landmarks : List LandmarkEntry) : Tube :=
  { t with catalogue := t.catalogue.map fun e => { e with location := locationOf landmarks e.corrected }, located := true }

/-- The number of CATALOGUE records of a tube (R114). -/
def Tube.recordCount (t : Tube) : Nat := (t.catalogue.length + (Config.entriesPerRecord - 1)) / Config.entriesPerRecord

/-- The entries of CATALOGUE record number k, counting from 1 (R114, R190). -/
def Tube.recordEntries (t : Tube) (k : Nat) : List CatEntry :=
  (t.catalogue.drop (Config.entriesPerRecord * (k - 1))).take Config.entriesPerRecord

end Sys2Proof.Machine
end

