-- ==== Sys2Proof/Machine/Channel.lean ====
section
/-! DEFINITION. Channels: which are active, their settings, their values on a committed line, and the calibration store
(chapter 3). -/

namespace Sys2Proof.Machine

/-- A committed line as the channel processor passes it on (R44): index, flags, and the value of each of the channels 0 to
19, absent for an inactive one. -/
structure ChanLine where
  /-- The line index. -/
  index : Int
  /-- The OVR flag. -/
  ovr : Bool
  /-- The REPEAT flag. -/
  rep : Bool
  /-- The values of channels 0 to 19. -/
  values : List (Option Vec)
  deriving DecidableEq, Repr

/-- Base channel n is active: the scan table holds more than n slots (R42). -/
def Lane.baseActive (x : Lane) (n : Nat) : Bool := decide (n < x.exc.slots.length) && decide (n < 16)

/-- The mix channel with the given number, 16 to 19. -/
def Lane.mix (x : Lane) (ch : Nat) : MixChannel := x.mixes.getD (ch - 16) MixChannel.reset

/-- Mix channel `ch` is active: defined with both sources active (R43). -/
def Lane.mixActive (x : Lane) (ch : Nat) : Bool :=
  match (x.mix ch).defn with
  | some d => x.baseActive d.p && x.baseActive d.q
  | none => false

/-- A channel 0 to 19 is active (R42, R43). -/
def Lane.active (x : Lane) (ch : Nat) : Bool :=
  if ch < 16 then x.baseActive ch else decide (ch < 20) && x.mixActive ch

/-- The base channel with the given number. -/
def Lane.base (x : Lane) (ch : Nat) : BaseChannel := x.bases.getD ch BaseChannel.reset

/-- The screening settings, disposition and curve of a channel 0 to 19. -/
def Lane.facets (x : Lane) (ch : Nat) : Facets := if ch < 16 then (x.base ch).facets else (x.mix ch).facets

/-- The channel is screened: active with its screening enable on (R65). -/
def Lane.screened (x : Lane) (ch : Nat) : Bool := x.active ch && (x.facets ch).screening.enable

/-- The calibrated value of base channel n from a line's raw samples (R45). -/
def Lane.baseValue (x : Lane) (samples : List Vec) (n : Nat) : Vec :=
  calibrate (x.base n).null (x.base n).kc (x.base n).ks (samples.getD n ⟨0, 0⟩)

/-- The value of a channel on a line with the given raw samples; absent for an inactive channel (R44 to R46). -/
def Lane.channelValue (x : Lane) (samples : List Vec) (ch : Nat) : Option Vec :=
  if x.active ch then
    if ch < 16 then some (x.baseValue samples ch)
    else (x.mix ch).defn.map fun d => mixValue d.mc d.ms (x.baseValue samples d.p) (x.baseValue samples d.q)
  else none

/-- The line that the channel processor passes on (R44). -/
def Lane.chanLine (x : Lane) (c : CapLine) : ChanLine :=
  { index := c.index, ovr := c.ovr, rep := c.rep, values := (List.range 20).map (x.channelValue c.samples) }

/-- The value of a channel on a processed line. -/
def ChanLine.value (c : ChanLine) (ch : Nat) : Option Vec := (c.values[ch]?).getD none

/-- The lane's current order carries CAL (R137). -/
def Lane.calTube (x : Lane) : Bool :=
  match x.ctl.tube with
  | some t => t.order.cal
  | none => false

/-- The calibration store takes a committed line of a CAL pull until it holds 2048 lines (R52). -/
def Lane.storeLine (x : Lane) (c : CapLine) : Lane :=
  if x.calTube && decide (x.store.length < Config.storeMax) then
    { x with store := x.store ++ [{ index := c.index, samples := c.samples }] }
  else x

/-- A line index is held in the calibration store (R55). -/
def Lane.storeHolds (x : Lane) (index : Int) : Bool := x.store.any fun k => k.index == index

/-- The stored lines from hi down to lo, in capture order (R56). -/
def Lane.storeSpan (x : Lane) (hi lo : Int) : List StoredLine :=
  x.store.filter fun k => decide (k.index ≤ hi) && decide (lo ≤ k.index)

/-- The raw samples of a channel's slot over stored lines (R56). -/
def slotValues (span : List StoredLine) (ch : Nat) : List Vec := span.map fun k => k.samples.getD ch ⟨0, 0⟩

/-- The calibrated values of a base channel over stored lines (R59). -/
def Lane.calibratedSpan (x : Lane) (span : List StoredLine) (ch : Nat) : List Vec := span.map fun k => x.baseValue k.samples ch

end Sys2Proof.Machine
end

