-- ==== Sys2Proof/Machine/Screening.lean ====
section
/-! DEFINITION. The screening unit: the screen state machine, closes, the region of interest (chapter 4, 4.3 to 4.6). -/

namespace Sys2Proof.Machine

/-- The deviation of a value from a baseline (R66). -/
def deviation (c : Component) (v b : Vec) : Nat :=
  match c with
  | .vert => (v.y - b.y).natAbs
  | .max => max (v.x - b.x).natAbs (v.y - b.y).natAbs

/-- The baseline after a quiet line: each part moves by trunc of its distance over 2^s (R66). -/
def followBaseline (shift : Nat) (v b : Vec) : Vec :=
  ⟨b.x + Int.tdiv (v.x - b.x) (2 ^ shift), b.y + Int.tdiv (v.y - b.y) (2 ^ shift)⟩

/-- What a line does to a screen state: the state after it, and the span store of an indication that closes on it with
whether the close is LONG (R67 to R72). -/
structure ScreenStep where
  /-- The screen state after the line. -/
  screen : Screen
  /-- The span store of a closing indication. -/
  closed : Option (List SpanEntry)
  /-- The close is forced at 256 lines (R72). -/
  long : Bool
  deriving DecidableEq, Repr

/-- A step without a close. -/
def ScreenStep.keep (s : Screen) : ScreenStep := { screen := s, closed := none, long := false }

/-- The forced close of R72, or the given step where the store holds fewer than 256 lines. -/
def longClose (span : List SpanEntry) (v : Vec) (otherwise : ScreenStep) : ScreenStep :=
  if Config.spanMax ≤ span.length then
    { screen := { phase := .quiet, baseline := some v, count := 0, span := [] }, closed := some span, long := true }
  else otherwise

/-- A tail line: the release count rises, and the indication closes when it reaches the release setting (R69, R70). -/
def tailLine (set : Screening) (baseline : Vec) (count : Nat) (span : List SpanEntry) : ScreenStep :=
  if set.release ≤ count then
    { screen := { phase := .quiet, baseline := some baseline, count := 0, span := [] }, closed := some span, long := false }
  else ScreenStep.keep { phase := .releasing, baseline := some baseline, count := count, span := span }

/-- A line at or above the open threshold in QUIET or CONFIRMING: the confirm count rises, and the channel opens when it
reaches the confirm setting (R67, R68). -/
def confirmLine (set : Screening) (baseline : Vec) (count : Nat) (span : List SpanEntry) : ScreenStep :=
  if set.confirm ≤ count then ScreenStep.keep { phase := .opened, baseline := some baseline, count := 0, span := span }
  else ScreenStep.keep { phase := .confirming, baseline := some baseline, count := count, span := span }

/-- A screened channel takes a line (R66 to R72). -/
def stepScreen (set : Screening) (s : Screen) (index : Int) (v : Vec) (ovr rep : Bool) : ScreenStep :=
  let b := s.baseline.getD v
  let d := deviation set.component v b
  let span := s.span ++ [{ index := index, value := v, dev := d, ovr := ovr, rep := rep }]
  match s.phase with
  | .quiet =>
    if set.openTh ≤ d then confirmLine set b 1 span
    else ScreenStep.keep { phase := .quiet, baseline := some (followBaseline set.shift v b), count := 0, span := s.span }
  | .confirming =>
    if set.openTh ≤ d then confirmLine set b (s.count + 1) span
    else ScreenStep.keep { phase := .quiet, baseline := some b, count := 0, span := [] }
  | .opened =>
    longClose span v
      (if set.closeTh ≤ d then ScreenStep.keep { phase := .opened, baseline := some b, count := 0, span := span }
      else tailLine set b 1 span)
  | .releasing =>
    longClose span v
      (if set.closeTh ≤ d then ScreenStep.keep { phase := .opened, baseline := some b, count := 0, span := span }
      else tailLine set b (s.count + 1) span)

/-- The store up to the last entry at or above the close threshold: the tail is excluded (R71). -/
def trimTail (closeTh : Nat) (span : List SpanEntry) : List SpanEntry :=
  (span.reverse.dropWhile fun e => decide (e.dev < closeTh)).reverse

/-- Of two entries in capture order, the one of greatest deviation, the earlier where they share it (R71). -/
def peakOf (e k : SpanEntry) : SpanEntry := if e.dev < k.dev then k else e

/-- The indication of a closing span store (R71); `none` where no entry remains. -/
def indicationOf (channel : Nat) (closeTh : Nat) (span : List SpanEntry) (long truncated : Bool) (correction : Int) :
    Option Indication :=
  match trimTail closeTh span with
  | [] => none
  | e :: rest =>
    some
      { channel := channel, first := e.index, last := ((e :: rest).getLast?.map fun k => k.index).getD e.index,
        peak := (rest.foldl peakOf e).index, values := (e :: rest).map fun k => k.value, ovr := (e :: rest).any fun k => k.ovr,
        rep := (e :: rest).any fun k => k.rep, long := long, truncated := truncated, correction := correction }

/-- Screening hands an indication on: as a MEASURE job while the lane's queue holds fewer than 4 jobs, else as an
UNMEASURED entry that joins at once (R76, R106). -/
def State.handOn (s : State) (l : LaneId) (ind : Indication) : State :=
  let x := s.lane l
  if x.jobs.length < Config.jobQueueMax then s.appendJob l (.measure (x.tag.getD 0) ind)
  else s.upd l fun y => y.updTube fun t => t.join (entryOf y.pitch ind none)

/-- An indication closes and is handed on (R70 to R73). -/
def State.closeSpan (s : State) (l : LaneId) (ch : Nat) (span : List SpanEntry) (long truncated : Bool) : State :=
  let x := s.lane l
  match indicationOf ch (x.facets ch).screening.closeTh span long truncated x.detector.correction with
  | some ind => s.handOn l ind
  | none => s

/-- The screen state of a channel. -/
def Lane.screen (x : Lane) (ch : Nat) : Screen := x.screens.getD ch Screen.reset

/-- A screened channel takes a committed line (R65 to R72, R76); a channel that is not screened does not (R65). -/
def State.screenChannel (line : ChanLine) (l : LaneId) (s : State) (ch : Nat) : State :=
  let x := s.lane l
  match x.screened ch, line.value ch with
  | true, some v =>
    let r := stepScreen (x.facets ch).screening (x.screen ch) line.index v line.ovr line.rep
    let s1 := s.upd l fun y => { y with screens := y.screens.set ch r.screen }
    match r.closed with
    | some span => s1.closeSpan l ch span r.long false
    | none => s1
  | _, _ => s

/-- The channels of a lane in ascending number (R74). -/
def channelNumbers : List Nat := List.range 20

/-- A screened channel is outside QUIET. -/
def Lane.outsideQuiet (x : Lane) (ch : Nat) : Bool := x.screened ch && (x.screen ch).phase != .quiet

/-- The marks of a line with respect to regions (R75). -/
structure RegionMarks where
  /-- The line is within a region. -/
  within : Bool
  /-- The line is a region's first line. -/
  first : Bool
  /-- The line is a region's last line. -/
  last : Bool
  deriving DecidableEq, Repr

/-- The ROI after a line and the line's marks (R75): whether a screened channel left QUIET on the line, and whether one
ended it outside QUIET. -/
def roiStep (roi : Option Nat) (left outside : Bool) : Option Nat × RegionMarks :=
  match roi with
  | none =>
    if left then (some 0, { within := true, first := true, last := false })
    else (none, { within := false, first := false, last := false })
  | some q =>
    if outside then (some 0, { within := true, first := false, last := false })
    else if q + 1 < Config.roiQuietMax then (some (q + 1), { within := true, first := false, last := false })
    else (none, { within := true, first := false, last := true })

/-- The screening unit takes a committed line: every channel in ascending number, then the ROI (R74, R75). -/
def State.screenLine (s : State) (l : LaneId) (line : ChanLine) : State × RegionMarks :=
  let before := s.lane l
  let s1 := channelNumbers.foldl (State.screenChannel line l) s
  let after := s1.lane l
  let left := channelNumbers.any fun ch => after.outsideQuiet ch && !before.outsideQuiet ch
  let outside := channelNumbers.any after.outsideQuiet
  let r := roiStep before.roi left outside
  (s1.upd l fun y => { y with roi := r.1 }, r.2)

/-- A channel takes the end-of-pull signal: an open indication closes TRUNCATED, a candidate is discarded, and the channel is
QUIET with an empty store (R73). -/
def State.screenEndChannel (l : LaneId) (s : State) (ch : Nat) : State :=
  let x := s.lane l
  let old := x.screen ch
  if x.screened ch then
    let s1 := s.upd l fun y => { y with screens := y.screens.set ch { old with phase := .quiet, count := 0, span := [] } }
    match old.phase with
    | .quiet => s
    | .confirming => s1
    | .opened => (s1.upd l fun y => y.updFlags fun f => { f with truncated := true }).closeSpan l ch old.span false true
    | .releasing => (s1.upd l fun y => y.updFlags fun f => { f with truncated := true }).closeSpan l ch old.span false true
  else s

/-- Screening takes the end-of-pull signal; the tube's TRUNCATED flag is set if an indication closes so (R73, R75, R141). -/
def State.screenEnd (s : State) (l : LaneId) : State :=
  (channelNumbers.foldl (State.screenEndChannel l) s).upd l fun y => { y with roi := none }

/-- The screen states and the ROI are reset (R65, R81). -/
def Lane.resetScreens (x : Lane) : Lane := { x with screens := List.replicate 20 Screen.reset, roi := none }

end Sys2Proof.Machine
end

