-- ==== Sys2Proof/Machine/Assembler.lean ====
section
/-! DEFINITION. The line and region assemblers and the history ring (chapter 9, 9.5 to 9.7). -/

namespace Sys2Proof.Machine

/-- The disposition that an assembler sends (R162). -/
def BlockKind.disposition : BlockKind → Disposition
  | .full => .full
  | .region => .windowed

/-- An assembler's channel mask: the active channels of its disposition, ascending (R162). -/
def Lane.mask (x : Lane) (kind : BlockKind) : List Nat :=
  channelNumbers.filter fun ch => x.active ch && (x.facets ch).disposition == kind.disposition

/-- The capacity of a block with k channels in its mask, lines (R162). -/
def capacity (k : Nat) : Nat := min 32 (1984 / (4 + 4 * k))

/-- The open block of an assembler. -/
def Lane.block (x : Lane) : BlockKind → Option Block
  | .full => x.lineBlock
  | .region => x.regionBlock

/-- An assembler's open block is replaced. -/
def Lane.setBlock (x : Lane) (kind : BlockKind) (b : Option Block) : Lane :=
  match kind with
  | .full => { x with lineBlock := b }
  | .region => { x with regionBlock := b }

/-- An assembler closes its open block, if it holds one: the buffer joins the outbound queue (R163). -/
def State.closeBlock (s : State) (l : LaneId) (kind : BlockKind) : State :=
  match (s.lane l).block kind with
  | some b => (s.upd l fun x => x.setBlock kind none).enqueue (.lineBlock l b)
  | none => s

/-- A line that an assembler could not place is lost (R164; log entry 20). -/
def State.loseLine (s : State) (l : LaneId) : State :=
  s.upd l fun x => x.updTube fun t => { t with lost := countTube s.clock t.lost, flags := { t.flags with dataGap := true } }

/-- An assembler tries to open a block for a line: it takes a buffer while more than 16 are free, and else opens none
(R161, R163). -/
def State.openBlock (s : State) (l : LaneId) (kind : BlockKind) (line : RingLine) : State :=
  if Config.reserve < s.pool.free then
    (s.upd l fun x =>
      x.setBlock kind
        (some { kind := kind, tag := x.tag.getD 0, first := line.index, mask := x.mask kind, correction := line.correction,
                lines := [] })).takeBuffer
  else s

/-- A line is appended to the open block, which closes at its capacity; without an open block the line is lost (R163, R164). -/
def State.appendLine (s : State) (l : LaneId) (kind : BlockKind) (line : RingLine) : State :=
  match (s.lane l).block kind with
  | none => s.loseLine l
  | some b =>
    let b1 := { b with lines := b.lines ++ [{ flags := line.flags, values := line.values }] }
    let s1 := s.upd l fun x => x.setBlock kind (some b1)
    if capacity b.mask.length ≤ b1.lines.length then s1.closeBlock l kind else s1

/-- The open block's correction differs from the line's (R163, step 1). -/
def Lane.correctionMoved (x : Lane) (kind : BlockKind) (line : RingLine) : Bool :=
  match x.block kind with
  | some b => b.correction != line.correction
  | none => false

/-- A block assembler places a line (R163, R164). -/
def State.placeLine (s : State) (l : LaneId) (kind : BlockKind) (line : RingLine) : State :=
  let s1 := if (s.lane l).correctionMoved kind line then s.closeBlock l kind else s
  let s2 := if ((s1.lane l).block kind).isNone then s1.openBlock l kind line else s1
  s2.appendLine l kind line

/-- The values of a mask's channels on a line, ascending (R162). -/
def ChanLine.masked (line : ChanLine) (mask : List Nat) : List Vec := mask.map fun ch => (line.value ch).getD ⟨0, 0⟩

/-- The flags of a line with its region marks (R162). -/
def lineFlags (line : ChanLine) (m : RegionMarks) : LineFlags :=
  { ovr := line.ovr, rep := line.rep, region := m.within, regionFirst := m.first, regionLast := m.last, history := false }

/-- A committed line as an assembler takes it: with the correction in force after the landmark detector (R163). -/
def Lane.assemblyLine (x : Lane) (kind : BlockKind) (line : ChanLine) (m : RegionMarks) : RingLine :=
  { index := line.index, flags := lineFlags line m, values := line.masked (x.mask kind), correction := x.detector.correction }

/-- A line joins the history ring, the oldest giving way at 32 (R165). -/
def pushRing (ring : List RingLine) (line : RingLine) : List RingLine :=
  (if Config.ringMax ≤ ring.length then ring.drop 1 else ring) ++ [line]

/-- A ring line marked HISTORY (R166). -/
def RingLine.asHistory (r : RingLine) : RingLine := { r with flags := { r.flags with history := true } }

/-- The line assembler takes a committed line; with an empty mask it takes none (R162, R164). -/
def State.lineAssembler (s : State) (l : LaneId) (line : ChanLine) (m : RegionMarks) : State :=
  let x := s.lane l
  if (x.mask .full).isEmpty then s else s.placeLine l .full (x.assemblyLine .full line m)

/-- The region assembler takes a committed line; with an empty mask it takes none (R162, R165 to R167). -/
def State.regionAssembler (s : State) (l : LaneId) (line : ChanLine) (m : RegionMarks) : State :=
  let x := s.lane l
  let r := x.assemblyLine .region line m
  if (x.mask .region).isEmpty then s
  else if !m.within then s.upd l fun y => { y with ring := pushRing y.ring r }
  else
    let s1 :=
      if m.first then
        (x.ring.map RingLine.asHistory).foldl (fun t h => t.placeLine l .region h) (s.upd l fun y => { y with ring := [] })
      else s
    let s2 := s1.placeLine l .region r
    if m.last then s2.closeBlock l .region else s2

/-- The assemblers take the end of the pull (R168). DESIGN CHOICE: the line assembler closes its block first (log entry 30). -/
def State.assemblersEnd (s : State) (l : LaneId) : State :=
  ((s.closeBlock l .full).closeBlock l .region).upd l fun x => { x with ring := [] }

/-- An assembler gives up its open block: the buffer returns to the free pool (R171). -/
def State.giveUpBlock (s : State) (l : LaneId) (kind : BlockKind) : State :=
  match (s.lane l).block kind with
  | some _ => (s.upd l fun x => x.setBlock kind none).returnBuffer
  | none => s

end Sys2Proof.Machine
end

