-- ==== Sys2Proof/Machine/Landmark.lean ====
section
/-! DEFINITION. The landmark detector: the expected list, runs, candidates, matching and the correction (chapter 5). -/

namespace Sys2Proof.Machine

/-- The defined layout class with the given number, 1 to 16 (R85). -/
def State.layout (s : State) (cls : Nat) : Option Layout := if cls = 0 then none else (s.layouts.getD (cls - 1) none)

/-- An expected entry, PENDING (R95, R98). -/
def expectedEntry (kind : LandmarkKind) (ordinal : Nat) (nominal : Int) : LandmarkEntry :=
  { kind := kind, ordinal := ordinal, state := .pending, nominal := some nominal, found := none, raw := none }

/-- The support entries of a class in ascending position, with their ordinals counted from `k` (R85). -/
def supportEntries : Nat → List Int → List LandmarkEntry
  | _, [] => []
  | k, c :: rest => expectedEntry .support k c :: supportEntries (k + 1) rest

/-- All landmarks of a class in pull order (R95). -/
def Layout.landmarks (y : Layout) : List LandmarkEntry :=
  expectedEntry .tsf 0 (y.length - y.tf) :: ((supportEntries 1 y.supports).reverse ++ [expectedEntry .tsn 0 y.tn])

/-- The expected list: the class's landmarks from stop B to stop A inclusive; empty without a class (R95). -/
def expectedList (y : Option Layout) (stopA stopB : Int) : List LandmarkEntry :=
  match y with
  | none => []
  | some y => y.landmarks.filter fun e => decide (stopB ≤ e.nominal.getD 0) && decide (e.nominal.getD 0 ≤ stopA)

/-- The detector at pull start: the watch set, everything else anew (R90). -/
def Lane.startDetector (x : Lane) (expected : List LandmarkEntry) : Lane :=
  { x with detector :=
      { Detector.reset with
        watch := (match x.landmark.channel with
          | some ch => x.active ch
          | none => false),
        expected := expected } }

/-- The two kinds of candidate (R92, R93). -/
inductive CandidateKind where
  | support
  | sheet
  deriving DecidableEq, Repr

/-- A candidate: its kind and the line whose index times the pitch is its raw position (R92, R93). -/
structure Candidate where
  /-- The kind. -/
  kind : CandidateKind
  /-- The centre or edge line. -/
  line : Int
  deriving DecidableEq, Repr

/-- The distance of a value from the reference (R90). -/
def LandmarkSettings.distance (k : LandmarkSettings) (v : Vec) : Nat := max (v.x - k.ref.x).natAbs (v.y - k.ref.y).natAbs

/-- The last line of a run: indices fall without a gap (R91). -/
def LandmarkRun.last (r : LandmarkRun) : Int := r.first - ((r.len : Int) - 1)

/-- The candidate that a run's end decides, if any (R92, R93). -/
def LandmarkRun.endCandidate (k : LandmarkSettings) (r : LandmarkRun) : Option Candidate :=
  if r.decided then none
  else if r.onFirst ∧ k.tsMin ≤ r.len then some { kind := .sheet, line := r.last }
  else if k.spMin ≤ r.len ∧ r.len ≤ k.spMax then some { kind := .support, line := Int.fdiv (r.first + r.last) 2 }
  else none

/-- The run and the candidate after a line, marked or not (R91 to R93). -/
def runStep (k : LandmarkSettings) (run : Option LandmarkRun) (index : Int) (isFirst marked : Bool) :
    Option LandmarkRun × Option Candidate :=
  let grow (r : LandmarkRun) : Option LandmarkRun × Option Candidate :=
    if !r.onFirst && !r.decided && decide (k.tsMin ≤ r.len) then
      (some { r with decided := true }, some { kind := .sheet, line := r.first })
    else (some r, none)
  match run, marked with
  | none, true => grow { first := index, len := 1, onFirst := isFirst, decided := false }
  | none, false => (none, none)
  | some r, true => grow { r with len := r.len + 1 }
  | some r, false => (none, r.endCandidate k)

/-- An entry decided MISSED (R96, R97). -/
def LandmarkEntry.miss (e : LandmarkEntry) : LandmarkEntry := { e with state := .missed }

/-- The entry's nominal position; every expected entry has one (R98). -/
def LandmarkEntry.place (e : LandmarkEntry) : Int := e.nominal.getD 0

/-- How many of the entries at the pointer the candidate has passed: those whose nominal position minus the tolerance lies
above x (R96, step 1). -/
def passedCount (tolerance : Nat) (x : Int) : List LandmarkEntry → Nat
  | [] => 0
  | e :: rest => if x < e.place - (tolerance : Int) then passedCount tolerance x rest + 1 else 0

/-- The entries from one place up to another decided MISSED. -/
def missRange (from' upTo : Nat) (entries : List LandmarkEntry) : List LandmarkEntry :=
  entries.mapIdx fun i e => if from' ≤ i ∧ i < upTo then e.miss else e

/-- An entry is of the candidate's kind (R96, step 2). -/
def LandmarkEntry.accepts (e : LandmarkEntry) (kind : CandidateKind) : Bool :=
  match kind, e.kind with
  | .support, .support => true
  | .sheet, .tsf => true
  | .sheet, .tsn => true
  | _, _ => false

/-- The entry of an UNEXPECTED candidate (R98). -/
def unexpectedEntry (kind : CandidateKind) (x p : Int) : LandmarkEntry :=
  { kind := match kind with
      | .support => .support
      | .sheet => .sheet,
    ordinal := 0, state := .unexpected, nominal := none, found := some x, raw := some p }

/-- An UNEXPECTED candidate is listed, or counted where 16 are listed already (R98). -/
def Detector.addUnexpected (d : Detector) (kind : CandidateKind) (x p : Int) : Detector :=
  if d.unexpected.length < Config.unexpectedMax then { d with unexpected := d.unexpected ++ [unexpectedEntry kind x p] }
  else { d with overflow := countUp Config.count16Max d.overflow }

/-- What matching a candidate does: the detector after it, whether an entry was decided MISSED and whether the candidate is
UNEXPECTED (R96). -/
def Detector.matchCandidate (d : Detector) (tolerance : Nat) (kind : CandidateKind) (p : Int) : Detector × Bool × Bool :=
  let x := p + d.correction
  let n := passedCount tolerance x (d.expected.drop d.pointer)
  let at' := d.pointer + n
  let d1 := { d with expected := missRange d.pointer at' d.expected, pointer := at' }
  let missed := decide (0 < n)
  match d1.expected[at']? with
  | some e =>
    if e.accepts kind ∧ (x - e.place).natAbs ≤ tolerance then
      ({ d1 with
          expected := d1.expected.set at' { e with state := .matched, found := some x, raw := some p },
          pointer := at' + 1, correction := e.place - p }, missed, false)
    else (d1.addUnexpected kind x p, missed, true)
  | none => (d1.addUnexpected kind x p, missed, true)

/-- The tube's landmark flags are set (R97). -/
def Lane.flagLandmarks (x : Lane) (missed unexpected : Bool) : Lane :=
  x.updFlags fun f => { f with lmMissed := f.lmMissed || missed, lmUnexpected := f.lmUnexpected || unexpected }

/-- A candidate goes to matching (R96). -/
def Lane.takeCandidate (x : Lane) (c : Option Candidate) : Lane :=
  match c with
  | none => x
  | some c =>
    let r := x.detector.matchCandidate x.landmark.tolerance c.kind (c.line * (x.pitch : Int))
    { x with detector := r.1 }.flagLandmarks r.2.1 r.2.2

/-- A committed line's value on the landmark channel. -/
def Lane.landmarkValue (x : Lane) (line : ChanLine) : Option Vec :=
  match x.landmark.channel with
  | some ch => line.value ch
  | none => none

/-- The detector takes a committed line (R90 to R93). -/
def Lane.landmarkLine (x : Lane) (line : ChanLine) : Lane :=
  let d := x.detector
  let y := { x with detector := { d with firstTaken := true } }
  match d.watch, x.landmarkValue line with
  | true, some v =>
    let r := runStep x.landmark d.run line.index (!d.firstTaken) (decide (x.landmark.threshold ≤ x.landmark.distance v))
    { y with detector := { y.detector with run := r.1 } }.takeCandidate r.2
  | _, _ => y

/-- Every entry from the pointer on is decided MISSED (R97). -/
def Lane.missRest (x : Lane) : Lane :=
  let d := x.detector
  let n := d.expected.length
  { x with detector := { d with expected := missRange d.pointer n d.expected, pointer := max d.pointer n } }.flagLandmarks
    (decide (d.pointer < n)) false

/-- The detector takes the end-of-pull signal: an open run ends and is classified, then what is still PENDING is MISSED
(R94, R97). -/
def Lane.landmarkEnd (x : Lane) : Lane :=
  let c := x.detector.run.bind (LandmarkRun.endCandidate x.landmark)
  ({ x with detector := { x.detector with run := none } }.takeCandidate c).missRest

/-- The detector's per-pull state is discarded (R100), and is as empty when the lane takes an order (R98, R99). -/
def Lane.clearDetector (x : Lane) : Lane := { x with detector := Detector.reset }

/-- The position a landmark entry is reported at: found when present, else nominal (R98). -/
def LandmarkEntry.position (e : LandmarkEntry) : Int := (e.found.orElse fun _ => e.nominal).getD 0

/-- Insertion before the first entry of no lower position. -/
def insertByPosition (e : LandmarkEntry) : List LandmarkEntry → List LandmarkEntry
  | [] => [e]
  | k :: rest => if e.position ≤ k.position then e :: k :: rest else k :: insertByPosition e rest

/-- The landmark list in ascending position, equal positions in list order (R98). -/
def sortLandmarks : List LandmarkEntry → List LandmarkEntry
  | [] => []
  | e :: rest => insertByPosition e (sortLandmarks rest)

end Sys2Proof.Machine
end

