-- ==== Sys2Proof/Machine/CaptureUnit.lean ====
section
/-! DEFINITION. Line capture and what a committed line does on its way through the blocks of the lane (chapter 2, R44). -/

namespace Sys2Proof.Machine

/-- A cycle as the excitation unit delivers it: the samples of all slots and the latched position, absent while the scale is
unset (R9, R27). -/
structure Cycle where
  /-- The samples, in slot order. -/
  samples : List Sample
  /-- The latched raw position. -/
  position : Option Int
  deriving DecidableEq, Repr

/-- A line holding a cycle's samples (R32, R33). -/
def lineOf (samples : List Sample) (index : Int) (rep : Bool) : CapLine :=
  { index := index, samples := samples.map fun k => k.value, ovr := samples.any fun k => k.overload, rep := rep }

/-- The REPEAT lines of the bins from `top` down, `n` of them (R33). -/
def repeatLines (samples : List Sample) : Nat → Int → List CapLine
  | 0, _ => []
  | n + 1, top => lineOf samples top true :: repeatLines samples n (top - 1)

/-- What a captured cycle of bin `b` does to the window (R32 to R35): the window, whether bins were skipped (OVERSPEED) and
whether the cycle was ignored (REVERSAL). -/
structure CaptureResult where
  /-- The window, highest index first. -/
  window : List CapLine
  /-- Bins were skipped (R33). -/
  overspeed : Bool
  /-- The cycle was ignored (R35). -/
  ignored : Bool
  deriving DecidableEq, Repr

/-- A cycle of bin `b` is applied to the window (R32 to R35). -/
def captureBin (window : List CapLine) (samples : List Sample) (b : Int) : CaptureResult :=
  match window, window.getLast? with
  | h :: _, some f =>
    if b < f.index then
      { window := window ++ (repeatLines samples (f.index - 1 - b).toNat (f.index - 1) ++ [lineOf samples b false]),
        overspeed := decide (b < f.index - 1), ignored := false }
    else if b ≤ h.index then
      { window := window.map fun k => if k.index = b then lineOf samples b false else k, overspeed := false, ignored := false }
    else { window := window, overspeed := false, ignored := true }
  | _, _ => { window := [lineOf samples b false], overspeed := false, ignored := false }

/-- The counts and flags of a commit at the time `now` (R36, R39). -/
def Tube.countCommit (t : Tube) (now : Nat) (c : CapLine) : Tube :=
  { t with
    committed := countTube now t.committed, repeated := if c.rep then countTube now t.repeated else t.repeated,
    flags := { t.flags with overload := t.flags.overload || c.ovr } }

/-- A committed line passes through the lane's blocks: channel processor, calibration store, landmark detector, screening,
line assembler, region assembler (R44, R164, R166). -/
def State.commitLine (l : LaneId) (s : State) (c : CapLine) : State :=
  let line := (s.lane l).chanLine c
  let s1 := s.upd l fun x => ((x.updTube fun t => t.countCommit s.clock c).storeLine c).landmarkLine line
  let r := s1.screenLine l line
  (r.1.lineAssembler l line r.2).regionAssembler l line r.2

/-- While the window holds more than four lines the highest is committed: the number of lines that leave (R36). -/
def excess (window : List CapLine) : Nat := window.length - Config.windowMax

/-- Line capture takes a cycle completion (R31 to R36). -/
def State.captureCycle (s : State) (l : LaneId) (c : Cycle) : State :=
  let x := s.lane l
  match x.capture.armed, c.position with
  | true, some p =>
    let r := captureBin x.capture.window c.samples (lineIndex p x.pitch)
    let n := excess r.window
    let s1 := s.upd l fun y =>
      { y with capture := { y.capture with window := r.window.drop n } }.updTube fun t =>
        { t with
          ignored := if r.ignored then countTube s.clock t.ignored else t.ignored,
          flags := { t.flags with overspeed := t.flags.overspeed || r.overspeed, reversal := t.flags.reversal || r.ignored } }
    (r.window.take n).foldl (State.commitLine l) s1
  | _, _ => s

/-- The flush at the end of a pull: every line left is committed, highest first, and line capture is DISARMED (R37). -/
def State.flush (s : State) (l : LaneId) : State :=
  let w := (s.lane l).capture.window
  let s1 := w.foldl (State.commitLine l) (s.upd l fun x => { x with capture := { x.capture with window := [] } })
  s1.upd l fun x => { x with capture := { armed := false, window := [] } }

/-- Line capture is disarmed without a commit (R38). -/
def Lane.disarmCapture (x : Lane) : Lane := { x with capture := { armed := false, window := [] } }

end Sys2Proof.Machine
end

