-- ==== Sys2Proof/Machine/Drive.lean ====
section
/-! DEFINITION. The pusher drive: motor, brake, motion starts, stops, retarget, speed loop, stall window, inputs; and the
position counter's measurement (chapters 2 and 7). -/

namespace Sys2Proof.Machine

/-! ### Motor and brake (R121 to R125) -/

/-- A stop: duty 0, motor DISABLED, brake ENGAGED, motion phase NONE, stall window clear; the direction output keeps its
value (R124). -/
def Drive.stop (d : Drive) : Drive := { d with enabled := false, brake := .engaged, duty := 0, phase := .none, window := none }

/-- A stop of the lane's drive (R124). -/
def Lane.stopDrive (x : Lane) : Lane := { x with drive := x.drive.stop }

/-- The direction of a motion phase; the output holds its value for NONE (R121). -/
def MotionPhase.dir (p : MotionPhase) (old : DriveDir) : DriveDir :=
  match p with
  | .none => old
  | .insert => .forward
  | .pull => .reverse
  | .withdraw => .reverse
  | .retract => .reverse

/-- A stall window that starts afresh at the present raw position (R128). -/
def Lane.freshWindow (x : Lane) : StallWindow := { start := x.pos.raw, periods := 0 }

/-- The raw position is at or below −home_limit (R132). -/
def Lane.atHomeLimit (x : Lane) : Bool :=
  match x.pos.raw with
  | some r => decide (r ≤ -(x.motion.homeLimit : Int))
  | none => false

/-- What a motion start or a retarget comes to. -/
inductive StartResult where
  /-- The motor is ENABLED in the phase. -/
  | started
  /-- Refused for an ACTIVE motor-fault (R123, R130). -/
  | refused
  /-- A home arrival: probe-home is ACTIVE already (R122, R131). -/
  | homeArrival
  /-- The home limit is reached already (R132). -/
  | homeLimit
  deriving DecidableEq, Repr

/-- The motor is set going in a phase with the given duty and a fresh stall window (R122, R125). -/
def Lane.run (x : Lane) (p : MotionPhase) (duty : Nat) : Lane :=
  { x with drive :=
      { x.drive with
        enabled := true, brake := .released, duty := duty, dir := p.dir x.drive.dir, phase := p, window := some x.freshWindow } }

/-- The home limit is tested at the motion start or retarget that begins a withdrawal (R132). -/
def Lane.testStart (x : Lane) (p : MotionPhase) : Lane × StartResult :=
  if p = .withdraw ∧ x.atHomeLimit = true then (x.stopDrive, .homeLimit) else (x, .started)

/-- A motion start (R122): refused while motor-fault is ACTIVE, a home arrival where a WITHDRAW finds probe-home ACTIVE, else the
motor is ENABLED with the start duty. -/
def Lane.motionStart (x : Lane) (p : MotionPhase) : Lane × StartResult :=
  if x.drive.fault.active then (x.stopDrive, .refused)
  else if p = .withdraw ∧ x.drive.home.active = true then (x.stopDrive, .homeArrival)
  else (x.run p x.motion.startDuty).testStart p

/-- A retarget from PULL to WITHDRAW: the duty is kept; with the motor DISABLED it is a motion start (R125). -/
def Lane.retarget (x : Lane) : Lane × StartResult :=
  if x.drive.enabled then (x.run .withdraw x.drive.duty).testStart .withdraw else x.motionStart .withdraw

/-! ### The speed measurement (R28) and the speed loop (R126, R127) -/

/-- The direction of a travel (R28). -/
def directionOf (delta : Int) : Direction := if 0 < delta then .forward else if delta < 0 then .reverse else .still

/-- The measurement at a control period's end; none while the scale is unset (R28). -/
def Position.measure (p : Position) : Position :=
  match p.raw with
  | some r =>
    { p with speed := (r - p.refPos).natAbs / 10, direction := directionOf (r - p.refPos), refPos := r }
  | none => { p with speed := 0, direction := .still }

/-- The pull target: the effective pull speed, halved while the pool is TIGHT (R127). -/
def pullTarget (effective : Nat) (tight : Bool) : Nat := if tight then effective / 2 else effective

/-- The speed target of a motion phase (R127). -/
def Lane.target (x : Lane) (tight : Bool) : MotionPhase → Nat
  | .none => 0
  | .insert => x.motion.insertSpeed
  | .pull => pullTarget x.effectivePull tight
  | .withdraw => x.motion.withdrawSpeed
  | .retract => x.motion.withdrawSpeed

/-- The loop speed: negative where the measured direction is the other one (R126). -/
def loopSpeed (dir : DriveDir) (measured : Direction) (speed : Nat) : Int :=
  match dir, measured with
  | .forward, .reverse => -(speed : Int)
  | .reverse, .forward => -(speed : Int)
  | _, _ => (speed : Int)

/-- The new duty: D + trunc((T − S) × Kp / 16), clamped to 0..Dmax (R126). -/
def newDuty (duty : Nat) (target : Nat) (speed : Int) (kp dmax : Nat) : Nat :=
  (max 0 (min (dmax : Int) ((duty : Int) + Int.tdiv (((target : Int) - speed) * (kp : Int)) 16))).toNat

/-- The duty update at a control period's end (R126). -/
def Lane.speedLoop (x : Lane) (tight : Bool) : Lane :=
  { x with drive :=
      { x.drive with
        duty := newDuty x.drive.duty (x.target tight x.drive.phase) (loopSpeed x.drive.dir x.pos.direction x.pos.speed) x.motion.kp
          x.motion.dmax } }

/-! ### The stall window (R128) -/

/-- The travel since the window started, in the motion phase's direction; 0 while the scale is unset (R128). -/
def travel (dir : DriveDir) (start now : Option Int) : Int :=
  match start, now with
  | some p, some r =>
    match dir with
    | .forward => r - p
    | .reverse => p - r
  | _, _ => 0

/-- The window after a control period's end: afresh after enough travel, else standing with its period count risen
(R128, steps 1 to 3 and 5). -/
def Lane.nextWindow (x : Lane) (w : StallWindow) : StallWindow :=
  if (x.motion.stallDistance : Int) ≤ travel x.drive.dir w.start x.pos.raw then x.freshWindow
  else { w with periods := w.periods + 1 }

/-- The stall test at a control period's end (R128). -/
def Lane.stallTest (x : Lane) : Lane := { x with drive := { x.drive with window := x.drive.window.map x.nextWindow } }

/-- The stall is detected: the motor runs and the window's count has reached the stall time (R128, R129; log entry 7). -/
def Lane.stallDue (x : Lane) : Bool :=
  x.drive.enabled &&
  (match x.drive.window with
    | some w => decide (x.motion.stallTime ≤ w.periods * 10)
    | none => false)

/-! ### The debounced inputs (R119) -/

/-- The input with the given name. -/
def Drive.input (d : Drive) : InputId → Input
  | .guideLatched => d.guide
  | .probeHome => d.home
  | .motorFault => d.fault

/-- The drive with one input replaced. -/
def Drive.setInput (d : Drive) (i : InputId) (v : Input) : Drive :=
  match i with
  | .guideLatched => { d with guide := v }
  | .probeHome => { d with home := v }
  | .motorFault => { d with fault := v }

/-- The raw level of an input at a given time; a change starts the time stood anew (R119). -/
def Input.level (v : Input) (level : Bool) (now : Nat) : Input := if v.raw = level then v else { v with raw := level, since := now }

/-- When a pending change of an input takes effect (R119). -/
def Lane.debounceDue (x : Lane) (v : Input) : Nat := v.since + x.motion.debounce * Config.nsPerMs

/-! ### Encoder edges (R20 to R22) -/

/-- The step of the count that a change of the phase state makes: `none` where both phases change (R21), 0 where neither
does. In the forward order (low, low), (high, low), (high, high), (low, high) a change of phase 1 leaves the phases unlike
and a change of phase 2 leaves them alike (R20). -/
def edgeStep (old new : EncPhase) : Option Int :=
  match old.p1 != new.p1, old.p2 != new.p2 with
  | false, false => some 0
  | true, true => none
  | true, false => if new.p1 != new.p2 then some 1 else some (-1)
  | false, true => if new.p1 != new.p2 then some (-1) else some 1

/-- The least count whose raw position fits in a signed 32-bit value (R22). -/
def countMin (scale : Nat) : Int := -(2147483648 / (scale : Int))

/-- The greatest count whose raw position fits in a signed 32-bit value (R22). -/
def countMax (scale : Nat) : Int := 2147483647 / (scale : Int)

/-- The count may take a value: always while the scale is unset, else within the range of R22 (log entry 17). -/
def Position.holds (p : Position) (count : Int) : Bool :=
  match p.scale with
  | some k => decide (countMin k ≤ count) && decide (count ≤ countMax k)
  | none => true

/-- The count after a new scale: the nearer end of the range where it lies outside (R22). -/
def clampCount (scale : Nat) (count : Int) : Int := max (countMin scale) (min (countMax scale) count)

end Sys2Proof.Machine
end

