-- ==== Sys2Proof/Machine/Sequence.lean ====
section
/-! DEFINITION. The lane controller: taking an order, the guide check, insertion, turn, pull, withdrawal, FINISH, faults and
holds (chapter 8). Each operation here is written after those it passes the lane on to. -/

namespace Sys2Proof.Machine

/-! ### State changes and the tube record -/

/-- The lane enters a state. A control period in which it does so does not lie wholly in PULL (R29). -/
def Lane.enter (x : Lane) (st : LaneState) : Lane :=
  { x with ctl := { x.ctl with state := st }, pos := { x.pos with wholePull := false } }

/-- The outcome is decided once (R141). -/
def Tube.decideOutcome (t : Tube) (o : TubeOutcome) : Tube := { t with outcome := some (t.outcome.getD o) }

/-- The fault mark is set at most once, by the first fault taken (R150). -/
def Tube.mark (t : Tube) (c : FaultCause) : Tube := { t with fault := some (t.fault.getD c) }

/-- The lane controller's timers are off. -/
def Control.timersOff (c : Control) : Control := { c with poll := .off, dwell := .off }

/-- Both stops are disarmed (R26). -/
def Lane.disarmStops (x : Lane) : Lane := { x with pos := { x.pos with armedA := false, armedB := false } }

/-! ### FINISH (R148) -/

/-- Steps 1 and 2 of FINISH: when no job of the tube is queued or in the engine, the wait ends with the location pass (R148,
R113). -/
def State.finishWait (s : State) (l : LaneId) : State :=
  let x := s.lane l
  match x.ctl.state, x.ctl.tube with
  | .finish, some t =>
    if t.located || s.hasJob l Job.isMeasure then s
    else s.upd l fun y => y.updTube fun u => u.locate y.detector.landmarks
  | _, _ => s

/-- The lane enters FINISH: motor DISABLED, stops disarmed, held phase forgotten (R148). -/
def State.enterFinish (s : State) (l : LaneId) : State :=
  (s.upd l fun x =>
    ((x.stopDrive.disarmStops).enter .finish).updCtl fun c => { c.timersOff with heldPhase := none }).finishWait l

/-- The lane enters FAULTED with its notice (R150). -/
def State.enterFaulted (s : State) (l : LaneId) (cause : FaultCause) : State :=
  (s.upd l fun x => ((x.stopDrive).enter .faulted).updCtl fun c => { c with heldPhase := none, returnTo := none }).emit l .faulted
    (some cause)

/-! ### Withdrawal (R147) -/

/-- The lane controller takes what a motion start or retarget of WITHDRAW came to (R147, R149). -/
def State.withdrawResult (s : State) (l : LaneId) (r : StartResult) : State :=
  match r with
  | .started => s
  | .homeArrival => s.enterFinish l
  | .refused => (s.upd l fun x => x.updTube fun t => t.mark .motorFault).enterFinish l
  | .homeLimit =>
    (s.upd l fun x => (x.updFlags fun f => { f with homeFault := true }).updTube fun t => t.mark .homeLimit).enterFinish l

/-- The lane as it enters WITHDRAW. -/
def Lane.toWithdraw (x : Lane) : Lane :=
  ((x.disarmStops).enter .withdraw).updCtl fun c => { c.timersOff with heldPhase := none }

/-- The lane enters WITHDRAW with a motion start (R144, R153). -/
def State.startWithdraw (s : State) (l : LaneId) : State :=
  let r := (s.lane l).toWithdraw.motionStart .withdraw
  (s.setLane l r.1).withdrawResult l r.2

/-- The lane enters WITHDRAW with a retarget (R125, R146). -/
def State.retargetWithdraw (s : State) (l : LaneId) : State :=
  let r := (s.lane l).toWithdraw.retarget
  (s.setLane l r.1).withdrawResult l r.2

/-! ### The end of a pull (R146) -/

/-- The pull ends: flush, landmark detector, screening, assemblers, PULL_ENDED, in that order; stop B is disarmed (R146). -/
def State.endPull (s : State) (l : LaneId) (o : TubeOutcome) : State :=
  let s1 := (s.flush l).upd l Lane.landmarkEnd
  let s2 := (s1.screenEnd l).assemblersEnd l
  (s2.emit l .pullEnded none).upd l fun x => x.disarmStops.updTube fun t => t.decideOutcome o

/-- Stop B is reached in PULL: the pull ends EXAMINED and the drive is retargeted (R146). -/
def State.stopBReached (s : State) (l : LaneId) : State := (s.endPull l .examined).retargetWithdraw l

/-- An armed stop B is tested against the raw position; suspended while the lane is HELD (R25). -/
def State.testStopB (s : State) (l : LaneId) : State :=
  let x := s.lane l
  match x.pos.armedB, x.pos.raw, x.ctl.tube with
  | true, some r, some t =>
    if x.ctl.state ≠ .held ∧ r ≤ t.stopB then
      (s.upd l fun y => { y with pos := { y.pos with armedB := false } }).stopBReached l
    else s
  | _, _, _ => s

/-! ### Motor faults and stalls (R149, R129) -/

/-- A tube that leaves TURN without entering PULL: its expected landmarks are MISSED (R97). -/
def Lane.leaveTurn (x : Lane) : Lane := x.missRest

/-- A motor-fault event, by the lane's state (R149). -/
def State.motorFaultEvent (s : State) (l : LaneId) : State :=
  let fail (y : Lane) : Lane := y.updTube fun t => (t.decideOutcome .motorFault).mark .motorFault
  match (s.lane l).ctl.state with
  | .insert => (s.upd l fail).enterFinish l
  | .guideCheck => (s.upd l fail).enterFinish l
  | .turn => (s.upd l fun x => fail x.leaveTurn).enterFinish l
  | .pull => ((s.endPull l .motorFault).upd l fun x => x.updTube fun t => t.mark .motorFault).enterFinish l
  | .withdraw => (s.upd l fun x => x.updTube fun t => t.mark .motorFault).enterFinish l
  | .retract => s.enterFaulted l .motorFault
  | .held => s
  | .idle => s
  | .finish => s
  | .faulted => s

/-- A stall event, by the lane's state (R144, R146, R147, R154). -/
def State.stallEvent (s : State) (l : LaneId) (position : Int) : State :=
  match (s.lane l).ctl.state with
  | .insert =>
    (s.upd l fun x => x.updTube fun t => { t.decideOutcome .restricted with restriction := some position }).startWithdraw l
  | .pull => ((s.endPull l .stalled).upd l fun x => x.updTube fun t => t.mark .pullStall).enterFinish l
  | .withdraw =>
    (s.upd l fun x => (x.updFlags fun f => { f with withdrawStall := true }).updTube fun t => t.mark .withdrawStall).enterFinish l
  | .retract => s.enterFaulted l .retractStall
  | .guideCheck => s
  | .turn => s
  | .held => s
  | .idle => s
  | .finish => s
  | .faulted => s

/-! ### Turn and pull (R145) -/

/-- The turn dwell has run out: stop B and line capture are armed, the lane enters PULL with a motion start and PULL_STARTED. A
refused start is then taken as a motor fault in PULL; otherwise stop B is tested as armed (R145, R25; log entry 9). -/
def State.enterPull (s : State) (l : LaneId) : State :=
  let x := s.lane l
  let armed : Lane := { x with pos := { x.pos with armedB := true }, capture := { armed := true, window := [] } }
  let r := ((armed.enter .pull).updCtl Control.timersOff).motionStart .pull
  let s1 := (s.setLane l r.1).emit l .pullStarted none
  match r.2 with
  | .refused => s1.motorFaultEvent l
  | .started => s1.testStopB l
  | .homeArrival => s1
  | .homeLimit => s1

/-- The tube record's per-pull parts at TURN (R39, R112, R164). -/
def Tube.startPull (t : Tube) : Tube :=
  { t with
    committed := 0, repeated := 0, ignored := 0, lost := 0, catalogue := [], joins := 0, catOverflow := 0,
    flags := { t.flags with catOverflow := false, dataGap := false } }

/-- The per-pull state of every block of the lane is reset (R145, R53, R65, R90, R112, R165). -/
def Lane.startPull (x : Lane) (layout : Option Layout) : Lane :=
  let expected := match x.ctl.tube with
    | some t => expectedList layout t.stopA t.stopB
    | none => []
  let y := ((x.updTube Tube.startPull).resetScreens).startDetector expected
  { y with ring := [], store := if x.calTube then [] else x.store }

/-- The layout class of the lane's current tube. -/
def State.tubeLayout (s : State) (l : LaneId) : Option Layout :=
  match (s.lane l).ctl.tube with
  | some t => s.layout t.order.cls
  | none => none

/-- Stop A is reached in INSERT: the motor is stopped, the lane enters TURN and the per-pull state is reset; a dwell of 0 runs
out at the entry (R144, R145). -/
def State.enterTurn (s : State) (l : LaneId) : State :=
  let layout := s.tubeLayout l
  let s1 := s.upd l fun x =>
    (((x.stopDrive.disarmStops).enter .turn).startPull layout).updCtl fun c =>
      { c with dwell := .running (s.clock + x.motion.turnDwell * Config.nsPerMs) }
  if (s.lane l).motion.turnDwell = 0 then s1.enterPull l else s1

/-- An armed stop A is tested against the raw position; suspended while the lane is HELD (R25). -/
def State.testStopA (s : State) (l : LaneId) : State :=
  let x := s.lane l
  match x.pos.armedA, x.pos.raw, x.ctl.tube with
  | true, some r, some t =>
    if x.ctl.state ≠ .held ∧ t.stopA ≤ r then s.enterTurn l else s
  | _, _, _ => s

/-- The armed stops are tested (R25). -/
def State.testStops (s : State) (l : LaneId) : State := (s.testStopA l).testStopB l

/-! ### The guide check (R143) and taking an order (R142) -/

/-- The guide test passes: probe-home and guide-latched ACTIVE and the rearm flag set (R143). -/
def Lane.guideOk (x : Lane) : Bool := x.drive.home.active && x.drive.guide.active && x.ctl.rearm

/-- The lane as the guide check passes: count zeroed, stop A armed, INSERT entered (R143, R23, R26). -/
def Lane.passGuide (x : Lane) : Lane :=
  let y : Lane := { x with pos := { x.pos with count := 0, refPos := 0, armedA := true } }
  ((y.enter .insert).updCtl Control.timersOff).updTube fun t => { t with enteredInsert := true }

/-- A guide test, counted as an attempt (R143). -/
def State.guideTest (s : State) (l : LaneId) : State :=
  let x := (s.lane l).updCtl fun c => { c with attempts := c.attempts + 1 }
  if x.guideOk then
    let r := x.passGuide.motionStart .insert
    let s1 := s.setLane l r.1
    match r.2 with
    | .refused => s1.motorFaultEvent l
    | .started => s1.testStopA l
    | .homeArrival => s1
    | .homeLimit => s1
  else if x.motion.attemptLimit ≤ x.ctl.attempts then
    (s.setLane l (x.updTube fun t => t.decideOutcome .noGuide)).enterFinish l
  else s.setLane l x

/-- The tube length of an order: its class's, or for class 0 its own (R24, R137). -/
def State.orderLength (s : State) (o : Order) : Int :=
  if o.cls = 0 then ((o.length.getD 0 : Nat) : Int) else ((s.layout o.cls).map fun y => y.length).getD 0

/-- Stop A and stop B of an order of the given tube length (R24). -/
def stopsOf (m : Motion) (length : Int) (segment : Option (Nat × Nat)) : Int × Int :=
  match segment with
  | none => (length - (m.farBack : Int), (m.pullEnd : Int))
  | some g =>
    (min (length - (m.farBack : Int)) ((g.1 : Int) + Config.segmentMargin),
      max (m.pullEnd : Int) ((g.2 : Int) - Config.segmentMargin))

/-- The stops of an order computed now, with the lane's settings in force (R24). -/
def State.stops (s : State) (l : LaneId) (o : Order) : Int × Int := stopsOf (s.lane l).motion (s.orderLength o) o.segment

/-- The stops are consistent: stop A > stop B + pitch (R24). -/
def stopsOk (pitch : Nat) (ab : Int × Int) : Bool := decide (ab.2 + (pitch : Int) < ab.1)

/-- The tube record of an order at taking (R141). -/
def Tube.open (o : Order) (ab : Int × Int) : Tube :=
  { order := o, stopA := ab.1, stopB := ab.2, outcome := none, flags := TubeFlags.clear, fault := none, restriction := none,
    committed := 0, repeated := 0, ignored := 0, lost := 0, catalogue := [], joins := 0, catOverflow := 0, minSpeed := none,
    maxSpeed := none, enteredInsert := false, located := false, reported := 0 }

/-- The job is a SPAN or SOLVE job (R56). -/
def Job.isSolve (j : Job) : Bool := !j.isMeasure

/-- The conditions for taking the front order (R142). -/
def State.canTake (s : State) (l : LaneId) : Bool :=
  let x := s.lane l
  x.ctl.state == .idle && !x.ctl.worklist.isEmpty && s.link.up && !x.drive.fault.active && !s.hasJob l Job.isSolve

/-- The lane takes an order: the tube record is opened, TUBE_STARTED emitted, and the lane enters GUIDE_CHECK with a first
guide test, or FINISH with outcome INVALID (R142). -/
def State.openTube (s : State) (l : LaneId) (o : Order) (rest : List Order) : State :=
  let ab := s.stops l o
  let s1 := s.upd l fun x =>
    x.clearDetector.updCtl fun c => { c with worklist := rest, tube := some (Tube.open o ab) }
  let s2 := s1.emit l .tubeStarted none
  if stopsOk (s.lane l).pitch ab then
    (s2.upd l fun x => (x.enter .guideCheck).updCtl fun c =>
      { c with attempts := 0, poll := .running (s.clock + x.motion.pollInterval * Config.nsPerMs) }).guideTest l
  else (s2.upd l fun x => x.updTube fun t => t.decideOutcome .invalid).enterFinish l

/-- The lane takes the front order of its worklist if the conditions hold (R142). -/
def State.takeFrontOrder (s : State) (l : LaneId) : State :=
  match s.canTake l, (s.lane l).ctl.worklist with
  | true, o :: rest => s.openTube l o rest
  | _, _ => s

/-! ### Home arrival (R131, R147, R154) -/

/-- A retraction ends: the lane returns to the state it came from, without a notice (R152, R154). -/
def Lane.endRetract (x : Lane) : Lane :=
  ((x.stopDrive).enter (x.ctl.returnTo.getD .idle)).updCtl fun c => { c with returnTo := none, heldPhase := none }

/-- A home-arrival event (R147, R154). -/
def State.homeArrivalEvent (s : State) (l : LaneId) : State :=
  match (s.lane l).ctl.state with
  | .withdraw => s.enterFinish l
  | .retract => s.upd l Lane.endRetract
  | .idle => s
  | .guideCheck => s
  | .insert => s
  | .turn => s
  | .pull => s
  | .finish => s
  | .held => s
  | .faulted => s

/-! ### The debounced inputs (R119, R120, R130, R131, R143) -/

/-- The motor runs in WITHDRAW or RETRACT, where probe-home becoming ACTIVE is a home arrival (R131). -/
def Drive.homing (d : Drive) : Bool := d.enabled && (d.phase == .withdraw || d.phase == .retract)

/-- The debounced state of an input changes to its raw level: the drive acts, then the lane controller (R120). -/
def State.inputChange (s : State) (l : LaneId) (i : InputId) : State :=
  let x := s.lane l
  let v := x.drive.input i
  let s1 := s.upd l fun y => { y with drive := y.drive.setInput i { v with active := v.raw } }
  match i with
  | .guideLatched => if v.raw then s1 else s1.upd l fun y => y.updCtl fun c => { c with rearm := true }
  | .probeHome =>
    if v.raw && x.drive.homing then (s1.upd l Lane.stopDrive).homeArrivalEvent l else s1
  | .motorFault => if v.raw then (s1.upd l Lane.stopDrive).motorFaultEvent l else s1

/-- A pending change of an input whose time stood has reached the debounce time takes effect (R119). -/
def State.settleInput (l : LaneId) (s : State) (i : InputId) : State :=
  let x := s.lane l
  let v := x.drive.input i
  if v.raw ≠ v.active ∧ x.debounceDue v ≤ s.clock then s.inputChange l i else s

/-! ### Holding (R151) -/

/-- The states that HOLD and link loss hold (R151). -/
def LaneState.holdable : LaneState → Bool
  | .guideCheck => true
  | .insert => true
  | .turn => true
  | .pull => true
  | .withdraw => true
  | .retract => true
  | .idle => false
  | .finish => false
  | .held => false
  | .faulted => false

/-- A running timer is frozen with the time left (R151). -/
def Timer.freeze (t : Timer) (now : Nat) : Timer :=
  match t with
  | .running due => .frozen (due - now)
  | .off => .off
  | .frozen left => .frozen left

/-- A frozen timer runs on from its remaining time (R152). -/
def Timer.thaw (t : Timer) (now : Nat) : Timer :=
  match t with
  | .frozen left => .running (now + left)
  | .off => .off
  | .running due => .running due

/-- The lane enters HELD: held phase remembered, motor stopped, timers frozen, HOLD_OCCURRED, HELD (R151). -/
def State.enterHeld (s : State) (l : LaneId) : State :=
  (s.upd l fun x =>
    ((x.stopDrive.enter .held).updFlags fun f => { f with holdOccurred := true }).updCtl fun c =>
      { c with heldPhase := some x.ctl.state, poll := c.poll.freeze s.clock, dwell := c.dwell.freeze s.clock }).emit l .held none

/-- The lane is held if its state can be (R151). -/
def State.holdIf (s : State) (l : LaneId) : State := if (s.lane l).ctl.state.holdable then s.enterHeld l else s

/-- While the link is LOST no lane stays in a state that link loss holds (R123, R151; log entry 10). -/
def State.holdIfLost (s : State) (l : LaneId) : State := if s.link.up then s else s.holdIf l

/-- The lane as it leaves HELD for a phase. -/
def Lane.unhold (x : Lane) (st : LaneState) (now : Nat) : Lane :=
  (x.enter st).updCtl fun c => { c with heldPhase := none, poll := c.poll.thaw now, dwell := c.dwell.thaw now }

/-- A motion start of a resumed phase is given and its outcome taken in that phase; armed stops are then tested (R152). -/
def State.resumeMotion (s : State) (l : LaneId) (p : MotionPhase) : State :=
  let r := (s.lane l).motionStart p
  let s1 := s.setLane l r.1
  match r.2 with
  | .started => s1.testStops l
  | .refused => s1.motorFaultEvent l
  | .homeArrival => s1.homeArrivalEvent l
  | .homeLimit => s1.withdrawResult l .homeLimit

/-- The lane returns to its held phase with RESUMED (R152). -/
def State.resumeLane (s : State) (l : LaneId) : State :=
  match (s.lane l).ctl.heldPhase with
  | none => s
  | some st =>
    let s1 := (s.upd l fun x => x.unhold st s.clock).emit l .resumed none
    match st with
    | .insert => s1.resumeMotion l .insert
    | .pull => s1.resumeMotion l .pull
    | .withdraw => s1.resumeMotion l .withdraw
    | .retract => if (s1.lane l).drive.home.active then s1.upd l Lane.endRetract else s1.resumeMotion l .retract
    | .guideCheck => s1
    | .turn => s1
    | .idle => s1
    | .finish => s1
    | .held => s1
    | .faulted => s1

/-! ### ABORT (R153), RETRACT (R154) and LANE_RESET (R155) -/

/-- The lane's state, or its held phase while HELD (R153). -/
def Lane.phaseOrHeld (x : Lane) : LaneState := if x.ctl.state = .held then x.ctl.heldPhase.getD .held else x.ctl.state

/-- ABORT in the given state or held phase (R153); `none` where it is refused with STATE. -/
def State.abortLane (s : State) (l : LaneId) : Option State :=
  let aborted (x : Lane) : Lane := x.updTube fun t => t.decideOutcome .aborted
  match (s.lane l).phaseOrHeld with
  | .guideCheck => some ((s.upd l aborted).enterFinish l)
  | .insert => some ((s.upd l aborted).startWithdraw l)
  | .turn => some ((s.upd l fun x => aborted x.leaveTurn).startWithdraw l)
  | .pull => some ((s.endPull l .aborted).retargetWithdraw l)
  | .withdraw => some s
  | .finish => some s
  | .idle => none
  | .held => none
  | .faulted => none
  | .retract => none

/-- RETRACT on a lane in IDLE or FAULTED (R154). -/
def State.startRetract (s : State) (l : LaneId) : State :=
  let x := s.lane l
  let r := ((x.enter .retract).updCtl fun c => { c with returnTo := some x.ctl.state }).motionStart .retract
  let s1 := s.setLane l r.1
  match r.2 with
  | .refused => s1.motorFaultEvent l
  | .started => s1
  | .homeArrival => s1
  | .homeLimit => s1

/-- The rearm flag is brought up to date for a tube that had entered INSERT (R143). -/
def Lane.updateRearm (x : Lane) : Lane :=
  match x.ctl.tube with
  | some t => if t.enteredInsert then x.updCtl fun c => { c with rearm := !x.drive.guide.active } else x
  | none => x

/-- The tube leaves the lane (R148, step 4). -/
def Lane.closeTube (x : Lane) : Lane := (x.updateRearm).updCtl fun c => { c with tube := none }

/-- A job of the lane in the engine is marked discarded (R81). -/
def Engine.discard (e : Engine) (l : LaneId) : Engine :=
  { e with busy := e.busy.map fun k => if k.lane = l then { k with discarded := true } else k }

/-- LANE_RESET's effect on the lane's own blocks (R155, R38, R40, R81, R100, R136). -/
def Lane.resetLane (x : Lane) : Lane :=
  let y := (((x.updateRearm.stopDrive.disarmStops).disarmCapture).resetScreens).clearDetector
  let z := (y.enter .idle).updCtl fun c =>
    { c.timersOff with worklist := [], tube := none, heldPhase := none, returnTo := none }
  { z with jobs := [], ring := [] }

/-- LANE_RESET (R155): the buffers return before the notice is formed (R171). -/
def State.resetLane (s : State) (l : LaneId) : State :=
  let s1 := s.upd l Lane.resetLane
  let s2 : State := { s1 with engine := s1.engine.discard l }
  ((s2.giveUpBlock l .full).giveUpBlock l .region).emit l .laneReset none

end Sys2Proof.Machine
end

