-- ==== Sys2Proof/Machine/EngineEvents.lean ====
section
/-! DEFINITION. JOB_COMPLETION: what the measurement engine delivers (chapters 3 and 4). -/

namespace Sys2Proof.Machine

/-- A measured entry joins the catalogue of the lane's current tube (R80, R105). -/
def Lane.joinMeasured (x : Lane) (ind : Indication) : Lane :=
  x.updTube fun t => t.join (entryOf x.pitch ind (some (measure (x.facets ind.channel).curve ind.values)))

/-- A base channel's coefficient is replaced; its null stands (R58). -/
def Lane.setCoefficient (x : Lane) (ch : Nat) (kc ks : Int) : Lane :=
  { x with bases := x.bases.set ch { x.base ch with kc := kc, ks := ks } }

/-- A mix's coefficient is replaced; its sources and settings stand (R61). -/
def Lane.setMixCoefficient (x : Lane) (ch : Nat) (mc ms : Int) : Lane :=
  { x with mixes := x.mixes.set (ch - 16) { x.mix ch with defn := (x.mix ch).defn.map fun d => { d with mc := mc, ms := ms } } }

/-- The request in flight is answered: the reply enters the slot and the handler becomes FREE (R178, R185). -/
def State.answerFlight (s : State) (code : ReplyCode) (body : ReplyBody) : State :=
  match s.link.handler with
  | .working hdr => ({ s with link := { s.link with handler := .free } }).placeReply { hdr := hdr, code := code, body := body }
  | .free => s

/-- The reply code of a failed solve (R58, R61). -/
def SolveError.code : SolveError → ReplyCode
  | .spanWeak => .spanWeak
  | .gainRange => .gainRange

/-- A SPAN job's result (R57, R58). A span holds two lines or more, so it has a max chord. -/
def State.deliverSpan (s : State) (l : LaneId) (ch amplitude phase : Nat) (values : List Vec) : State :=
  let k := (maxChord values).getD { d := 0, c := ⟨0, 0⟩ }
  match solveSpan amplitude phase k with
  | .ok (kc, ks) =>
    (s.upd l fun x => x.setCoefficient ch kc ks).answerFlight .ok (.spanCal (angleTenths k.c) (vppOf k.d) (some (kc, ks)))
  | .error e => s.answerFlight e.code (.spanCal (angleTenths k.c) (vppOf k.d) none)

/-- The residual Vpp of a mix solve: the max chord of the mix values with the new coefficient (R60). -/
def residualVpp (mc ms : Int) (ps qs : List Vec) : Nat :=
  match maxChord (List.zipWith (mixValue mc ms) ps qs) with
  | some k => vppOf k.d
  | none => 0

/-- A SOLVE job's result (R60, R61). -/
def State.deliverSolve (s : State) (l : LaneId) (ch : Nat) (ps qs : List Vec) : State :=
  match solveMixCoefficient ps qs with
  | .ok (mc, ms) =>
    (s.upd l fun x => x.setMixCoefficient ch mc ms).answerFlight .ok (.solveMix mc ms (residualVpp mc ms ps qs))
  | .error e => s.answerFlight e.code .empty

/-- A job's result goes to its owner (R80). -/
def State.deliver (s : State) (l : LaneId) (j : Job) : State :=
  match j with
  | .measure _ ind => s.upd l fun x => x.joinMeasured ind
  | .span ch amplitude phase values => s.deliverSpan l ch amplitude phase values
  | .solve ch ps qs => s.deliverSolve l ch ps qs

/-- JOB_COMPLETION: the engine delivers its result unless the job is discarded, then chooses its next job; a FINISH that
waited for the job goes on (R78, R80, R148). -/
def execJobCompletion (s : State) : Host.Outcome State Fault Refusal :=
  .next
    (match s.engine.busy with
    | none => s
    | some e =>
      let s1 := s.reach e.doneAt
      let s2 := if e.discarded then s1 else s1.deliver e.lane e.job
      s2.engineChoose.finishWait e.lane)

end Sys2Proof.Machine
end

