-- ==== Sys2Proof/Machine/LinkEvents.lean ====
section
/-! DEFINITION. The events of the station line: SYNC_WORD_FOUND, FRAME_LENGTH_OUT_OF_RANGE, FRAME_RECEIVED, FRAME_TIMEOUT,
SILENCE_TIMEOUT and TRANSMISSION_END (chapter 10). -/

namespace Sys2Proof.Machine

/-! ### The receiver (R173 to R175) -/

/-- A bad frame is counted, and the receiver returns to HUNTING (R173). -/
def State.badFrame (s : State) : State :=
  { s with link := { s.link with rx := .hunting false, bad := countUp Config.count32Max s.link.bad } }

/-- When a silence timer loaded now expires (R176). -/
def State.silenceEnd (s : State) : Nat := s.clock + s.link.silence * Config.nsPerMs

/-- Effects 1 and 2 of a good frame: the silence timer is reloaded, and a LOST link becomes UP with LINK_UP, upon which an IDLE
transmitter begins with what waits (R175, R180). -/
def State.signOfLife (s : State) : State :=
  let s1 : State := { s with link := { s.link with silenceDue := some s.silenceEnd, up := true } }
  if s.link.up then s1 else (s1.formNotice (unitNotice .linkUp)).kick

/-- Effect 3 of a good frame: it joins the request queue, or is discarded and counted where the queue holds 4 (R175). -/
def Link.accept (k : Link) (payload : List Byte) : Link :=
  if k.requests.length < Config.requestQueueMax then { k with requests := k.requests ++ [payload] }
  else { k with overflowed := countUp Config.count32Max k.overflowed }

/-- A good frame (R175). -/
def State.goodFrame (s : State) (payload : List Byte) : State :=
  let s1 := s.signOfLife
  { s1 with link := s1.link.accept payload }

/-- The length field of the bytes read since the sync word. -/
def lengthOf (got : List Byte) : Nat := lengthField (got.getD 0 0) (got.getD 1 0)

/-- The CRC of the bytes read matches the four bytes received (R174). -/
def crcMatches (got : List Byte) : Bool :=
  let covered := got.take (2 + lengthOf got)
  got.drop (2 + lengthOf got) == leBytes 4 (crc32 covered).toNat

/-- A frame whose last CRC byte has been read is judged; the receiver returns to HUNTING (R173, R174). -/
def State.judge (s : State) (got : List Byte) : State :=
  if crcMatches got then
    ({ s with link := { s.link with rx := .hunting false } }).goodFrame ((got.drop 2).take (lengthOf got))
  else s.badFrame

/-- The receiver in a frame has read one more byte (R173). -/
def State.frameByte (s : State) (got : List Byte) : State :=
  if got.length = 2 ∧ lengthInRange (lengthOf got) = false then s.badFrame
  else if 2 < got.length ∧ got.length = lengthOf got + 6 then s.judge got
  else { s with link := { s.link with rx := .inFrame got } }

/-- The receiver looks at one byte (R173). -/
def State.rxByte (s : State) (b : Byte) : State :=
  match s.link.rx with
  | .hunting first =>
    if first && b == syncSecond then { s with link := { s.link with rx := .inFrame [] } }
    else { s with link := { s.link with rx := .hunting (b == syncFirst) } }
  | .inFrame got => s.frameByte (got ++ [b])

/-- Bytes arrive on the line (R173). -/
def State.receive (s : State) (bytes : List Byte) : State :=
  let s1 := bytes.foldl State.rxByte s
  { s1 with link := { s1.link with lastByte := s1.clock } }

/-- SYNC_WORD_FOUND: the bytes that arrive bring the sync word (R173). -/
def execSyncWordFound (bytes : List Byte) (s : State) : Host.Outcome State Fault Refusal := .next (s.receive bytes)

/-- FRAME_LENGTH_OUT_OF_RANGE: the bytes that arrive bring a length field outside 4..2040 (R173). -/
def execFrameLengthOutOfRange (bytes : List Byte) (s : State) : Host.Outcome State Fault Refusal := .next (s.receive bytes)

/-- FRAME_RECEIVED: the bytes that arrive bring a frame's last CRC byte (R173 to R175). -/
def execFrameReceived (bytes : List Byte) (s : State) : Host.Outcome State Fault Refusal := .next (s.receive bytes)

/-- FRAME_TIMEOUT: no byte arrives for 1 ms in a frame, which is abandoned and counted as bad (R173). -/
def execFrameTimeout (s : State) : Host.Outcome State Fault Refusal :=
  .next
    (match s.link.rx with
    | .inFrame _ => (s.reach (s.link.lastByte + Config.frameGapNs)).badFrame
    | .hunting _ => s)

/-! ### The silence timer (R176) -/

/-- The link becomes LOST and the silence timer stops (R176). -/
def State.loseLink (s : State) : State := { s with link := { s.link with up := false, silenceDue := none } }

/-- SILENCE_TIMEOUT: the silence timer expires, the link becomes LOST and both lane controllers receive the loss (R176, R151;
log entry 25). -/
def execSilenceTimeout (s : State) : Host.Outcome State Fault Refusal :=
  .next
    (match s.link.up, s.link.silenceDue with
    | true, some due => (((s.reach due).loseLink).holdIf .a).holdIf .b
    | _, _ => s)

/-! ### The transmitter (R180) -/

/-- The record sent leaves the outbound queue and its buffer returns to the free pool (R158, R180). -/
def State.dropSent (s : State) : State := { s with pool := { s.pool with queue := s.pool.queue.drop 1 } }.returnBuffer

/-- TRANSMISSION_END: a reply's copy is dropped, or a record leaves the queue and its buffer returns; then the transmitter
chooses what to send next (R180). -/
def execTransmissionEnd (s : State) : Host.Outcome State Fault Refusal :=
  .next
    (match s.link.tx with
    | .idle => s
    | .sending .reply _ due => (s.reach due).choose
    | .sending .record _ due => ((s.reach due).dropSent).choose)

end Sys2Proof.Machine
end

