-- ==== Sys2Proof/Machine/MotionEvents.lean ====
section
/-! DEFINITION. The events of the discrete inputs, the encoder and the control period: RAW_LEVEL_CHANGE,
DEBOUNCED_STATE_CHANGE, EDGE, CONTROL_PERIOD_END and STALL (chapters 2 and 7). -/

namespace Sys2Proof.Machine

/-- RAW_LEVEL_CHANGE: the raw level of an input changes, and the time it has stood starts anew (R119). -/
def execRawLevelChange (l : LaneId) (i : InputId) (level : Bool) (s : State) : Host.Outcome State Fault Refusal :=
  .next (s.upd l fun x => { x with drive := x.drive.setInput i ((x.drive.input i).level level s.clock) })

/-- DEBOUNCED_STATE_CHANGE: a raw level that differs from the debounced state has stood for the debounce time (R119, R120). -/
def execDebouncedStateChange (l : LaneId) (i : InputId) (s : State) : Host.Outcome State Fault Refusal :=
  let x := s.lane l
  let v := x.drive.input i
  .next (if v.raw = v.active then s else (s.reach (x.debounceDue v)).inputChange l i)

/-- The home limit is tested at a change of the count while the motor runs in WITHDRAW (R132). -/
def State.testHomeLimit (s : State) (l : LaneId) : State :=
  let x := s.lane l
  if x.drive.enabled && x.drive.phase == .withdraw && x.atHomeLimit then (s.upd l Lane.stopDrive).withdrawResult l .homeLimit else s

/-- The count moves: the armed stops are tested, then the home limit (R20, R25, R132). -/
def State.moveCount (s : State) (l : LaneId) (count : Int) : State :=
  ((s.upd l fun x => { x with pos := { x.pos with count := count } }).testStops l).testHomeLimit l

/-- The last accepted phase state (R20, R21). -/
def Lane.accept (x : Lane) (phase : EncPhase) : Lane := { x with pos := { x.pos with phase := phase } }

/-- An invalid transition raises the encoder error count (R21). -/
def Lane.encoderError (x : Lane) : Lane := { x with pos := { x.pos with errors := countUp Config.count32Max x.pos.errors } }

/-- EDGE: the encoder shows a new phase state. One phase changed: the count moves by one, unless it would leave the range of
R22. Both changed: an invalid transition (R20 to R22, R25). -/
def execEdge (l : LaneId) (phase : EncPhase) (s : State) : Host.Outcome State Fault Refusal :=
  let p := (s.lane l).pos
  let s1 := s.upd l fun x => x.accept phase
  .next
    (match edgeStep p.phase phase with
    | none => s1.upd l Lane.encoderError
    | some d => if d ≠ 0 ∧ p.holds (p.count + d) = true then s1.moveCount l (p.count + d) else s1)

/-- A period wholly in PULL counts toward the tube's minimum and maximum pull speed (R29). -/
def Tube.speeds (t : Tube) (speed : Nat) : Tube :=
  { t with
    minSpeed := some (match t.minSpeed with
      | some m => min m speed
      | none => speed),
    maxSpeed := some (match t.maxSpeed with
      | some m => max m speed
      | none => speed) }

/-- The extremes of a period that lay wholly in PULL, and the mark of the next period (R29). -/
def Lane.pullSpeeds (x : Lane) : Lane :=
  let inPull := x.ctl.state == .pull
  let y := if x.pos.wholePull && inPull then x.updTube fun t => t.speeds x.pos.speed else x
  { y with pos := { y.pos with wholePull := inPull } }

/-- The measurement, and the end of the next period (R28, 2.5). -/
def Lane.periodMeasure (x : Lane) : Lane :=
  { x with pos := { x.pos.measure with periodEnd := x.pos.periodEnd + Config.controlPeriodNs } }

/-- The drive's part of a control period's end: the duty update, then the stall test, while the motor is ENABLED (R126, R128). -/
def Lane.drivePeriod (x : Lane) (tight : Bool) : Lane := if x.drive.enabled then (x.speedLoop tight).stallTest else x

/-- CONTROL_PERIOD_END: speed and direction are measured, the pull speed extremes kept, then the speed loop and the stall test
run (R28, R29, R126 to R128). -/
def execControlPeriodEnd (l : LaneId) (s : State) : Host.Outcome State Fault Refusal :=
  let s1 := s.reach (s.lane l).pos.periodEnd
  .next (s1.upd l fun x => (x.periodMeasure.pullSpeeds).drivePeriod s.pool.tight)

/-- STALL: the drive stops the motor and hands the stall to the lane controller with the raw position at the period end at
which it was detected (R129; log entry 7). -/
def execStall (l : LaneId) (s : State) : Host.Outcome State Fault Refusal :=
  let x := s.lane l
  .next (if x.stallDue then (s.upd l Lane.stopDrive).stallEvent l x.pos.refPos else s)

end Sys2Proof.Machine
end

