-- ==== Sys2Proof/Machine/Power.lean ====
section
/-! DEFINITION. POWER_ON (R186 and the power-on rule of every chapter). -/

namespace Sys2Proof.Machine

/-- An input after power-on: its power-on debounced state, its pin as it stands (R119; log entry 23). -/
def Input.powerOn (v initial : Input) : Input := { initial with raw := v.raw }

/-- A lane after power-on: every block at its power-on state, the encoder's phase state taken from the phases as they stand
(R40), the raw levels of the inputs as they stand (R119). -/
def Lane.powerOn (x : Lane) : Lane :=
  { Lane.reset with
    pos := { Position.reset with phase := x.pos.phase },
    drive :=
      { Drive.reset with
        guide := x.drive.guide.powerOn Drive.reset.guide, home := x.drive.home.powerOn Drive.reset.home,
        fault := x.drive.fault.powerOn Drive.reset.fault } }

/-- POWER_ON: every block of both lanes and the unit takes its power-on state (R19, R40, R41, R62, R84, R102, R117, R135, R156,
R172, R186). What waits to happen outside still waits. -/
def execPowerOn (s : State) : Host.Outcome State Fault Refusal :=
  .next { State.reset with laneA := s.laneA.powerOn, laneB := s.laneB.powerOn, pending := s.pending }

end Sys2Proof.Machine
end

