-- ==== Sys2Proof/Machine/ScanEvents.lean ====
section
/-! DEFINITION. The events of the excitation unit: SWITCH_END, SETTLE_END and SLOT_END (chapter 1, 1.4). -/

namespace Sys2Proof.Machine

/-- The slot in progress. -/
def Excitation.current (e : Excitation) (r : Running) : Slot := e.slots.getD r.slot default

/-- The slot in progress passes into a phase. -/
def Lane.toPhase (x : Lane) (r : Running) (p : SlotPhase) : Lane := { x with exc := { x.exc with run := some { r with phase := p } } }

/-- SWITCH_END: 2000 ns after its start the slot gives way to SETTLE (R4). -/
def execSwitchEnd (l : LaneId) (s : State) : Host.Outcome State Fault Refusal :=
  .next
    (match (s.lane l).exc.run with
    | some ⟨slot, .switch, start, part⟩ =>
      (s.reach (start + Config.switchNs)).upd l fun x => x.toPhase ⟨slot, .switch, start, part⟩ .settle
    | _ => s)

/-- When the SETTLE phase of a slot ends, ns (R5, R11; log entry 15). -/
def Excitation.settleDue (e : Excitation) (r : Running) : Nat :=
  r.start + Config.switchNs + periodsNs (e.current r).settle (e.freq (e.current r))

/-- SETTLE_END: the settle cycles end and the slot passes into INTEGRATE (R5). -/
def execSettleEnd (l : LaneId) (s : State) : Host.Outcome State Fault Refusal :=
  let e := (s.lane l).exc
  .next
    (match e.run with
    | some ⟨slot, .settle, start, part⟩ =>
      (s.reach (e.settleDue ⟨slot, .settle, start, part⟩)).upd l fun x => x.toPhase ⟨slot, .settle, start, part⟩ .integrate
    | _ => s)

/-! ### The demodulator (R6, R7)

`f` is the slot's excitation frequency in hertz and `cycles` its integrate cycles. -/

/-- Where code `k` of `n` stands in the drive reference, in n·10^9 parts of a turn. The reference starts at phase zero with SWITCH (R4);
SETTLE is whole periods (R5); so INTEGRATE begins f·2000 ns past a whole period, and its codes divide its cycles evenly (R6). -/
def demodPhase (f cycles n k : Nat) : Nat := (f * Config.switchNs * n + 1000000000 * cycles * k) % (1000000000 * n)

/-- The codes weighted by the reference and summed, in units of 2^-p, from code `k` on: quadrature (cosine) and in phase (sine) (R6). -/
def demodSums (p f cycles n : Nat) : List Int → Nat → Int × Int
  | [], _ => (0, 0)
  | v :: rest, k =>
    let w := cosSinTurn p (demodPhase f cycles n k) (1000000000 * n)
    let s := demodSums p f cycles n rest (k + 1)
    (v * w.1 + s.1, v * w.2 + s.2)

/-- The sum of the codes' magnitudes. -/
def demodMass (d : Demod) : Nat := (d.output.map Int.natAbs).sum

/-- One averaged component, rounded (R6), from its sum in units of 2^-p: 32767·2·sum / (n·full), which is 32767 for a sinusoid of
full-scale amplitude in phase with the weight. -/
def demodComponent (p : Nat) (d : Demod) (sum : Int) : Int := roundDiv (65534 * sum) (d.output.length * d.full * 2 ^ p)

/-- X and Y averaged with `p` places and rounded, at the lower and at the upper end of the error bound. -/
def demodBounds (p f cycles : Nat) (d : Demod) : Vec × Vec :=
  let s := demodSums p f cycles d.output.length d.output 0
  let err : Int := (demodMass d * 2 ^ (p / 2) : Nat)
  (⟨demodComponent p d (s.2 - err), demodComponent p d (s.1 - err)⟩, ⟨demodComponent p d (s.2 + err), demodComponent p d (s.1 + err)⟩)

/-- Binary places that decide every rounding of a sample: the phases are multiples of one turn over the least common multiple here, and
the average is an algebraic number of no greater degree, so that one which is no half-way point keeps farther from it than their
error (log entry 22). -/
def demodPlaces (f : Nat) (d : Demod) : Nat :=
  4 * Nat.lcm d.output.length (1000000000 / Nat.gcd (f * Config.switchNs) 1000000000) *
      (Nat.log2 (262136 * demodMass d + 2 * d.output.length * d.full) + 1) + 256

/-- The one farther from zero. -/
def farther (a b : Int) : Int := if b.natAbs < a.natAbs then a else b

/-- X and Y of a slot, averaged and rounded, not yet saturated (R6). Where 256 places leave a rounding open, `demodPlaces` decide it:
ends that still differ stand at a half-way point, which rounds away from zero. -/
def demodAverage (f cycles : Nat) (d : Demod) : Vec :=
  let b := demodBounds 256 f cycles d
  if b.1 = b.2 then b.1
  else
    let b := demodBounds (demodPlaces f d) f cycles d
    ⟨farther b.1.x b.2.x, farther b.1.y b.2.y⟩

/-- More than two codes to a cycle: the weighted codes then tell the component at the excitation frequency from the constant part and
from every harmonic that the codes can hold (proved in Laws/Demod.lean; log entry 14). -/
def demodResolves (d : Demod) (cycles : Nat) : Bool := decide (2 * cycles < d.output.length)

/-- X and Y of a slot that ends at `now`, before saturation: the average of R6, or a free value where the codes do not determine it
(log entry 14). -/
def demodValue (now f cycles : Nat) (d : Demod) : Vec :=
  if demodResolves d cycles then demodAverage f cycles d
  else ⟨(Config.unresolvedAverage now d.output).1, (Config.unresolvedAverage now d.output).2⟩

/-- The raw sample of a slot with its overload mark: the converter reached either end of its range. A component that rounds beyond
±32767 shows that it did (R6, R7). -/
def sampleOf (now f cycles : Nat) (d : Demod) : Sample :=
  let v := demodValue now f cycles d
  { value := ⟨sat v.x, sat v.y⟩,
    overload := (d.output.any fun k => decide (d.full ≤ k.natAbs)) || decide (32767 < v.x.natAbs) || decide (32767 < v.y.natAbs) }

/-- When a slot ends, ns (R11). -/
def Excitation.slotDue (e : Excitation) (r : Running) : Nat := r.start + e.slotTime (e.current r)

/-- The unit begins a slot's SWITCH phase with a partial cycle. -/
def Lane.beginSlot (x : Lane) (slot start : Nat) (part : List Sample) : Lane :=
  { x with exc := { x.exc with run := some { slot := slot, phase := .switch, start := start, partialCycle := part } } }

/-- A slot ends with its sample: the sample joins the partial cycle; the next slot begins, or the cycle completes with the
position latched, is delivered to line capture, and slot 0 begins (R3, R8, R9, R27). -/
def State.endSlot (s : State) (l : LaneId) (r : Running) (k : Sample) : State :=
  let x := s.lane l
  let due := x.exc.slotDue r
  let samples := r.partialCycle ++ [k]
  let s1 := s.reach due
  if r.slot + 1 < x.exc.slots.length then s1.upd l fun y => y.beginSlot (r.slot + 1) due samples
  else (s1.upd l fun y => y.beginSlot 0 due []).captureCycle l { samples := samples, position := x.pos.raw }

/-- SLOT_END: the integrate cycles of a slot end, with the converter's output over them (R6 to R9). -/
def execSlotEnd (l : LaneId) (d : Demod) (s : State) : Host.Outcome State Fault Refusal :=
  let e := (s.lane l).exc
  .next
    (match e.run with
    | some ⟨slot, .integrate, start, part⟩ =>
      let r : Running := ⟨slot, .integrate, start, part⟩
      s.endSlot l r (sampleOf (e.slotDue r) (e.freq (e.current r)) (e.current r).integrate d)
    | _ => s)

end Sys2Proof.Machine
end

