-- ==== Sys2Proof/Machine/SequenceEvents.lean ====
section
/-! DEFINITION. The lane controller's own events: GUIDE_POLL, TURN_DWELL_END, TAKE_ORDER and REPORT_RECORD (chapters 8, 9). -/

namespace Sys2Proof.Machine

/-- The next poll interval runs from the end of this one (R143). -/
def Lane.nextPoll (x : Lane) (due : Nat) : Lane :=
  x.updCtl fun c => { c with poll := .running (due + x.motion.pollInterval * Config.nsPerMs) }

/-- GUIDE_POLL: a poll interval ends in GUIDE_CHECK and a guide test is made (R143). -/
def execGuidePoll (l : LaneId) (s : State) : Host.Outcome State Fault Refusal :=
  let c := (s.lane l).ctl
  .next
    (match c.state, c.poll with
    | .guideCheck, .running due => ((s.reach due).upd l fun x => x.nextPoll due).guideTest l
    | _, _ => s)

/-- TURN_DWELL_END: the dwell runs out and the lane enters PULL (R145). -/
def execTurnDwellEnd (l : LaneId) (s : State) : Host.Outcome State Fault Refusal :=
  let c := (s.lane l).ctl
  .next
    (match c.state, c.dwell with
    | .turn, .running due => (s.reach due).enterPull l
    | _, _ => s)

/-- TAKE_ORDER: an IDLE lane whose conditions hold takes the front order of its worklist (R142). -/
def execTakeOrder (l : LaneId) (s : State) : Host.Outcome State Fault Refusal := .next (s.takeFrontOrder l)

/-- The SUMMARY of a tube (R141, R115, R190). -/
def Lane.summary (x : Lane) (t : Tube) : Summary :=
  { tag := t.order.tag, row := t.order.row, column := t.order.column, outcome := t.outcome, flags := t.flags,
    restriction := t.restriction, committed := t.committed, lost := t.lost, repeated := t.repeated, ignored := t.ignored,
    entries := t.catalogue.length, records := t.recordCount, catOverflow := t.catOverflow, lmOverflow := x.detector.overflow,
    minSpeed := t.minSpeed, maxSpeed := t.maxSpeed, correction := x.detector.correction,
    landmarks := sortLandmarks x.detector.landmarks }

/-- CATALOGUE record number k of a tube (R114, R190). -/
def Tube.catalogueRecord (t : Tube) (l : LaneId) (k : Nat) : Record :=
  .catalogue l t.order.tag k t.recordCount (t.recordEntries k)

/-- The tube leaves the lane, which enters FAULTED if the fault mark is set and IDLE otherwise (R148, R150). -/
def State.leaveFinish (s : State) (l : LaneId) (fault : Option FaultCause) : State :=
  let s1 := s.upd l Lane.closeTube
  match fault with
  | some cause => s1.enterFaulted l cause
  | none => s1.upd l fun x => x.enter .idle

/-- The report assembler queues the tube's next record: a CATALOGUE record, or the SUMMARY, after which the tube leaves
(R169, R148). -/
def State.report (s : State) (l : LaneId) (t : Tube) : State :=
  if t.reported < t.recordCount then
    (s.upd l fun x => x.updTube fun u => { u with reported := u.reported + 1 }).queueRecord (t.catalogueRecord l (t.reported + 1))
  else (s.queueRecord (.summary l ((s.lane l).summary t))).leaveFinish l t.fault

/-- REPORT_RECORD: in step 3 of FINISH the report assembler finds a free buffer and forms and queues the next record (R169). -/
def execReportRecord (l : LaneId) (s : State) : Host.Outcome State Fault Refusal :=
  let c := (s.lane l).ctl
  .next
    (match c.state, c.tube with
    | .finish, some t => if t.located = true ∧ 1 ≤ s.pool.free then s.report l t else s
    | _, _ => s)

end Sys2Proof.Machine
end

