-- ==== Sys2Proof/Machine/Operands.lean ====
section
/-! DEFINITION. The operands of requests: the fields of a payload, its length, and the parts it carries (11.2, 11.3). -/

namespace Sys2Proof.Machine

/-! ### Fields (11.1) -/

/-- The byte at an offset. -/
def u8At (p : List Byte) (i : Nat) : Nat := (p.getD i 0).toNat

/-- The u16 at an offset. -/
def u16At (p : List Byte) (i : Nat) : Nat := u8At p i + 256 * u8At p (i + 1)

/-- The u32 at an offset. -/
def u32At (p : List Byte) (i : Nat) : Nat := u16At p i + 65536 * u16At p (i + 2)

/-- The s16 at an offset. -/
def s16At (p : List Byte) (i : Nat) : Int := if u16At p i < 32768 then (u16At p i : Int) else (u16At p i : Int) - 65536

/-- The s32 at an offset. -/
def s32At (p : List Byte) (i : Nat) : Int :=
  if u32At p i < 2147483648 then (u32At p i : Int) else (u32At p i : Int) - 4294967296

/-- Bit n of the byte at an offset. -/
def bitAt (p : List Byte) (i n : Nat) : Bool := (u8At p i).testBit n

/-- `k` u32 fields from an offset on. -/
def u32List (p : List Byte) : Nat → Nat → List Nat
  | 0, _ => []
  | k + 1, i => u32At p i :: u32List p k (i + 4)

/-- A value lies in a range, ends included (00_scope, 5). -/
def within (lo v hi : Nat) : Bool := decide (lo ≤ v) && decide (v ≤ hi)

/-- The header of a payload (11.1). -/
def headerOf (p : List Byte) : Header :=
  { kind := p.getD 0 0, lane := p.getD 1 0, tag := BitVec.ofNat 16 (u16At p 2) }

/-- The lane that a lane byte names: 0 or 1 (00_scope, 5). -/
def laneOf (p : List Byte) : Option LaneId := if u8At p 1 = 0 then some .a else if u8At p 1 = 1 then some .b else none

/-- The request kinds (11.1). -/
def isRequestKind (kind : Nat) : Bool := within 0x01 kind 0x11

/-! ### Lengths (R188) -/

/-- The payload length that a SET_LAYOUT's support count calls for (11.3). -/
def layoutLength (p : List Byte) : Nat := 20 + 4 * u8At p 5

/-- The payload length that a SET_SCAN's counts call for (11.3). -/
def scanLength (p : List Byte) : Nat := 8 + 4 * u8At p 4 + 6 * u8At p 5

/-- Where the SCREENING, DISPOSITION and CURVE parts stand, and where they end, from the offset of the first of them and the
offset of the part set (11.3, R189). A part takes no bytes where it is absent. -/
structure PartPlaces where
  /-- Offset of the SCREENING part. -/
  screening : Nat
  /-- Offset of the DISPOSITION part. -/
  disposition : Nat
  /-- Offset of the CURVE part. -/
  curve : Nat
  /-- The payload length the parts call for. -/
  total : Nat
  deriving DecidableEq, Repr

/-- The places of the three shared parts (11.3). -/
def partPlaces (p : List Byte) (setAt start : Nat) : PartPlaces :=
  let d := if bitAt p setAt 1 then start + 12 else start
  let c := if bitAt p setAt 2 then d + 4 else d
  { screening := start, disposition := d, curve := c,
    total := if bitAt p setAt 3 then c + 4 + 4 * u8At p c else c }

/-- Where the parts after CALIBRATION of a SET_CHANNEL begin (11.3). -/
def channelPartsAt (p : List Byte) : Nat := if bitAt p 5 0 then 16 else 8

/-- The places of a SET_CHANNEL's shared parts. -/
def channelPlaces (p : List Byte) : PartPlaces := partPlaces p 5 (channelPartsAt p)

/-- A SET_MIX asks for a definition (R50). -/
def mixDefines (p : List Byte) : Bool := u8At p 5 == 1

/-- The places of a SET_MIX definition's shared parts. -/
def mixPlaces (p : List Byte) : PartPlaces := partPlaces p 6 16

/-- The payload length of a SET_MIX: a removal's for every action other than 1 (R50, 11.3). -/
def mixLength (p : List Byte) : Nat := if mixDefines p then (mixPlaces p).total else 8

/-- The payload length that a QUEUE_TUBE's presence byte calls for (11.3). -/
def queueLength (p : List Byte) : Nat := 16 + (if bitAt p 4 1 then 4 else 0) + (if bitAt p 4 2 then 8 else 0)

/-! ### The SCREENING, DISPOSITION and CURVE parts (R63, R64, 11.3) -/

/-- A SCREENING part, if it passes its checks (R63). -/
def screeningAt (p : List Byte) (i : Nat) : Option Screening :=
  let openTh := u16At p (i + 2)
  let closeTh := u16At p (i + 4)
  if within 0 (u8At p i) 1 && within 0 (u8At p (i + 1)) 1 && within 50 openTh 30000 && within 25 closeTh openTh &&
      within 1 (u8At p (i + 6)) 4 && within 1 (u8At p (i + 7)) 8 && within 2 (u8At p (i + 8)) 10 then
    some
      { enable := u8At p i == 1, component := if u8At p (i + 1) = 1 then .max else .vert, openTh := openTh, closeTh := closeTh,
        confirm := u8At p (i + 6), release := u8At p (i + 7), shift := u8At p (i + 8) }
  else none

/-- A DISPOSITION part, if it passes its check (11.3). -/
def dispositionAt (p : List Byte) (i : Nat) : Option Disposition :=
  match u8At p i with
  | 0 => some .off
  | 1 => some .full
  | 2 => some .windowed
  | _ => none

/-- `k` curve points from an offset on. -/
def curvePoints (p : List Byte) : Nat → Nat → List CurvePoint
  | 0, _ => []
  | k + 1, i => { phase := u16At p i, depth := u8At p (i + 2) } :: curvePoints p k (i + 4)

/-- The phases strictly decrease and the depths strictly increase (R64). -/
def curveOrdered : List CurvePoint → Bool
  | a :: b :: rest => decide (b.phase < a.phase) && decide (a.depth < b.depth) && curveOrdered (b :: rest)
  | _ => true

/-- A CURVE part, if it passes its checks; 0 points remove the curve (R64). -/
def curveAt (p : List Byte) (i : Nat) : Option (List CurvePoint) :=
  let n := u8At p i
  let points := curvePoints p n (i + 4)
  if n = 0 then some []
  else if within 2 n 8 && (points.all fun q => within 0 q.phase 1800 && within 1 q.depth 100) && curveOrdered points then some points
  else none

/-- A part that is present and passes, present and fails (`none`), or absent (`some none`). -/
def optionalPart {α : Type} (present : Bool) (part : Option α) : Option (Option α) :=
  if present then part.map some else some none

/-- The shared parts of a SET_CHANNEL or SET_MIX, each present or absent. -/
structure Parts where
  /-- The SCREENING part. -/
  screening : Option Screening
  /-- The DISPOSITION part. -/
  disposition : Option Disposition
  /-- The CURVE part. -/
  curve : Option (List CurvePoint)
  deriving DecidableEq, Repr

/-- The shared parts, if every present one passes its checks (R48). -/
def partsAt (p : List Byte) (setAt : Nat) (k : PartPlaces) : Option Parts :=
  match optionalPart (bitAt p setAt 1) (screeningAt p k.screening), optionalPart (bitAt p setAt 2) (dispositionAt p k.disposition),
      optionalPart (bitAt p setAt 3) (curveAt p k.curve) with
  | some s, some d, some c => some { screening := s, disposition := d, curve := c }
  | _, _, _ => none

/-- Every present part replaces the corresponding settings, every absent part leaves them (R49, R50). -/
def Facets.apply (f : Facets) (k : Parts) : Facets :=
  { screening := k.screening.getD f.screening, disposition := k.disposition.getD f.disposition, curve := k.curve.getD f.curve }

/-! ### The CALIBRATION part (R47) -/

/-- A CALIBRATION part: null and coefficient. -/
structure CalPart where
  /-- The null. -/
  null : Vec
  /-- Kc. -/
  kc : Int
  /-- Ks. -/
  ks : Int
  deriving DecidableEq, Repr

/-- A CALIBRATION part, if it passes its checks: each null component in −32767..32767 (R47). -/
def calPartAt (p : List Byte) (i : Nat) : Option CalPart :=
  if s16At p i ≠ -32768 ∧ s16At p (i + 2) ≠ -32768 then
    some { null := ⟨s16At p i, s16At p (i + 2)⟩, kc := s16At p (i + 4), ks := s16At p (i + 6) }
  else none

/-! ### SET_SCAN (R16) -/

/-- `k` slots from an offset on (11.3). -/
def slotsAt (p : List Byte) : Nat → Nat → List Slot
  | 0, _ => []
  | k + 1, i =>
    { coil := u8At p i, freqIndex := u8At p (i + 1), drive := u8At p (i + 2), gain := u8At p (i + 3), settle := u8At p (i + 4),
      integrate := u8At p (i + 5) } :: slotsAt p k (i + 6)

/-- A slot's fields lie in their ranges (R2, R16). -/
def Slot.ok (freqCount : Nat) (k : Slot) : Bool :=
  within 0 k.coil 7 && decide (k.freqIndex < freqCount) && within 1 k.drive 8 && within 0 k.gain 5 && within 1 k.settle 16 &&
  within 4 k.integrate 64

/-- The tables of a SET_SCAN. -/
def scanTables (p : List Byte) : List Nat × List Slot :=
  (u32List p (u8At p 4) 8, slotsAt p (u8At p 5) (8 + 4 * u8At p 4))

/-- The tables pass every field check of R16. -/
def scanOk (p : List Byte) : Bool :=
  let t := scanTables p
  within 0 (u8At p 4) 4 && within 0 (u8At p 5) 16 && (t.1.all fun f => within 2000 f 1000000) &&
  (u8At p 5 == 0 || u8At p 4 != 0) && t.2.all (Slot.ok (u8At p 4))

/-! ### SET_LAYOUT (R85, R86) -/

/-- The numbers strictly ascend. -/
def ascending : List Nat → Bool
  | a :: b :: rest => decide (a < b) && ascending (b :: rest)
  | _ => true

/-- The class of a SET_LAYOUT, if its fields pass (R86). -/
def layoutAt (p : List Byte) : Option Layout :=
  let len := u32At p 8
  let tn := u32At p 12
  let tf := u32At p 16
  let centres := u32List p (u8At p 5) 20
  if within 1000000 len 30000000 && within 10000 tn 100000 && within 10000 tf 100000 && within 0 (u8At p 5) 24 && ascending centres &&
      centres.all fun c => decide (tn < c) && decide (c < len - tf) then
    some { length := (len : Int), tn := (tn : Int), tf := (tf : Int), supports := centres.map fun c => (c : Int) }
  else none

/-! ### SET_LANDMARK (R88, R89) -/

/-- The settings of a SET_LANDMARK, if they pass (R89). -/
def landmarkAt (p : List Byte) : Option LandmarkSettings :=
  let ch := u8At p 4
  let spMin := u16At p 6
  let spMax := u16At p 8
  let tsMin := u16At p 10
  if (within 0 ch 19 || ch == 255) && within 1 spMin 200 && within 1 spMax 200 && decide (spMin ≤ spMax) && within 2 tsMin 400 &&
      decide (spMax < tsMin) && s16At p 12 != -32768 && s16At p 14 != -32768 && within 100 (u16At p 16) 60000 &&
      within 1000 (u32At p 20) 100000 then
    some
      { channel := if ch = 255 then none else some ch, ref := ⟨s16At p 12, s16At p 14⟩, threshold := u16At p 16, spMin := spMin,
        spMax := spMax, tsMin := tsMin, tolerance := u32At p 20 }
  else none

/-! ### SET_MOTION (R133) -/

/-- The scale and the other settings of a SET_MOTION, if they pass (R133, 11.3). -/
def motionAt (p : List Byte) : Option (Nat × Motion) :=
  let m : Motion :=
    { pitch := some (u16At p 6), insertSpeed := u16At p 8, pullSpeed := u16At p 10, withdrawSpeed := u16At p 12,
      startDuty := u16At p 14, dmax := u16At p 16, kp := u8At p 18, stallDistance := u16At p 20, stallTime := u16At p 22,
      debounce := u8At p 24, homeLimit := u32At p 26, farBack := u32At p 30, pullEnd := u32At p 34, pollInterval := u16At p 38,
      attemptLimit := u16At p 40, turnDwell := u16At p 42 }
  if within 1 (u16At p 4) 500 && within 50 (u16At p 6) 20000 && within 10 m.insertSpeed 3000 && within 10 m.pullSpeed 2000 &&
      within 10 m.withdrawSpeed 3000 && within 0 m.startDuty 1000 && within 100 m.dmax 1000 && decide (m.startDuty ≤ m.dmax) &&
      within 1 m.kp 255 && within 500 m.stallDistance 20000 && within 100 m.stallTime 5000 && within 2 m.debounce 100 &&
      within 50000 m.homeLimit 2000000 && within 5000 m.farBack 500000 && within 0 m.pullEnd 500000 &&
      within 10 m.pollInterval 1000 && within 1 m.attemptLimit 3000 && within 0 m.turnDwell 2000 then
    some (u16At p 4, m)
  else none

/-! ### QUEUE_TUBE (R137) -/

/-- The order of a QUEUE_TUBE as its bytes give it (11.3, R189). -/
def orderAt (p : List Byte) : Order :=
  let segAt := if bitAt p 4 1 then 20 else 16
  { tag := u32At p 12, row := u16At p 6, column := u16At p 8, cls := u8At p 5, cal := bitAt p 4 0,
    length := if bitAt p 4 1 then some (u32At p 16) else none,
    segment := if bitAt p 4 2 then some (u32At p segAt, u32At p (segAt + 4)) else none }

/-- The length of a class 0 order, which it must give, lies in its range; it is not read with another class (R137; log
entry 19). -/
def Order.lengthOk (o : Order) : Bool :=
  if o.cls = 0 then
    match o.length with
    | some n => within 1000000 n 30000000
    | none => false
  else true

/-- A segment's positions lie in their ranges with upper > lower (R137). -/
def Order.segmentOk (o : Order) : Bool :=
  match o.segment with
  | some g => within 0 g.1 30000000 && within 0 g.2 30000000 && decide (g.2 < g.1)
  | none => true

/-- Each field of an order lies in its range (R137, R138). -/
def Order.fieldsOk (o : Order) : Bool :=
  within 1 o.tag 4294967295 && within 1 o.row 999 && within 1 o.column 999 && within 0 o.cls 16 && o.lengthOk && o.segmentOk

end Sys2Proof.Machine
end

