-- ==== Sys2Proof/Machine/Handler.lean ====
section
/-! DEFINITION. The request handler: taking the front frame, the outcome of a request, and its reply (R177, R178, R185). -/

namespace Sys2Proof.Machine

/-- What a request comes to once it is taken (R177). -/
inductive Handled where
  /-- Refused by a failing check: nothing changes (R185). -/
  | refused (code : ReplyCode)
  /-- Accepted and carried out: the state that results and the reply's fields. -/
  | done (s : State) (body : ReplyBody)
  /-- Accepted and in flight (R178). -/
  | inFlight (s : State)
  deriving DecidableEq, Repr

/-- The front frame leaves the request queue (R177). -/
def State.popRequest (s : State) : State := { s with link := { s.link with requests := s.link.requests.drop 1 } }

/-- The handler is WORKING on a request (R178). -/
def State.working (s : State) (hdr : Header) : State := { s with link := { s.link with handler := .working hdr } }

/-- The reply to a request, echoing its header (R177). -/
def replyTo (p : List Byte) (code : ReplyCode) (body : ReplyBody) : Reply := { hdr := headerOf p, code := code, body := body }

/-- A taken request is answered, or goes in flight (R177, R178). -/
def State.conclude (s : State) (p : List Byte) (h : Handled) : State :=
  match h with
  | .refused code => s.placeReply (replyTo p code .empty)
  | .done s1 body => s1.placeReply (replyTo p .ok body)
  | .inFlight s1 => s1.working (headerOf p)

/-- The frame the handler may take now: it is FREE, the reply slot is empty and the queue is not (R177). -/
def Link.front (k : Link) : Option (List Byte) :=
  match k.handler, k.slot, k.requests with
  | .free, none, p :: _ => some p
  | _, _, _ => none

/-- The handler takes the front frame, if it can and the frame is of the kind that the command's row names, and carries it out
(R177; log entry 5). -/
def State.handle (s : State) (kind : Nat → Bool) (f : List Byte → State → Handled) : State :=
  match s.link.front with
  | some p => if kind (u8At p 0) then s.popRequest.conclude p (f p s.popRequest) else s
  | none => s

/-- The kind byte is a given one (11.1). -/
def kindIs (k n : Nat) : Bool := n == k

/-- A request to a lane: BAD_LANE unless the lane byte is 0 or 1. -/
def forLane (p : List Byte) (f : LaneId → Handled) : Handled :=
  match laneOf p with
  | some l => f l
  | none => .refused .badLane

/-- A lane in which setup requests are carried out: IDLE or FAULTED (R177). -/
def LaneState.setup : LaneState → Bool
  | .idle => true
  | .faulted => true
  | .guideCheck => false
  | .insert => false
  | .turn => false
  | .pull => false
  | .withdraw => false
  | .finish => false
  | .held => false
  | .retract => false

/-- A setup request: BAD_LANE, then BUSY, then BAD_LENGTH, then the fields (R16, R48, R55, R89, R133). -/
def forSetup (p : List Byte) (s : State) (length : Nat) (f : LaneId → Handled) : Handled :=
  forLane p fun l =>
    if (s.lane l).ctl.state.setup = false then .refused .busy else if p.length ≠ length then .refused .badLength else f l

/-- A request to a lane in whatever state: BAD_LANE, then BAD_LENGTH, then the rest (R138, R177). -/
def forLaneLength (p : List Byte) (length : Nat) (f : LaneId → Handled) : Handled :=
  forLane p fun l => if p.length ≠ length then .refused .badLength else f l

/-- A request to the unit: BAD_LANE unless the lane byte is 255, then BAD_LENGTH (R86, R181, R183). -/
def forUnit (p : List Byte) (length : Nat) (f : Handled) : Handled :=
  if u8At p 1 ≠ 255 then .refused .badLane else if p.length ≠ length then .refused .badLength else f

end Sys2Proof.Machine
end

