-- ==== Sys2Proof/Machine/SetupRequests.lean ====
section
/-! DEFINITION. The setup requests of a lane: SET_SCAN, SET_CHANNEL, SET_MIX, SET_LANDMARK and SET_MOTION (chapters 1, 3, 5
and 7). -/

namespace Sys2Proof.Machine

/-! ### SET_SCAN (R15 to R18) -/

/-- The excitation unit with new tables: the cycle in progress is abandoned, and slot 0 begins or the unit is STOPPED (R17). -/
def scanStart (freqs : List Nat) (slots : List Slot) (now : Nat) : Excitation :=
  { freqs := freqs, slots := slots,
    run := if slots = [] then none else some { slot := 0, phase := .switch, start := now, partialCycle := [] } }

/-- The tables are replaced whole and the calibration store is cleared (R17). -/
def Lane.setScan (x : Lane) (freqs : List Nat) (slots : List Slot) (now : Nat) : Lane :=
  { x with exc := scanStart freqs slots now, store := [] }

/-- The reply to an accepted SET_SCAN (R18). -/
def Lane.scanReply (x : Lane) : ReplyBody := .setScan x.exc.slots.length x.exc.cycleTime x.lineRateLimit x.effectivePull

/-- A SET_SCAN request (R15, R16). -/
def handleSetScan (p : List Byte) (s : State) : Handled :=
  forSetup p s (scanLength p) fun l =>
    if scanOk p then
      let t := scanTables p
      let s1 := s.upd l fun x => x.setScan t.1 t.2 s.clock
      .done s1 (s1.lane l).scanReply
    else .refused .badField

/-- SET_SCAN (R17). -/
def execSetScan (s : State) : Host.Outcome State Fault Refusal := .next (s.handle (kindIs 0x04) handleSetScan)

/-! ### SET_CHANNEL (R48, R49) -/

/-- A base channel with every present part replaced (R49). -/
def BaseChannel.apply (b : BaseChannel) (cal : Option CalPart) (k : Parts) : BaseChannel :=
  let c : BaseChannel :=
    match cal with
    | some c => { b with null := c.null, kc := c.kc, ks := c.ks }
    | none => b
  { c with facets := b.facets.apply k }

/-- A base channel of the lane is replaced. -/
def Lane.setBase (x : Lane) (ch : Nat) (b : BaseChannel) : Lane := { x with bases := x.bases.set ch b }

/-- The reply to an accepted SET_CHANNEL (R49). -/
def Lane.channelReply (x : Lane) (ch : Nat) : ReplyBody :=
  .setChannel (x.base ch).null (x.base ch).kc (x.base ch).ks (x.active ch)

/-- A SET_CHANNEL request (R48). -/
def handleSetChannel (p : List Byte) (s : State) : Handled :=
  let ch := u8At p 4
  forSetup p s (channelPlaces p).total fun l =>
    if within 0 ch 15 = false then .refused .badField
    else
      match optionalPart (bitAt p 5 0) (calPartAt p 8), partsAt p 5 (channelPlaces p) with
      | some cal, some parts =>
        let s1 := s.upd l fun x => x.setBase ch ((x.base ch).apply cal parts)
        .done s1 ((s1.lane l).channelReply ch)
      | _, _ => .refused .badField

/-- SET_CHANNEL (R49). -/
def execSetChannel (s : State) : Host.Outcome State Fault Refusal := .next (s.handle (kindIs 0x05) handleSetChannel)

/-! ### SET_MIX (R50, R51) -/

/-- The definition a SET_MIX gives (11.3). -/
def mixDefAt (p : List Byte) : MixDef := { p := u8At p 8, q := u8At p 9, mc := s16At p 12, ms := s16At p 14 }

/-- The sources of a definition lie in 0..15 and differ (R50). -/
def MixDef.ok (d : MixDef) : Bool := within 0 d.p 15 && within 0 d.q 15 && d.p != d.q

/-- A mix after a definition: an undefined mix starts from the power-on values, a defined one keeps what is absent (R50). -/
def MixChannel.define (m : MixChannel) (d : MixDef) (k : Parts) : MixChannel :=
  { defn := some d, facets := (if m.defn.isSome then m.facets else Facets.reset).apply k }

/-- A mix of the lane is replaced. -/
def Lane.setMix (x : Lane) (ch : Nat) (m : MixChannel) : Lane := { x with mixes := x.mixes.set (ch - 16) m }

/-- A mix of the lane is replaced and the reply says whether it is active (R50). -/
def State.setMix (s : State) (l : LaneId) (ch : Nat) (m : MixChannel) : Handled :=
  let s1 := s.upd l fun x => x.setMix ch m
  .done s1 (.active ((s1.lane l).active ch))

/-- A SET_MIX request (R50, R51). -/
def handleSetMix (p : List Byte) (s : State) : Handled :=
  let ch := u8At p 4
  forSetup p s (mixLength p) fun l =>
    if within 16 ch 19 = false then .refused .badField
    else if u8At p 5 = 0 then s.setMix l ch MixChannel.reset
    else if mixDefines p then
      match (mixDefAt p).ok, partsAt p 6 (mixPlaces p) with
      | true, some parts => s.setMix l ch (((s.lane l).mix ch).define (mixDefAt p) parts)
      | _, _ => .refused .badField
    else .refused .badField

/-- SET_MIX (R50, R51). -/
def execSetMix (s : State) : Host.Outcome State Fault Refusal := .next (s.handle (kindIs 0x06) handleSetMix)

/-! ### SET_LANDMARK (R89) -/

/-- The named landmark channel is active; not so for the setting none (R89). -/
def Lane.landmarkActive (x : Lane) : Bool :=
  match x.landmark.channel with
  | some ch => x.active ch
  | none => false

/-- A SET_LANDMARK request (R89). -/
def handleSetLandmark (p : List Byte) (s : State) : Handled :=
  forSetup p s 24 fun l =>
    match landmarkAt p with
    | some k =>
      let s1 := s.upd l fun x => { x with landmark := k }
      .done s1 (.active (s1.lane l).landmarkActive)
    | none => .refused .badField

/-- SET_LANDMARK (R89). -/
def execSetLandmark (s : State) : Host.Outcome State Fault Refusal := .next (s.handle (kindIs 0x07) handleSetLandmark)

/-! ### SET_MOTION (R133, R134) -/

/-- The position counter under a scale: a set or changed scale clamps the count and sets the reference position (R22, R28).
DESIGN CHOICE: the scale already in force leaves the reference position (R28, R134; log entry 29). -/
def Position.setScale (p : Position) (scale : Nat) : Position :=
  if p.scale = some scale then p
  else { p with scale := some scale, count := clampCount scale p.count, refPos := clampCount scale p.count * (scale : Int) }

/-- The settings are replaced whole (R134). -/
def Lane.setMotion (x : Lane) (scale : Nat) (m : Motion) : Lane := { x with pos := x.pos.setScale scale, motion := m }

/-- The three inputs, in the order their pending changes are taken at a SET_MOTION (log entry 18). -/
def allInputs : List InputId := [.guideLatched, .probeHome, .motorFault]

/-- The reply to an accepted SET_MOTION (R134). -/
def Lane.motionReply (x : Lane) : ReplyBody := .setMotion x.lineRateLimit x.effectivePull

/-- A SET_MOTION request (R133). -/
def handleSetMotion (p : List Byte) (s : State) : Handled :=
  forSetup p s 46 fun l =>
    match motionAt p with
    | some k =>
      let s1 := allInputs.foldl (State.settleInput l) (s.upd l fun x => x.setMotion k.1 k.2)
      .done s1 (s1.lane l).motionReply
    | none => .refused .badField

/-- SET_MOTION (R134). -/
def execSetMotion (s : State) : Host.Outcome State Fault Refusal := .next (s.handle (kindIs 0x08) handleSetMotion)

end Sys2Proof.Machine
end

