-- ==== Sys2Proof/Machine/SolveRequests.lean ====
section
/-! DEFINITION. The requests in flight: SPAN_CAL and SOLVE_MIX (chapter 3). -/

namespace Sys2Proof.Machine

/-- The span runs from hi down to lo over 2 to 256 lines (R55). -/
def spanOk (hi lo : Int) : Bool := decide (lo < hi) && decide (hi - lo + 1 ≤ 256)

/-- Both ends of a span are held in the calibration store (R55). -/
def Lane.spanHeld (x : Lane) (hi lo : Int) : Bool := x.storeHolds hi && x.storeHolds lo

/-- A SPAN_CAL request (R55, R56). -/
def handleSpanCal (p : List Byte) (s : State) : Handled :=
  let ch := u8At p 4
  let amplitude := u16At p 6
  let phase := u16At p 8
  let hi := s32At p 12
  let lo := s32At p 16
  forSetup p s 20 fun l =>
    let x := s.lane l
    if (within 0 ch 15 && x.active ch) = false then .refused .badField
    else if (within 100 amplitude 30000 && within 0 phase 3599) = false then .refused .badField
    else if spanOk hi lo = false then .refused .badField
    else if x.spanHeld hi lo = false then .refused .noData
    else .inFlight (s.appendJob l (.span ch amplitude phase (slotValues (x.storeSpan hi lo) ch)))

/-- SPAN_CAL (R56). -/
def execSpanCal (s : State) : Host.Outcome State Fault Refusal := .next (s.handle (kindIs 0x10) handleSpanCal)

/-- A SOLVE_MIX request (R59). -/
def handleSolveMix (p : List Byte) (s : State) : Handled :=
  let ch := u8At p 4
  let hi := s32At p 8
  let lo := s32At p 12
  forSetup p s 16 fun l =>
    let x := s.lane l
    match within 16 ch 19 && x.mixActive ch, (x.mix ch).defn with
    | true, some d =>
      if spanOk hi lo = false then .refused .badField
      else if x.spanHeld hi lo = false then .refused .noData
      else
        .inFlight
          (s.appendJob l (.solve ch (x.calibratedSpan (x.storeSpan hi lo) d.p) (x.calibratedSpan (x.storeSpan hi lo) d.q)))
    | _, _ => .refused .badField

/-- SOLVE_MIX (R59). -/
def execSolveMix (s : State) : Host.Outcome State Fault Refusal := .next (s.handle (kindIs 0x11) handleSolveMix)

end Sys2Proof.Machine
end

