-- ==== Sys2Proof/Machine/TubeRequests.lean ====
section
/-! DEFINITION. The requests to the lane controller: QUEUE_TUBE, CANCEL_TUBE, ABORT, HOLD, RESUME, RETRACT and LANE_RESET
(chapter 8). -/

namespace Sys2Proof.Machine

/-! ### QUEUE_TUBE (R138, R139) -/

/-- The lane is ready for a tube: a scan table with a slot, scale and pitch set (R138). -/
def Lane.ready (x : Lane) : Bool := !x.exc.slots.isEmpty && x.pos.scale.isSome && x.motion.pitch.isSome

/-- The fields of an order pass, and its class is defined (R138). -/
def State.orderOk (s : State) (o : Order) : Bool := o.fieldsOk && (o.cls == 0 || (s.layout o.cls).isSome)

/-- A tag is in the worklist or is the current tube's (R138). -/
def Lane.hasTag (x : Lane) (tag : Nat) : Bool := (x.ctl.worklist.any fun o => o.tag == tag) || x.tag == some tag

/-- An order joins the back of the worklist (R139). -/
def Lane.appendOrder (x : Lane) (o : Order) : Lane := x.updCtl fun c => { c with worklist := c.worklist ++ [o] }

/-- A QUEUE_TUBE request; an IDLE lane that can takes its front order before the reply is formed (R138, R139, R142; log entry 8). -/
def handleQueueTube (p : List Byte) (s : State) : Handled :=
  forLaneLength p (queueLength p) fun l =>
    let x := s.lane l
    let o := orderAt p
    if x.ready = false then .refused .notReady
    else if s.orderOk o = false then .refused .badField
    else if stopsOk x.pitch (s.stops l o) = false then .refused .badField
    else if Config.worklistMax ≤ x.ctl.worklist.length then .refused .full
    else if x.hasTag o.tag then .refused .duplicate
    else
      .done ((s.upd l fun y => y.appendOrder o).takeFrontOrder l)
        (.queueTube (x.ctl.worklist.length + 1) (s.stops l o).1 (s.stops l o).2)

/-- QUEUE_TUBE (R139). -/
def execQueueTube (s : State) : Host.Outcome State Fault Refusal := .next (s.handle (kindIs 0x09) handleQueueTube)

/-! ### CANCEL_TUBE (R140) -/

/-- The orders other than that of a tag (R140). -/
def ordersWithout (tag : Nat) (orders : List Order) : List Order := orders.filter fun o => o.tag != tag

/-- A CANCEL_TUBE request (R140). -/
def handleCancelTube (p : List Byte) (s : State) : Handled :=
  forLaneLength p 8 fun l =>
    let tag := u32At p 4
    let orders := (s.lane l).ctl.worklist
    if orders.any fun o => o.tag == tag then
      .done (s.upd l fun x => x.updCtl fun c => { c with worklist := ordersWithout tag c.worklist })
        (.cancelTube (ordersWithout tag orders).length)
    else .refused .notFound

/-- CANCEL_TUBE (R140). -/
def execCancelTube (s : State) : Host.Outcome State Fault Refusal := .next (s.handle (kindIs 0x0A) handleCancelTube)

/-! ### ABORT (R153) -/

/-- An ABORT request (R153; log entry 10). -/
def handleAbort (p : List Byte) (s : State) : Handled :=
  forLaneLength p 4 fun l =>
    match s.abortLane l with
    | some s1 => .done (s1.holdIfLost l) .empty
    | none => .refused .state

/-- ABORT (R153). -/
def execAbort (s : State) : Host.Outcome State Fault Refusal := .next (s.handle (kindIs 0x0B) handleAbort)

/-! ### HOLD (R151) -/

/-- A HOLD request (R151). -/
def handleHold (p : List Byte) (s : State) : Handled :=
  forLaneLength p 4 fun l =>
    let st := (s.lane l).ctl.state
    if st.holdable then .done (s.enterHeld l) .empty else if st = .held then .done s .empty else .refused .state

/-- HOLD (R151). -/
def execHold (s : State) : Host.Outcome State Fault Refusal := .next (s.handle (kindIs 0x0C) handleHold)

/-! ### RESUME (R152) -/

/-- A RESUME request (R152; log entry 10). -/
def handleResume (p : List Byte) (s : State) : Handled :=
  forLaneLength p 4 fun l =>
    if (s.lane l).ctl.state = .held then .done ((s.resumeLane l).holdIfLost l) .empty else .refused .state

/-- RESUME (R152). -/
def execResume (s : State) : Host.Outcome State Fault Refusal := .next (s.handle (kindIs 0x0D) handleResume)

/-! ### RETRACT (R154) -/

/-- A RETRACT request (R154; log entry 10). -/
def handleRetract (p : List Byte) (s : State) : Handled :=
  forLaneLength p 4 fun l =>
    let x := s.lane l
    if x.ctl.state.setup && !x.drive.home.active then .done ((s.startRetract l).holdIfLost l) .empty else .refused .state

/-- RETRACT (R154). -/
def execRetract (s : State) : Host.Outcome State Fault Refusal := .next (s.handle (kindIs 0x0E) handleRetract)

/-! ### LANE_RESET (R155) -/

/-- A LANE_RESET request (R155). -/
def handleLaneReset (p : List Byte) (s : State) : Handled := forLaneLength p 4 fun l => .done (s.resetLane l) .empty

/-- LANE_RESET (R155). -/
def execLaneReset (s : State) : Host.Outcome State Fault Refusal := .next (s.handle (kindIs 0x0F) handleLaneReset)

end Sys2Proof.Machine
end

