-- ==== Sys2Proof/Machine/UnitRequests.lean ====
section
/-! DEFINITION. The requests to the unit: BAD_KIND, STATUS, SET_LINK and SET_LAYOUT (chapters 10 and 5). -/

namespace Sys2Proof.Machine

/-- BAD_KIND: a frame whose kind is no request kind is refused (R177). -/
def execBadKind (s : State) : Host.Outcome State Fault Refusal :=
  .next (s.handle (fun k => !isRequestKind k) fun _ _ => .refused .badKind)

/-! ### STATUS (R183) -/

/-- The unit part of the snapshot (R183). -/
def State.unitStatus (s : State) : UnitStatus :=
  { up := s.link.up, mask := s.link.mask, requests := s.link.requests.length, tight := s.pool.tight, silence := s.link.silence,
    free := s.pool.free, records := s.pool.queue.length, low := s.pool.low, resume := s.pool.resume,
    engine := s.engine.busy.map fun e => e.lane, servedLast := s.engine.servedLast, bad := s.link.bad,
    overflowed := s.link.overflowed, dropped := s.pool.dropped }

/-- The engine holds a job of the lane (R183). -/
def Engine.holds (e : Engine) (l : LaneId) : Bool :=
  match e.busy with
  | some k => decide (k.lane = l)
  | none => false

/-- A lane part of the snapshot (R183, R115). -/
def State.laneStatus (s : State) (l : LaneId) : LaneStatus :=
  let x := s.lane l
  { state := x.ctl.state, heldPhase := x.ctl.heldPhase, orders := x.ctl.worklist.length, tag := x.tag, rearm := x.ctl.rearm,
    direction := x.pos.direction, enabled := x.drive.enabled, brake := x.drive.brake, dir := x.drive.dir, phase := x.drive.phase,
    duty := x.drive.duty, speed := x.pos.speed, guide := x.drive.guide.active, home := x.drive.home.active,
    fault := x.drive.fault.active, jobs := x.jobs.length, engine := s.engine.holds l, raw := x.pos.raw, errors := x.pos.errors,
    store := x.store.length, storeFirst := x.store.head?.map fun k => k.index,
    entries := (x.ctl.tube.map fun t => t.catalogue.length).getD 0, catOverflow := (x.ctl.tube.map fun t => t.catOverflow).getD 0 }

/-- A STATUS request (R183). -/
def handleStatus (p : List Byte) (s : State) : Handled :=
  forUnit p 4 (.done s (.status s.unitStatus (s.laneStatus .a) (s.laneStatus .b)))

/-- STATUS (R183). -/
def execStatus (s : State) : Host.Outcome State Fault Refusal := .next (s.handle (kindIs 0x01) handleStatus)

/-! ### SET_LINK (R181, R160, R182) -/

/-- The silence time and levels of a SET_LINK lie in their ranges (R181). -/
def linkFieldsOk (silence low resume : Nat) : Bool := within 200 silence 10000 && within 17 low 200 && within (low + 1) resume 255

/-- The four items are replaced: a running silence timer is reloaded, and the pool is tested against the new levels (R181). -/
def State.setLink (s : State) (silence low resume : Nat) (mask : BitVec 7) : State :=
  { s with
    link := { s.link with
      silence := silence, mask := mask,
      silenceDue := if s.link.up then some (s.clock + silence * Config.nsPerMs) else s.link.silenceDue },
    pool := { s.pool with low := low, resume := resume } }.testPool

/-- A SET_LINK request (R181, 11.3). -/
def handleSetLink (p : List Byte) (s : State) : Handled :=
  let silence := u16At p 4
  let mask := BitVec.ofNat 7 (u8At p 6)
  let low := u8At p 7
  let resume := u8At p 8
  forUnit p 10
    (if linkFieldsOk silence low resume then .done (s.setLink silence low resume mask) (.setLink silence mask low resume)
    else .refused .badField)

/-- SET_LINK (R181). -/
def execSetLink (s : State) : Host.Outcome State Fault Refusal := .next (s.handle (kindIs 0x02) handleSetLink)

/-! ### SET_LAYOUT (R86) -/

/-- A lane's current tube uses a class (R87). -/
def Lane.usesClass (x : Lane) (cls : Nat) : Bool :=
  match x.ctl.tube with
  | some t => t.order.cls == cls
  | none => false

/-- A class is replaced whole (R86). -/
def State.setLayout (s : State) (cls : Nat) (y : Layout) : State := { s with layouts := s.layouts.set (cls - 1) (some y) }

/-- A SET_LAYOUT request (R86). -/
def handleSetLayout (p : List Byte) (s : State) : Handled :=
  let cls := u8At p 4
  forUnit p (layoutLength p)
    (if within 1 cls 16 = false then .refused .badField
    else if s.laneA.usesClass cls || s.laneB.usesClass cls then .refused .busy
    else
      match layoutAt p with
      | some y => .done (s.setLayout cls y) (.setLayout cls y.supports.length)
      | none => .refused .badField)

/-- SET_LAYOUT (R86). -/
def execSetLayout (s : State) : Host.Outcome State Fault Refusal := .next (s.handle (kindIs 0x03) handleSetLayout)

end Sys2Proof.Machine
end

