-- ==== Sys2Proof/Machine/Dispatch.lean ====
section
/-! DEFINITION. The meaning of every command: one arm per constructor of `Instr`. -/

namespace Sys2Proof.Machine

def exec (i : Instr) (s : State) : Host.Outcome State Fault Refusal :=
  match i with
  | .powerOn => Sys2Proof.Machine.execPowerOn s
  | .rawLevelChange l k level => Sys2Proof.Machine.execRawLevelChange l k level s
  | .debouncedStateChange l k => Sys2Proof.Machine.execDebouncedStateChange l k s
  | .edge l phase => Sys2Proof.Machine.execEdge l phase s
  | .controlPeriodEnd l => Sys2Proof.Machine.execControlPeriodEnd l s
  | .stall l => Sys2Proof.Machine.execStall l s
  | .switchEnd l => Sys2Proof.Machine.execSwitchEnd l s
  | .settleEnd l => Sys2Proof.Machine.execSettleEnd l s
  | .slotEnd l demod => Sys2Proof.Machine.execSlotEnd l demod s
  | .guidePoll l => Sys2Proof.Machine.execGuidePoll l s
  | .turnDwellEnd l => Sys2Proof.Machine.execTurnDwellEnd l s
  | .takeOrder l => Sys2Proof.Machine.execTakeOrder l s
  | .jobCompletion => Sys2Proof.Machine.execJobCompletion s
  | .reportRecord l => Sys2Proof.Machine.execReportRecord l s
  | .frameReceived bytes => Sys2Proof.Machine.execFrameReceived bytes s
  | .frameTimeout => Sys2Proof.Machine.execFrameTimeout s
  | .silenceTimeout => Sys2Proof.Machine.execSilenceTimeout s
  | .transmissionEnd => Sys2Proof.Machine.execTransmissionEnd s
  | .badKind => Sys2Proof.Machine.execBadKind s
  | .status => Sys2Proof.Machine.execStatus s
  | .setLink => Sys2Proof.Machine.execSetLink s
  | .setLayout => Sys2Proof.Machine.execSetLayout s
  | .setScan => Sys2Proof.Machine.execSetScan s
  | .setChannel => Sys2Proof.Machine.execSetChannel s
  | .setMix => Sys2Proof.Machine.execSetMix s
  | .setLandmark => Sys2Proof.Machine.execSetLandmark s
  | .setMotion => Sys2Proof.Machine.execSetMotion s
  | .queueTube => Sys2Proof.Machine.execQueueTube s
  | .cancelTube => Sys2Proof.Machine.execCancelTube s
  | .abort => Sys2Proof.Machine.execAbort s
  | .hold => Sys2Proof.Machine.execHold s
  | .resume => Sys2Proof.Machine.execResume s
  | .retract => Sys2Proof.Machine.execRetract s
  | .laneReset => Sys2Proof.Machine.execLaneReset s
  | .spanCal => Sys2Proof.Machine.execSpanCal s
  | .solveMix => Sys2Proof.Machine.execSolveMix s
  | .syncWordFound bytes => Sys2Proof.Machine.execSyncWordFound bytes s
  | .frameLengthOutOfRange bytes => Sys2Proof.Machine.execFrameLengthOutOfRange bytes s

end Sys2Proof.Machine
end

