-- ==== Sys2Proof/Machine/Step.lean ====
section
/-! DEFINITION. One step of the block: the command at the front of its queue. -/

namespace Sys2Proof.Machine

/-- The state with the command queue replaced. -/
def State.withPending (s : State) (q : List Instr) : State := { s with pending := q }

/-- With no command waiting the block idles: a nanosecond passes and nothing else changes (log entry 3). -/
def State.idle (s : State) : State := { s with clock := s.clock + 1 }

/-- One step: the command at the front of the queue is taken and carried out with the queue's rest; with an empty queue the
block idles. -/
def step (s : State) : Host.Outcome State Fault Refusal :=
  match s.pending with
  | [] => .next s.idle
  | c :: rest => exec c (s.withPending rest)

/-- The state with the command that a word spells put at the front of its queue; the table gives no row bits, so no word spells
one and the state is unchanged (log entry 23). -/
def State.withFetchWord (s : State) (nbits w : Nat) : State :=
  match decodeTableWord nbits w with
  | some c => s.withPending (c :: s.pending)
  | none => s

end Sys2Proof.Machine
end

