-- ==== Sys2Proof/Safety.lean ====
section
/-! DEFINITION. What counts as a safe state, in the terms the claims use, and the words the claims say frames with. -/

namespace Sys2Proof.Machine

/-! ### Frames -/

/-- Two states agree on everything but the lanes and the clock. -/
def State.sameUnit (s t : State) : Prop :=
  t.layouts = s.layouts ∧ t.engine = s.engine ∧ t.pool = s.pool ∧ t.link = s.link ∧ t.pending = s.pending

/-- Two states agree on the other lane. -/
def State.sameOther (l : LaneId) (s t : State) : Prop := t.lane (otherLane l) = s.lane (otherLane l)

/-- Two states agree on both lanes. -/
def State.sameLanes (s t : State) : Prop := t.laneA = s.laneA ∧ t.laneB = s.laneB

/-- Two states agree on what a request of a lane never reaches: the other lane, the layouts, the clock and the queue of
commands. -/
def State.sameBeyond (l : LaneId) (s t : State) : Prop :=
  s.sameOther l t ∧ t.layouts = s.layouts ∧ t.clock = s.clock ∧ t.pending = s.pending

/-! ### The motor law (R121, R123) -/

/-- The motion phase that a lane state drives (R121). -/
def LaneState.motion : LaneState → MotionPhase
  | .insert => .insert
  | .pull => .pull
  | .withdraw => .withdraw
  | .retract => .retract
  | .idle => .none
  | .guideCheck => .none
  | .turn => .none
  | .finish => .none
  | .held => .none
  | .faulted => .none

/-- The drive follows the lane state: the motor is ENABLED exactly in the four motion states, in the phase and direction of the
state; the brake is RELEASED exactly while it is; DISABLED it has duty 0 and no stall window (R121, R124). -/
abbrev Lane.driveFollows (x : Lane) : Prop :=
  x.drive.phase = x.ctl.state.motion ∧
  x.drive.enabled = (x.ctl.state.motion != .none) ∧
  x.drive.brake = (if x.drive.enabled then .released else .engaged) ∧
  (x.drive.enabled = true → x.drive.dir = x.ctl.state.motion.dir x.drive.dir) ∧
  (x.drive.enabled = false → x.drive.duty = 0 ∧ x.drive.window = none)

/-- A held phase is remembered exactly in HELD and is one that can be held; a retraction returns to IDLE or FAULTED; an armed
stop belongs to the phase it serves, held or not (R26, R151, R154). -/
def Lane.phasesLegal (x : Lane) : Prop :=
  (x.ctl.state = .held ↔ x.ctl.heldPhase.isSome = true) ∧
  (∀ st, x.ctl.heldPhase = some st → st.holdable = true) ∧
  (∀ st, x.ctl.returnTo = some st → st = .idle ∨ st = .faulted) ∧
  (x.pos.armedA = true → x.phaseOrHeld = .insert) ∧
  (x.pos.armedB = true → x.phaseOrHeld = .pull)

/-- The motor law of one lane (R123): ENABLED only while the link is UP and motor-fault is INACTIVE; while the link is LOST the
lane is in no state that link loss holds. -/
def Lane.motorLawful (x : Lane) (up : Bool) : Prop :=
  x.driveFollows ∧ x.phasesLegal ∧ (x.drive.enabled = true → up = true ∧ x.drive.fault.active = false) ∧
  (up = false → x.ctl.state.holdable = false)

/-- The motor law of both lanes (R123). -/
def State.motorLaw (s : State) : Prop := s.laneA.motorLawful s.link.up ∧ s.laneB.motorLawful s.link.up

/-! ### Record memory (R157 to R160) -/

/-- One for a held buffer. -/
def heldBuffer (b : Option Block) : Nat := if b.isSome then 1 else 0

/-- The buffers that a lane's assemblers hold (R157). -/
def Lane.held (x : Lane) : Nat := heldBuffer x.lineBlock + heldBuffer x.regionBlock

/-- The frame of the record whose transmission is under way (R180). -/
def Transmitter.recordFrame : Transmitter → Option (List Byte)
  | .idle => none
  | .sending .reply _ _ => none
  | .sending .record frame _ => some frame

/-- Every buffer is free, in the outbound queue, or held by an assembler; the record being sent stands at the front of the queue
(R157, R158). -/
abbrev State.buffersKept (s : State) : Prop :=
  s.pool.free + s.pool.queue.length + s.laneA.held + s.laneB.held = Config.bufferCount ∧
  (s.link.tx.recordFrame = none ∨ s.link.tx.recordFrame = s.pool.queue.head?.map fun k => frameOf k.payload)

/-- The levels lie in their ranges, and the pool state agrees with the free count (R159, R160). -/
abbrev State.poolSettled (s : State) : Prop :=
  17 ≤ s.pool.low ∧ s.pool.low ≤ 200 ∧ s.pool.low < s.pool.resume ∧ s.pool.resume ≤ 255 ∧
  (s.pool.tight = false → s.pool.low < s.pool.free) ∧ (s.pool.tight = true → s.pool.free < s.pool.resume)

/-! ### Engine, handler and queues -/

/-- A job of the handler's: SPAN or SOLVE, in a list of jobs (R56). -/
def solveJobs (jobs : List Job) : Nat := jobs.countP Job.isSolve

/-- The engine's SPAN or SOLVE job, if it runs one. -/
def Engine.solveJobs (e : Engine) : Nat :=
  match e.busy with
  | some k => if k.job.isSolve then 1 else 0
  | none => 0

/-- The SPAN and SOLVE jobs of the unit, queued or running. -/
def State.solveJobs (s : State) : Nat :=
  Sys2Proof.Machine.solveJobs s.laneA.jobs + Sys2Proof.Machine.solveJobs s.laneB.jobs + s.engine.solveJobs

/-- A request is in flight (R178). -/
def Handler.busy : Handler → Bool
  | .free => false
  | .working _ => true

/-- The job running is marked discarded (R81). -/
def Engine.discards (e : Engine) : Bool :=
  match e.busy with
  | some k => k.discarded
  | none => false

/-- The handler is WORKING exactly while one SPAN or SOLVE job is queued or running, and then the reply slot is empty; a
discarded job is a MEASURE job (R178, R81). -/
abbrev State.flightKept (s : State) : Prop :=
  s.solveJobs = (if s.link.handler.busy then 1 else 0) ∧ (s.link.handler.busy = true → s.link.slot = none) ∧
  (s.engine.discards = true → s.engine.solveJobs = 0)

/-- The engine is idle only while no job waits (R78). -/
abbrev State.engineWorks (s : State) : Prop := s.engine.busy = none → s.laneA.jobs = [] ∧ s.laneB.jobs = []

/-- A lane's job queue holds at most 4 jobs (R77). MEASURE jobs wait only from PULL to the end of FINISH's wait, and line capture is
armed only in PULL, held or not (R31, R37, R148). -/
def Lane.jobsLegal (x : Lane) : Prop :=
  x.jobs.length ≤ Config.jobQueueMax ∧
  (x.jobs.any Job.isMeasure = true → x.phaseOrHeld = .pull ∨ x.phaseOrHeld = .withdraw ∨ x.phaseOrHeld = .finish) ∧
  (x.capture.armed = true → x.phaseOrHeld = .pull) ∧
  ∀ t, x.ctl.tube = some t → t.located = true → x.ctl.state = .finish ∧ x.jobs.any Job.isMeasure = false

/-- The job queues of both lanes are legal. -/
def State.jobsLegal (s : State) : Prop := s.laneA.jobsLegal ∧ s.laneB.jobsLegal

/-- The tags of a lane's orders and of its current tube. -/
def Lane.tags (x : Lane) : List Nat := (x.tag.toList ++ x.ctl.worklist.map fun o => o.tag)

/-- A lane's worklist holds at most 32 orders, none sharing its tag with another or with the current tube (R139). -/
abbrev Lane.worklistLegal (x : Lane) : Prop := x.ctl.worklist.length ≤ Config.worklistMax ∧ x.tags.Nodup

/-- The worklists of both lanes and the request queue are legal (R139, R175). -/
abbrev State.queuesLegal (s : State) : Prop :=
  s.laneA.worklistLegal ∧ s.laneB.worklistLegal ∧ s.link.requests.length ≤ Config.requestQueueMax

/-! ### The line path -/

/-- Indices that fall by one from each line to the next (R30). -/
def consecutive : List CapLine → Bool
  | a :: b :: rest => decide (b.index = a.index - 1) && consecutive (b :: rest)
  | _ => true

/-- The assembly window holds at most four lines of consecutive indices, highest first (R30, R36). -/
abbrev Lane.windowLegal (x : Lane) : Prop := x.capture.window.length ≤ Config.windowMax ∧ consecutive x.capture.window = true

/-- Both assembly windows are legal. -/
abbrev State.windowsLegal (s : State) : Prop := s.laneA.windowLegal ∧ s.laneB.windowLegal

/-- An entry may stand before another: lower centre line, or the same and no higher channel (R107). -/
def CatEntry.notAfter (e k : CatEntry) : Prop := e.centre < k.centre ∨ (e.centre = k.centre ∧ e.channel ≤ k.channel)

/-- A catalogue in its order, of at most 64 entries whose join numbers are distinct and were all given out (R107 to R109). -/
def Tube.catalogueLegal (t : Tube) : Prop :=
  t.catalogue.length ≤ Config.catalogueMax ∧ t.catalogue.Pairwise CatEntry.notAfter ∧
  (t.catalogue.map fun e => e.join).Nodup ∧ ∀ e ∈ t.catalogue, e.join ≤ t.joins

/-- The catalogue of a lane's current tube is legal. -/
def Lane.catalogueLegal (x : Lane) : Prop := ∀ t, x.ctl.tube = some t → t.catalogueLegal

/-- The catalogues of both lanes are legal. -/
def State.cataloguesLegal (s : State) : Prop := s.laneA.catalogueLegal ∧ s.laneB.catalogueLegal

/-- The expected list: every entry before the pointer is decided, every entry from it on is PENDING; at most 16 candidates are
listed UNEXPECTED (R95, R98). -/
def Lane.landmarksLegal (x : Lane) : Prop :=
  (∀ e ∈ x.detector.expected.take x.detector.pointer, e.state = .matched ∨ e.state = .missed) ∧
  (∀ e ∈ x.detector.expected.drop x.detector.pointer, e.state = .pending) ∧
  x.detector.unexpected.length ≤ Config.unexpectedMax

/-- The landmark lists of both lanes are legal. -/
def State.landmarksLegal (s : State) : Prop := s.laneA.landmarksLegal ∧ s.laneB.landmarksLegal

/-- The raw position fits a signed 32-bit value (R22). -/
def Lane.positionFits (x : Lane) : Prop := ∀ r, x.pos.raw = some r → -2147483648 ≤ r ∧ r ≤ 2147483647

/-- The raw positions of both lanes fit. -/
def State.positionsFit (s : State) : Prop := s.laneA.positionFits ∧ s.laneB.positionFits

/-- Every table and store of a lane is of its size (R1, R2, R42, R43, R52, R65, R165). -/
abbrev Lane.sized (x : Lane) : Prop :=
  x.exc.freqs.length ≤ 4 ∧ x.exc.slots.length ≤ 16 ∧
  x.bases.length = 16 ∧ x.mixes.length = 4 ∧ x.screens.length = 20 ∧ x.store.length ≤ Config.storeMax ∧
  x.ring.length ≤ Config.ringMax

/-- Every table and store of the unit is of its size, the class table with 16 classes (R85). -/
abbrev State.sized (s : State) : Prop := s.laneA.sized ∧ s.laneB.sized ∧ s.layouts.length = 16

/-! ### The lane of a command -/

/-- The lane whose block an event names; none for an event of the unit and for a request. -/
def eventLane (i : Instr) : Option LaneId :=
  match i with
  | .powerOn => none
  | .rawLevelChange l _ _ => some l
  | .debouncedStateChange l _ => some l
  | .edge l _ => some l
  | .controlPeriodEnd l => some l
  | .stall l => some l
  | .switchEnd l => some l
  | .settleEnd l => some l
  | .slotEnd l _ => some l
  | .guidePoll l => some l
  | .turnDwellEnd l => some l
  | .takeOrder l => some l
  | .jobCompletion => none
  | .reportRecord l => some l
  | .frameReceived _ => none
  | .frameTimeout => none
  | .silenceTimeout => none
  | .transmissionEnd => none
  | .badKind => none
  | .status => none
  | .setLink => none
  | .setLayout => none
  | .setScan => none
  | .setChannel => none
  | .setMix => none
  | .setLandmark => none
  | .setMotion => none
  | .queueTube => none
  | .cancelTube => none
  | .abort => none
  | .hold => none
  | .resume => none
  | .retract => none
  | .laneReset => none
  | .spanCal => none
  | .solveMix => none
  | .syncWordFound _ => none
  | .frameLengthOutOfRange _ => none

/-- The kind byte of a request row (11.1); none for an event and for BAD_KIND. -/
def requestKind (i : Instr) : Option Nat :=
  match i with
  | .powerOn => none
  | .rawLevelChange _ _ _ => none
  | .debouncedStateChange _ _ => none
  | .edge _ _ => none
  | .controlPeriodEnd _ => none
  | .stall _ => none
  | .switchEnd _ => none
  | .settleEnd _ => none
  | .slotEnd _ _ => none
  | .guidePoll _ => none
  | .turnDwellEnd _ => none
  | .takeOrder _ => none
  | .jobCompletion => none
  | .reportRecord _ => none
  | .frameReceived _ => none
  | .frameTimeout => none
  | .silenceTimeout => none
  | .transmissionEnd => none
  | .badKind => none
  | .status => some 1
  | .setLink => some 2
  | .setLayout => some 3
  | .setScan => some 4
  | .setChannel => some 5
  | .setMix => some 6
  | .setLandmark => some 7
  | .setMotion => some 8
  | .queueTube => some 9
  | .cancelTube => some 10
  | .abort => some 11
  | .hold => some 12
  | .resume => some 13
  | .retract => some 14
  | .laneReset => some 15
  | .spanCal => some 16
  | .solveMix => some 17
  | .syncWordFound _ => none
  | .frameLengthOutOfRange _ => none

/-! ### Requests and replies -/

/-- The handler can take the frame with payload `p` now: it is FREE, the reply slot is empty, and `p` is at the front of the
request queue (R177). -/
abbrev State.takes (s : State) (p : List Byte) : Prop :=
  s.link.handler = .free ∧ s.link.slot = none ∧ s.link.requests.head? = some p

/-- The front frame asks for what the command's row names, of the given lane (11.1). -/
abbrev asks (c : Instr) (p : List Byte) (l : LaneId) : Prop := requestKind c = some (u8At p 0) ∧ laneOf p = some l

/-- The link after a request was taken and answered with nothing else said: the frame has left the queue, and the reply is on
the line where the transmitter was IDLE with the link UP, else in the slot (R177, R179, R180). -/
def Link.afterReply (k : Link) (now : Nat) (r : Reply) : Link :=
  if k.up = true ∧ k.tx = .idle then
    { k with requests := k.requests.tail, slot := none,
             tx := .sending .reply (frameOf r.payload) (now + 1000 * (r.payload.length + 8)) }
  else { k with requests := k.requests.tail, slot := some r }

/-- The state after a request that changes nothing but the link (R185). -/
def State.afterReply (s : State) (r : Reply) : State := { s with link := s.link.afterReply s.clock r }

/-- A request was taken and answered: the frame has left the queue, the handler is FREE, and the reply is in the slot or on the
line (R177, R179). -/
def State.answered (s t : State) (r : Reply) : Prop :=
  t.link.requests = s.link.requests.tail ∧ t.link.handler = .free ∧
  (t.link.slot = some r ∨ (t.link.slot = none ∧ ∃ due, t.link.tx = .sending .reply (frameOf r.payload) due))

/-- The bytes are the lane's request of a kind without fields (11.3). -/
abbrev plainRequest (c : Instr) (p : List Byte) (l : LaneId) : Prop := asks c p l ∧ p.length = 4

/-- The command is refused: nothing changes but the link, and the reply carries the code alone (R185). -/
def State.refuses (s : State) (c : Instr) (p : List Byte) (code : ReplyCode) : Prop :=
  exec c s = .next (s.afterReply (replyTo p code .empty))

/-! ### What the tables of requests call for (11.3, R188, R189) -/

/-- Where a DISPOSITION part stands behind the parts before it: `setAt` is the offset of the part set, `start` the offset behind the
fixed fields and a CALIBRATION part. -/
def dispositionOffset (p : List Byte) (setAt start : Nat) : Nat := start + (if bitAt p setAt 1 then 12 else 0)

/-- Where a CURVE part stands behind the parts before it. -/
def curveOffset (p : List Byte) (setAt start : Nat) : Nat := dispositionOffset p setAt start + (if bitAt p setAt 2 then 4 else 0)

/-- Where the present SCREENING, DISPOSITION and CURVE parts end. -/
def partsEnd (p : List Byte) (setAt start : Nat) : Nat :=
  curveOffset p setAt start + (if bitAt p setAt 3 then 4 + 4 * u8At p (curveOffset p setAt start) else 0)

/-- The length that a request's kind, counts and part set call for. -/
def lengthCalledFor (p : List Byte) : Nat :=
  match u8At p 0 with
  | 2 => 10
  | 3 => 20 + 4 * u8At p 5
  | 4 => 8 + 4 * u8At p 4 + 6 * u8At p 5
  | 5 => partsEnd p 5 (if bitAt p 5 0 then 16 else 8)
  | 6 => if u8At p 5 = 1 then partsEnd p 6 16 else 8
  | 7 => 24
  | 8 => 46
  | 9 => 16 + (if bitAt p 4 1 then 4 else 0) + (if bitAt p 4 2 then 8 else 0)
  | 10 => 8
  | 16 => 20
  | 17 => 16
  | _ => 4

/-- The present SCREENING, DISPOSITION and CURVE parts are in their ranges and consistent (R63, R64). -/
def partsGood (p : List Byte) (setAt start : Nat) : Prop :=
  (bitAt p setAt 1 = true →
    u8At p start ≤ 1 ∧ u8At p (start + 1) ≤ 1 ∧ 50 ≤ u16At p (start + 2) ∧ u16At p (start + 2) ≤ 30000 ∧
    25 ≤ u16At p (start + 4) ∧ u16At p (start + 4) ≤ u16At p (start + 2) ∧ 1 ≤ u8At p (start + 6) ∧ u8At p (start + 6) ≤ 4 ∧
    1 ≤ u8At p (start + 7) ∧ u8At p (start + 7) ≤ 8 ∧ 2 ≤ u8At p (start + 8) ∧ u8At p (start + 8) ≤ 10) ∧
  (bitAt p setAt 2 = true → u8At p (dispositionOffset p setAt start) ≤ 2) ∧
  (bitAt p setAt 3 = true →
    ∀ i : Nat, i = curveOffset p setAt start → ∀ n : Nat, n = u8At p i → n ≠ 0 →
      2 ≤ n ∧ n ≤ 8 ∧
      (∀ j < n, u16At p (i + 4 + 4 * j) ≤ 1800 ∧ 1 ≤ u8At p (i + 6 + 4 * j) ∧ u8At p (i + 6 + 4 * j) ≤ 100) ∧
      ∀ j < n - 1,
        u16At p (i + 4 + 4 * (j + 1)) < u16At p (i + 4 + 4 * j) ∧ u8At p (i + 6 + 4 * j) < u8At p (i + 6 + 4 * (j + 1)))

/-- The lines hi and lo of a SPAN_CAL or SOLVE_MIX span 2 to 256 lines (R55). -/
abbrev spanGood (hi lo : Int) : Prop := lo < hi ∧ 2 ≤ hi - lo + 1 ∧ hi - lo + 1 ≤ 256

/-- The fields of a request lie in the ranges of the rule that owns it, as far as its payload alone shows: R181 (SET_LINK), R86
(SET_LAYOUT, but for its class), R16 (SET_SCAN), R48 (SET_CHANNEL), R50 (SET_MIX), R88 (SET_LANDMARK), R133 (SET_MOTION), R137
(QUEUE_TUBE), R55 (SPAN_CAL), R59 (SOLVE_MIX). Deduced: a class 1 to 16 leaves an order's length unread (log entry 19). -/
def fieldsGood (p : List Byte) : Prop :=
  match u8At p 0 with
  | 2 => 200 ≤ u16At p 4 ∧ u16At p 4 ≤ 10000 ∧ 17 ≤ u8At p 7 ∧ u8At p 7 ≤ 200 ∧ u8At p 7 < u8At p 8 ∧ u8At p 8 ≤ 255
  | 3 =>
    1000000 ≤ u32At p 8 ∧ u32At p 8 ≤ 30000000 ∧ 10000 ≤ u32At p 12 ∧ u32At p 12 ≤ 100000 ∧ 10000 ≤ u32At p 16 ∧
    u32At p 16 ≤ 100000 ∧ u8At p 5 ≤ 24 ∧
    (∀ j < u8At p 5, u32At p 12 < u32At p (20 + 4 * j) ∧ u32At p (20 + 4 * j) + u32At p 16 < u32At p 8) ∧
    ∀ j < u8At p 5 - 1, u32At p (20 + 4 * j) < u32At p (20 + 4 * (j + 1))
  | 4 =>
    u8At p 4 ≤ 4 ∧ u8At p 5 ≤ 16 ∧ (∀ j < u8At p 4, 2000 ≤ u32At p (8 + 4 * j) ∧ u32At p (8 + 4 * j) ≤ 1000000) ∧
    (u8At p 5 ≠ 0 → u8At p 4 ≠ 0) ∧
    ∀ j < u8At p 5, ∀ i : Nat, i = 8 + 4 * u8At p 4 + 6 * j →
      u8At p i ≤ 7 ∧ u8At p (i + 1) < u8At p 4 ∧ 1 ≤ u8At p (i + 2) ∧ u8At p (i + 2) ≤ 8 ∧ u8At p (i + 3) ≤ 5 ∧
      1 ≤ u8At p (i + 4) ∧ u8At p (i + 4) ≤ 16 ∧ 4 ≤ u8At p (i + 5) ∧ u8At p (i + 5) ≤ 64
  | 5 =>
    u8At p 4 ≤ 15 ∧ (bitAt p 5 0 = true → s16At p 8 ≠ -32768 ∧ s16At p 10 ≠ -32768) ∧
    partsGood p 5 (if bitAt p 5 0 then 16 else 8)
  | 6 =>
    16 ≤ u8At p 4 ∧ u8At p 4 ≤ 19 ∧
    (u8At p 5 = 0 ∨
      u8At p 5 = 1 ∧ u8At p 8 ≤ 15 ∧ u8At p 9 ≤ 15 ∧ u8At p 8 ≠ u8At p 9 ∧ partsGood p 6 16)
  | 7 =>
    (u8At p 4 ≤ 19 ∨ u8At p 4 = 255) ∧ 1 ≤ u16At p 6 ∧ u16At p 6 ≤ u16At p 8 ∧ u16At p 8 ≤ 200 ∧ 2 ≤ u16At p 10 ∧
    u16At p 10 ≤ 400 ∧ u16At p 8 < u16At p 10 ∧ s16At p 12 ≠ -32768 ∧ s16At p 14 ≠ -32768 ∧ 100 ≤ u16At p 16 ∧
    u16At p 16 ≤ 60000 ∧ 1000 ≤ u32At p 20 ∧ u32At p 20 ≤ 100000
  | 8 =>
    1 ≤ u16At p 4 ∧ u16At p 4 ≤ 500 ∧ 50 ≤ u16At p 6 ∧ u16At p 6 ≤ 20000 ∧ 10 ≤ u16At p 8 ∧ u16At p 8 ≤ 3000 ∧
    10 ≤ u16At p 10 ∧ u16At p 10 ≤ 2000 ∧ 10 ≤ u16At p 12 ∧ u16At p 12 ≤ 3000 ∧ u16At p 14 ≤ 1000 ∧ 100 ≤ u16At p 16 ∧
    u16At p 16 ≤ 1000 ∧ u16At p 14 ≤ u16At p 16 ∧ 1 ≤ u8At p 18 ∧ u8At p 18 ≤ 255 ∧ 500 ≤ u16At p 20 ∧ u16At p 20 ≤ 20000 ∧
    100 ≤ u16At p 22 ∧ u16At p 22 ≤ 5000 ∧ 2 ≤ u8At p 24 ∧ u8At p 24 ≤ 100 ∧ 50000 ≤ u32At p 26 ∧ u32At p 26 ≤ 2000000 ∧
    5000 ≤ u32At p 30 ∧ u32At p 30 ≤ 500000 ∧ u32At p 34 ≤ 500000 ∧ 10 ≤ u16At p 38 ∧ u16At p 38 ≤ 1000 ∧
    1 ≤ u16At p 40 ∧ u16At p 40 ≤ 3000 ∧ u16At p 42 ≤ 2000
  | 9 =>
    1 ≤ u32At p 12 ∧ 1 ≤ u16At p 6 ∧ u16At p 6 ≤ 999 ∧ 1 ≤ u16At p 8 ∧ u16At p 8 ≤ 999 ∧ u8At p 5 ≤ 16 ∧
    (u8At p 5 = 0 → bitAt p 4 1 = true ∧ 1000000 ≤ u32At p 16 ∧ u32At p 16 ≤ 30000000) ∧
    (bitAt p 4 2 = true →
      ∀ i : Nat, i = (if bitAt p 4 1 then 20 else 16) → u32At p i ≤ 30000000 ∧ u32At p (i + 4) < u32At p i)
  | 16 =>
    100 ≤ u16At p 6 ∧ u16At p 6 ≤ 30000 ∧ u16At p 8 ≤ 3599 ∧ spanGood (s32At p 12) (s32At p 16)
  | 17 => spanGood (s32At p 8) (s32At p 12)
  | _ => True

/-- The channel of a SPAN_CAL is an active base channel (R55); that of a SOLVE_MIX is a defined mix with both sources active (R59). -/
def Lane.solves (x : Lane) (p : List Byte) : Prop :=
  if u8At p 0 = 16 then u8At p 4 ≤ 15 ∧ u8At p 4 < x.exc.slots.length
  else
    16 ≤ u8At p 4 ∧ u8At p 4 ≤ 19 ∧
    ∃ d : MixDef,
      (x.mix (u8At p 4)).defn = some d ∧ d.p < 16 ∧ d.p < x.exc.slots.length ∧ d.q < 16 ∧ d.q < x.exc.slots.length

/-! ### Notices -/

/-- A notice is formed: with a free buffer it joins the outbound queue behind every record there, before the pool's own notices;
without one it is dropped and counted (R170). That it precedes the notices that its own buffer causes is the model's choice (log
entry 12). -/
def State.formed (s t : State) (n : Notice) : Prop :=
  if s.pool.free = 0 then t.pool = { s.pool with dropped := if s.pool.dropped < 4294967295 then s.pool.dropped + 1 else s.pool.dropped }
  else ∃ more, t.pool.queue = s.pool.queue ++ .notice n :: more

/-- A lane notice is emitted: formed where the event mask has its bit set, else nothing comes of it (R170, R182). -/
def State.noticed (s t : State) (l : LaneId) (kind : NoticeKind) (bit : Nat) (tag : Option Nat) (cause : Option FaultCause) :
    Prop :=
  if s.link.mask.getLsbD bit = true then s.formed t { kind := kind, lane := some l, tag := tag, cause := cause }
  else t.pool = s.pool

/-! ### The engine and the landmark detector -/

/-- The engine, free after a completion, took the next job of `s`: the front job of the only lane that waits, or of two the one not
served last, for its running time; it is idle where none waits (R78, R79). -/
def State.tookNext (s t : State) : Prop :=
  (s.laneA.jobs = [] → s.laneB.jobs = [] →
    t.engine = { busy := none, servedLast := s.engine.servedLast } ∧ t.laneA.jobs = [] ∧ t.laneB.jobs = []) ∧
  ∀ l : LaneId, (s.lane l).jobs ≠ [] → ((s.lane (otherLane l)).jobs = [] ∨ s.engine.servedLast = otherLane l) →
    ∃ (j : Job) (rest : List Job),
      (s.lane l).jobs = j :: rest ∧ (t.lane l).jobs = rest ∧
      (t.lane (otherLane l)).jobs = (s.lane (otherLane l)).jobs ∧
      t.engine =
        { busy := some { lane := l, job := j, discarded := false, doneAt := t.clock + j.runningTime }, servedLast := l }

/-- What a run decides as it ends, with the line whose index times the pitch is the candidate's raw position (R92, R93). -/
def LandmarkRun.ending (r : LandmarkRun) (k : LandmarkSettings) : Option (CandidateKind × Int) :=
  if r.decided = true then none
  else if r.onFirst = true ∧ k.tsMin ≤ r.len then some (.sheet, r.first - (r.len : Int) + 1)
  else if k.spMin ≤ r.len ∧ r.len ≤ k.spMax then some (.support, Int.fdiv (2 * r.first - (r.len : Int) + 1) 2)
  else none

/-- The lane after a decided candidate went to matching: the detector is what matching makes of it, and the tube is flagged (R96,
R97). -/
def Lane.decided (x : Lane) (cand : Option (CandidateKind × Int)) : Lane :=
  match cand with
  | none => x
  | some (kind, line) =>
    let r := x.detector.matchCandidate x.landmark.tolerance kind (line * (x.pitch : Int))
    { x with
      detector := r.1,
      ctl :=
        { x.ctl with
          tube :=
            x.ctl.tube.map fun u =>
              { u with
                flags :=
                  { u.flags with
                    lmMissed := u.flags.lmMissed || r.2.1, lmUnexpected := u.flags.lmUnexpected || r.2.2 } } } }

/-! ### The encoder -/

/-- The next phase state in forward order (R20). -/
def forwardOf : EncPhase → EncPhase
  | ⟨false, false⟩ => ⟨true, false⟩
  | ⟨true, false⟩ => ⟨true, true⟩
  | ⟨true, true⟩ => ⟨false, true⟩
  | ⟨false, true⟩ => ⟨false, false⟩

/-- A raw position, in µm, fits a signed 32-bit value (R22). -/
abbrev fitsS32 (r : Int) : Prop := -2147483648 ≤ r ∧ r ≤ 2147483647

/-- An input whose time stood has reached the debounce time, in ms, follows its raw level; another is as it was (R119). -/
def Input.followed (v : Input) (debounce now : Nat) : Input :=
  if v.since + debounce * 1000000 ≤ now then { v with active := v.raw } else v

/-- The motor is DISABLED as a stop leaves it (R124). -/
abbrev Drive.stopped (d : Drive) : Prop :=
  d.enabled = false ∧ d.brake = .engaged ∧ d.duty = 0 ∧ d.phase = .none ∧ d.window = none

/-- The motor runs as a motion start leaves it (R122). -/
def Lane.motorStarted (x : Lane) (p : MotionPhase) (dir : DriveDir) : Prop :=
  x.drive.enabled = true ∧ x.drive.brake = .released ∧ x.drive.duty = x.motion.startDuty ∧ x.drive.dir = dir ∧ x.drive.phase = p ∧
  x.drive.window = some { start := x.pos.raw, periods := 0 }

/-- Line capture, screening, the assemblers and the detector after the end of a pull (R37, R73, R94, R97, R168). -/
def Lane.pullClosed (x : Lane) : Prop :=
  x.capture = { armed := false, window := [] } ∧ x.pos.armedA = false ∧ x.pos.armedB = false ∧ x.lineBlock = none ∧
  x.regionBlock = none ∧ x.ring = [] ∧ x.roi = none ∧ x.detector.run = none ∧ x.detector.expected.length ≤ x.detector.pointer ∧
  ∀ ch < 20, x.screened ch = true → (x.screens.getD ch Screen.reset).phase = .quiet

/-- The end of a pull up to its notice, in the order of R146: line capture's flush, the detector's end-of-pull signal, screening's,
the assemblers'. -/
def State.pullEnding (s : State) (l : LaneId) : State :=
  (((s.flush l).setLane l ((s.flush l).lane l).landmarkEnd).screenEnd l).assemblersEnd l

/-- From `s`, the pull of lane `l` has ended and PULL_ENDED is emitted behind everything the steps before it queued (R146, R168). -/
def State.pullEnded (s : State) (l : LaneId) (q : State) : Prop :=
  (s.pullEnding l).noticed q l .pullEnded 2 (s.lane l).tag none ∧ (s.pullEnding l).sameLanes q ∧
  q.layouts = (s.pullEnding l).layouts ∧ q.engine = (s.pullEnding l).engine ∧ q.clock = s.clock ∧ q.pending = s.pending

/-- Every landmark from the pointer on is decided MISSED, and nothing else of the detector changes (R97). -/
def Detector.missedRest (d e : Detector) : Prop :=
  e = { d with expected := e.expected, pointer := max d.pointer d.expected.length } ∧ e.expected.length = d.expected.length ∧
  ∀ i, e.expected[i]? = if i < d.pointer then d.expected[i]? else d.expected[i]?.map fun k => { k with state := .missed }

/-- The lane in FINISH after an event that ended its pull or phase: stops disarmed, timers off, the tube with the given outcome, if
none was decided, and fault mark, if none was set (R148, R141, R150). -/
def Lane.finishing (x : Lane) (o : TubeOutcome) (c : FaultCause) : Lane :=
  { x with
    pos := { x.pos with armedA := false, armedB := false, wholePull := false },
    ctl :=
      { x.ctl with
        state := .finish, heldPhase := none, poll := .off, dwell := .off,
        tube := x.ctl.tube.map fun u => { u with outcome := some (u.outcome.getD o), fault := some (u.fault.getD c) } } }

/-- The lane in WITHDRAW after its pull ended: stops disarmed, timers off, the motor ENABLED in reverse with the given duty and a
fresh stall window, the tube with the given outcome, if none was decided (R122, R125, R146). -/
def Lane.withdrawing (x : Lane) (duty : Nat) (o : TubeOutcome) : Lane :=
  { x with
    drive :=
      { x.drive with
        enabled := true, brake := .released, duty := duty, dir := .reverse, phase := .withdraw,
        window := some { start := x.pos.raw, periods := 0 } },
    pos := { x.pos with armedA := false, armedB := false, wholePull := false },
    ctl :=
      { x.ctl with
        state := .withdraw, heldPhase := none, poll := .off, dwell := .off,
        tube := x.ctl.tube.map fun u => { u with outcome := some (u.outcome.getD o) } } }

end Sys2Proof.Machine
end

