-- ==== Sys2Proof/Certificates/Slice0/Obligations.lean ====
section
/-! DEFINITION. The statements for the provers. -/

section Claims

open Sys2Proof Sys2Proof.Machine

/-! ### The step, reset and power-on -/

/-- A step of a state with command `c` at the front of its queue is `exec c` on the state with the queue's rest. -/
def Obligations.StepTakesTheFrontCommand : Prop :=
  ∀ (s : State) (c : Instr) (rest : List Instr), s.pending = c :: rest → step s = exec c (s.withPending rest)

/-- R172: record memory and the assemblers after power-on. The lost-line count and the DATA_GAP flag are those of no tube, 0 and
clear. -/
def Obligations.RecordMemoryAtReset : Prop :=
  State.reset.pool.free = 256 ∧ State.reset.pool.queue = [] ∧ State.reset.pool.tight = false ∧ State.reset.pool.low = 48 ∧
  State.reset.pool.resume = 96 ∧ State.reset.pool.dropped = 0 ∧
  ∀ l : LaneId,
    (State.reset.lane l).lineBlock = none ∧ (State.reset.lane l).regionBlock = none ∧ (State.reset.lane l).ring = [] ∧
    (∀ ch, (State.reset.lane l).active ch = false) ∧ (∀ k, (State.reset.lane l).mask k = []) ∧
    (State.reset.lane l).ctl.tube = none ∧ ((State.reset.lane l).ctl.tube.map fun u => u.lost).getD 0 = 0 ∧
    ((State.reset.lane l).ctl.tube.map fun u => u.flags.dataGap).getD false = false

/-- POWER_ON gives every block its power-on state (R19, R40, R41, R62, R84, R102, R117, R135, R156, R172, R186). Model's choice: that both
lanes' first control period begins at power-on and ends at 10 ms, which no rule says (log entry 16); and that the encoder and the inputs
show after it what they showed before, and commands that wait still wait (log entry 23). -/
def Obligations.PowerOnResetsEveryBlock : Prop :=
  ∀ s : State, ∃ t : State,
    exec .powerOn s = .next t ∧ t.pending = s.pending ∧ t.clock = 0 ∧ t.layouts = List.replicate 16 none ∧
    t.engine = { busy := none, servedLast := .b } ∧
    t.pool = { free := 256, queue := [], tight := false, low := 48, resume := 96, dropped := 0 } ∧
    t.link =
      { rx := .hunting false, lastByte := 0, requests := [], handler := .free, slot := none, tx := .idle, up := false,
        silenceDue := none, silence := 2000, mask := 0x7F, bad := 0, overflowed := 0 } ∧
    ∀ l : LaneId,
      (t.lane l).exc = { freqs := [], slots := [], run := none } ∧
      (t.lane l).pos =
        { count := 0, phase := (s.lane l).pos.phase, scale := none, errors := 0, armedA := false, armedB := false, refPos := 0,
          speed := 0, direction := .still, wholePull := false, periodEnd := 10000000 } ∧
      (t.lane l).capture = { armed := false, window := [] } ∧ (t.lane l).bases = List.replicate 16 BaseChannel.reset ∧
      (t.lane l).mixes = List.replicate 4 MixChannel.reset ∧ (t.lane l).store = [] ∧
      (t.lane l).screens = List.replicate 20 Screen.reset ∧ (t.lane l).roi = none ∧ (t.lane l).jobs = [] ∧
      (t.lane l).landmark = LandmarkSettings.reset ∧ (t.lane l).detector = Detector.reset ∧ (t.lane l).motion = Motion.reset ∧
      (t.lane l).lineBlock = none ∧ (t.lane l).regionBlock = none ∧ (t.lane l).ring = [] ∧ (t.lane l).drive.stopped ∧
      (t.lane l).drive.dir = .forward ∧ (t.lane l).drive.guide = { raw := (s.lane l).drive.guide.raw, active := false, since := 0 } ∧
      (t.lane l).drive.home = { raw := (s.lane l).drive.home.raw, active := false, since := 0 } ∧
      (t.lane l).drive.fault = { raw := (s.lane l).drive.fault.raw, active := true, since := 0 } ∧
      (t.lane l).ctl =
        { state := .idle, heldPhase := none, returnTo := none, worklist := [], rearm := true, poll := .off, attempts := 0,
          dwell := .off, tube := none }

/-! ### Invariants that every step keeps -/

/-- R121, R123, R124, R26, R151: the motor law of both lanes is kept by every step, from every state that obeys it. Model's choice:
that a lane whose RESUME, RETRACT or ABORT is carried out while the link is LOST is HELD at the end of the step (log entry 10). -/
def Obligations.EveryStepKeepsTheMotorLaw : Prop :=
  ∀ s t : State, s.motorLaw → step s = .next t → t.motorLaw

/-- R157, R158: the buffers free, queued and held always total 256, and the record being sent is the front one of the queue. -/
def Obligations.EveryStepKeepsTheBuffers : Prop :=
  ∀ s t : State, s.buffersKept → step s = .next t → t.buffersKept

/-- R159, R160: between steps an EASY pool has more free buffers than the low-water level and a TIGHT one fewer than the resume
level, and the levels stay in their ranges, 17 to 200 and above the low-water level to 255. -/
def Obligations.EveryStepSettlesThePool : Prop :=
  ∀ s t : State, s.poolSettled → step s = .next t → t.poolSettled

/-- R78, R178, R81, R77: the handler works exactly while one SPAN or SOLVE job is queued or running, its slot then being empty; no
SPAN or SOLVE job is ever discarded; the engine is idle only while no job waits. With the motor law, each lane's job queue holds at
most 4 jobs, and MEASURE jobs wait only from PULL to the end of FINISH's wait. -/
def Obligations.EveryStepKeepsTheFlightAndTheEngine : Prop :=
  ∀ s t : State, s.flightKept → s.engineWorks → step s = .next t →
    t.flightKept ∧ t.engineWorks ∧ (s.motorLaw → s.jobsLegal → t.jobsLegal)

/-- R139, R175: at most 32 orders with distinct tags in a lane, the current tube's among them, and at most 4 requests. -/
def Obligations.EveryStepKeepsTheQueues : Prop :=
  ∀ s t : State, s.queuesLegal → step s = .next t → t.queuesLegal

/-- R30, R36: the assembly window holds at most four lines of consecutive indices. -/
def Obligations.EveryStepKeepsTheWindows : Prop :=
  ∀ s t : State, s.windowsLegal → step s = .next t → t.windowsLegal

/-- R107 to R109: the catalogue stays in order, within 64 entries, with distinct join numbers. -/
def Obligations.EveryStepKeepsTheCatalogues : Prop :=
  ∀ s t : State, s.cataloguesLegal → step s = .next t → t.cataloguesLegal

/-- R95 to R98: the pointer of the expected list parts the decided entries from the PENDING ones. -/
def Obligations.EveryStepKeepsTheLandmarks : Prop :=
  ∀ s t : State, s.landmarksLegal → step s = .next t → t.landmarksLegal

/-- R22, R1, R2, R42, R43, R52, R65, R85, R165: the raw position fits a signed 32-bit value. The frequency and scan tables, the
base and mix channels, the screen states, the calibration store, the history ring and the class table keep within their sizes. -/
def Obligations.EveryStepKeepsPositionsAndSizes : Prop :=
  ∀ s t : State, s.positionsFit → s.sized → step s = .next t → t.positionsFit ∧ t.sized

/-- The state after reset has every one of these properties. -/
def Obligations.ResetHasEveryInvariant : Prop :=
  State.reset.motorLaw ∧ State.reset.buffersKept ∧ State.reset.poolSettled ∧ State.reset.flightKept ∧ State.reset.engineWorks ∧
  State.reset.jobsLegal ∧ State.reset.queuesLegal ∧ State.reset.windowsLegal ∧ State.reset.cataloguesLegal ∧ State.reset.landmarksLegal ∧
  State.reset.positionsFit ∧ State.reset.sized

/-! ### Isolation of the lanes -/

/-- An event of one lane changes nothing of the other lane, of the layouts, or of the link but its reply slot and
transmitter. -/
def Obligations.EventsKeepToTheirLane : Prop :=
  ∀ (s t : State) (c : Instr) (l : LaneId),
    eventLane c = some l → exec c s = .next t →
      s.sameOther l t ∧ t.layouts = s.layouts ∧ t.pending = s.pending ∧
      t.link = { s.link with slot := t.link.slot, tx := t.link.tx }

/-- A request to a lane changes nothing of the other lane, of the layouts, or of the link but its request queue, handler, reply
slot and transmitter. -/
def Obligations.RequestsKeepToTheirLane : Prop :=
  ∀ (s t : State) (c : Instr) (p : List Byte) (l : LaneId),
    s.takes p → asks c p l → 4 ≤ u8At p 0 → exec c s = .next t →
      s.sameBeyond l t ∧
      t.link =
        { s.link with requests := t.link.requests, handler := t.link.handler, slot := t.link.slot, tx := t.link.tx }

/-! ### The station line -/

/-- R173, R174, R175: a frame formed as the unit forms its own (sync word, length, payload, CRC) is received whole by a receiver
that hunts, a first sync byte just seen or not: its payload joins the request queue, or is discarded and counted where 4 frames
wait; the silence timer is reloaded. -/
def Obligations.FramesSentAreFramesReceived : Prop :=
  ∀ (s : State) (payload : List Byte) (seen : Bool),
    s.link.rx = .hunting seen → s.link.up = true → 4 ≤ payload.length → payload.length ≤ 2040 →
      exec (.frameReceived (frameOf payload)) s =
        .next
          { s with link :=
              { s.link with
                rx := .hunting false, lastByte := s.clock, silenceDue := some (s.clock + s.link.silence * 1000000),
                requests := if s.link.requests.length < 4 then s.link.requests ++ [payload] else s.link.requests,
                overflowed :=
                  if s.link.requests.length < 4 then s.link.overflowed
                  else if s.link.overflowed < 4294967295 then s.link.overflowed + 1 else s.link.overflowed } }

/-- R173, R174: the receiver finds a sync word behind whatever stands before it; a length outside 4..2040, a CRC other than the
one computed and a gap of 1 ms each count one bad frame and change nothing else. -/
def Obligations.TheReceiverHuntsAndJudges : Prop :=
  (∀ (s : State) (bytes : List Byte),
    s.link.rx = .hunting false → endsInSync bytes = true →
      exec (.syncWordFound bytes) s = .next { s with link := { s.link with rx := .inFrame [], lastByte := s.clock } }) ∧
  (∀ (s : State) (lo hi : Byte),
    s.link.rx = .inFrame [] → (lengthField lo hi < 4 ∨ 2040 < lengthField lo hi) →
      exec (.frameLengthOutOfRange [lo, hi]) s =
        .next
          { s with link :=
              { s.link with
                rx := .hunting false, lastByte := s.clock,
                bad := if s.link.bad < 4294967295 then s.link.bad + 1 else s.link.bad } }) ∧
  (∀ (s : State) (payload check : List Byte),
    s.link.rx = .inFrame [] → 4 ≤ payload.length → payload.length ≤ 2040 → check.length = 4 →
      check ≠ leBytes 4 (crc32 (leBytes 2 payload.length ++ payload)).toNat →
      exec (.frameReceived (leBytes 2 payload.length ++ payload ++ check)) s =
        .next
          { s with link :=
              { s.link with
                rx := .hunting false, lastByte := s.clock,
                bad := if s.link.bad < 4294967295 then s.link.bad + 1 else s.link.bad } }) ∧
  (∀ (s : State) (got : List Byte),
    s.link.rx = .inFrame got →
      exec .frameTimeout s =
        .next
          { s with
            clock := max s.clock (s.link.lastByte + 1000000),
            link :=
              { s.link with
                rx := .hunting false, bad := if s.link.bad < 4294967295 then s.link.bad + 1 else s.link.bad } })

/-- R175, R170, R180: a good frame on a LOST link makes it UP and forms LINK_UP, whatever the event mask, also where a full request
queue discards the frame; where nothing waits, LINK_UP is the record the unit then sends. Model's choice: LINK_UP precedes the pool
notice that its buffer causes (log entry 12). -/
def Obligations.AGoodFrameBringsTheLinkUp : Prop :=
  ∀ (s : State) (payload : List Byte) (seen : Bool),
    s.link.rx = .hunting seen → s.link.up = false → 4 ≤ payload.length → payload.length ≤ 2040 →
      ∃ t : State,
        exec (.frameReceived (frameOf payload)) s = .next t ∧ t.link.up = true ∧
        t.link.silenceDue = some (s.clock + s.link.silence * 1000000) ∧
        t.link.requests = (if s.link.requests.length < 4 then s.link.requests ++ [payload] else s.link.requests) ∧
        t.link.overflowed =
          (if s.link.requests.length < 4 then s.link.overflowed
          else if s.link.overflowed < 4294967295 then s.link.overflowed + 1 else s.link.overflowed) ∧
        s.formed t { kind := .linkUp, lane := none, tag := none, cause := none } ∧ s.sameLanes t ∧
        (s.link.tx = .idle → s.link.slot = none → s.pool.queue = [] → 0 < s.pool.free →
          t.link.tx =
            .sending .record
              (frameOf (Record.notice { kind := .linkUp, lane := none, tag := none, cause := none }).payload)
              (s.clock + 20000))

/-- R176, R151: when the silence timer expires, the link is LOST and the timer stopped. Each lane that can be held is HELD with its phase
remembered, its motor stopped, its timers frozen, HOLD_OCCURRED in its tube record and the notice HELD; nothing else of it changes, and
every other lane is as it was. Model's choice: Lane A is held before Lane B (log entry 25), and HELD precedes the pool notice that its
buffer causes (log entry 12). -/
def Obligations.SilenceHoldsBothLanes : Prop :=
  ∀ (s : State) (due : Nat),
    s.link.up = true → s.link.silenceDue = some due →
      ∃ t m : State,
        exec .silenceTimeout s = .next t ∧ t.link.up = false ∧ t.link.silenceDue = none ∧ t.clock = max s.clock due ∧
        t.layouts = s.layouts ∧ t.engine = s.engine ∧ t.pending = s.pending ∧
        (∀ l : LaneId,
          t.lane l =
            (if (s.lane l).ctl.state.holdable = true then
              { s.lane l with
                drive :=
                  { (s.lane l).drive with enabled := false, brake := .engaged, duty := 0, phase := .none, window := none },
                pos := { (s.lane l).pos with wholePull := false },
                ctl :=
                  { (s.lane l).ctl with
                    state := .held, heldPhase := some (s.lane l).ctl.state,
                    poll := (s.lane l).ctl.poll.freeze (max s.clock due),
                    dwell := (s.lane l).ctl.dwell.freeze (max s.clock due),
                    tube := (s.lane l).ctl.tube.map fun u => { u with flags := { u.flags with holdOccurred := true } } } }
            else s.lane l)) ∧
        m.link.mask = s.link.mask ∧
        (if s.laneA.ctl.state.holdable = true then s.noticed m .a .held 3 s.laneA.tag none else m.pool = s.pool) ∧
        (if s.laneB.ctl.state.holdable = true then m.noticed t .b .held 3 s.laneB.tag none else t.pool = m.pool)

/-- R180, R158, R159: at the end of a transmission a reply's copy is dropped, or a record leaves the queue and its buffer returns, the
link being UP or LOST; the return makes a TIGHT pool EASY at the resume level, with POOL_EASY, and TIGHT again where the notice's own
buffer brings it to the low-water level. Then, while the link is UP, the reply in the slot goes next, else the front record, else
nothing; while it is LOST the transmitter is IDLE. Model's choice: the notice joins the queue before its own buffer is counted and
tested (log entry 12), and in a state whose levels are out of order R159's two tests follow one another (log entry 28). -/
def Obligations.TransmissionsEndAndFollow : Prop :=
  ∀ (s : State) (frame : List Byte) (due : Nat) (what : Sending),
    s.link.tx = .sending what frame due →
      ∃ t : State,
        exec .transmissionEnd s = .next t ∧ t.clock = max s.clock due ∧ s.sameLanes t ∧ t.layouts = s.layouts ∧
        t.engine = s.engine ∧ t.pending = s.pending ∧
        (what = .reply → t.pool = s.pool) ∧
        (what = .record →
          (s.pool.tight = true → s.pool.free + 1 < s.pool.resume →
            t.pool = { s.pool with queue := s.pool.queue.tail, free := s.pool.free + 1 }) ∧
          (s.pool.tight = false → s.pool.low ≤ s.pool.free →
            t.pool = { s.pool with queue := s.pool.queue.tail, free := s.pool.free + 1 }) ∧
          (s.pool.tight = true → s.pool.resume ≤ s.pool.free + 1 → s.pool.low < s.pool.free →
            t.pool =
              { s.pool with tight := false, queue := s.pool.queue.tail ++ [.notice (unitNotice .poolEasy)] }) ∧
          (s.pool.tight = true → s.pool.resume ≤ s.pool.free + 1 → s.pool.free ≤ s.pool.low → 0 < s.pool.free →
            t.pool =
              { s.pool with
                queue := s.pool.queue.tail ++ [.notice (unitNotice .poolEasy), .notice (unitNotice .poolTight)],
                free := s.pool.free - 1 }) ∧
          (s.pool.tight = false → s.pool.free < s.pool.low →
            t.pool =
              { s.pool with tight := true, queue := s.pool.queue.tail ++ [.notice (unitNotice .poolTight)] })) ∧
        t.link =
          (match s.link.up, s.link.slot, t.pool.queue with
          | true, some r, _ =>
            { s.link with
              slot := none, tx := .sending .reply (frameOf r.payload) (max s.clock due + 1000 * (r.payload.length + 8)) }
          | true, none, next :: _ =>
            { s.link with
              tx := .sending .record (frameOf next.payload) (max s.clock due + 1000 * (next.payload.length + 8)) }
          | true, none, [] => { s.link with tx := .idle }
          | false, _, _ => { s.link with tx := .idle })

/-! ### Requests -/

/-- R177, R185, R188 and the owning rules: every refusal and its code. BAD_KIND and BAD_LANE come first; then the setup state (BUSY) and
the length (BAD_LENGTH), in a request to the unit or to a lane in whatever state the length alone; then the fields (BAD_FIELD), each in
the range of its table; for SET_LAYOUT the class, BUSY for a class in use, and the other fields; for QUEUE_TUBE NOT_READY, the fields, the
class and the stops, FULL and DUPLICATE; for SPAN_CAL and SOLVE_MIX the channel and the span, then NO_DATA; for ABORT, HOLD, RESUME and
RETRACT the state (STATE). A refused request changes nothing: its frame has left the queue and its reply carries the code alone. Deduced:
the length of an order with a class 1 to 16 is not checked (log entry 19). -/
def Obligations.RefusedRequestsChangeNothing : Prop :=
  (∀ (s : State) (p : List Byte),
    s.takes p → (u8At p 0 < 1 ∨ 0x11 < u8At p 0) → s.refuses .badKind p .badKind) ∧
  (∀ (s : State) (p : List Byte) (c : Instr),
    s.takes p → requestKind c = some (u8At p 0) →
      (4 ≤ u8At p 0 → 1 < u8At p 1 → s.refuses c p .badLane) ∧
      (u8At p 0 < 4 → u8At p 1 ≠ 255 → s.refuses c p .badLane) ∧
      (u8At p 0 < 4 → u8At p 1 = 255 → p.length ≠ lengthCalledFor p → s.refuses c p .badLength)) ∧
  (∀ (s : State) (p : List Byte) (c : Instr) (l : LaneId),
    s.takes p → asks c p l → u8At p 0 ∈ [4, 5, 6, 7, 8, 0x10, 0x11] →
      ((s.lane l).ctl.state ≠ .idle → (s.lane l).ctl.state ≠ .faulted → s.refuses c p .busy) ∧
      ((s.lane l).ctl.state = .idle ∨ (s.lane l).ctl.state = .faulted →
        (p.length ≠ lengthCalledFor p → s.refuses c p .badLength) ∧
        (p.length = lengthCalledFor p → ¬ fieldsGood p → s.refuses c p .badField))) ∧
  (∀ (s : State) (p : List Byte) (c : Instr) (l : LaneId),
    s.takes p → asks c p l → u8At p 0 ∈ [9, 0x0A, 0x0B, 0x0C, 0x0D, 0x0E, 0x0F] → p.length ≠ lengthCalledFor p →
      s.refuses c p .badLength) ∧
  (∀ (s : State) (p : List Byte),
    s.takes p → u8At p 0 = 2 → u8At p 1 = 255 → p.length = 10 → ¬ fieldsGood p → s.refuses .setLink p .badField) ∧
  (∀ (s : State) (p : List Byte),
    s.takes p → u8At p 0 = 3 → u8At p 1 = 255 → p.length = lengthCalledFor p →
      (u8At p 4 < 1 ∨ 16 < u8At p 4 → s.refuses .setLayout p .badField) ∧
      (1 ≤ u8At p 4 → u8At p 4 ≤ 16 →
        ((∃ (l : LaneId) (u : Tube), (s.lane l).ctl.tube = some u ∧ u.order.cls = u8At p 4) →
          s.refuses .setLayout p .busy) ∧
        ((∀ (l : LaneId) (u : Tube), (s.lane l).ctl.tube = some u → u.order.cls ≠ u8At p 4) → ¬ fieldsGood p →
          s.refuses .setLayout p .badField))) ∧
  (∀ (s : State) (p : List Byte) (l : LaneId),
    s.takes p → asks .queueTube p l → p.length = lengthCalledFor p →
      ((s.lane l).exc.slots = [] ∨ (s.lane l).pos.scale = none ∨ (s.lane l).motion.pitch = none →
        s.refuses .queueTube p .notReady) ∧
      ∀ (pitch : Nat) (ab : Int × Int),
        (s.lane l).exc.slots ≠ [] → (s.lane l).pos.scale ≠ none → (s.lane l).motion.pitch = some pitch →
        ab = s.stops l (orderAt p) →
          (¬ fieldsGood p ∨ u8At p 5 ≠ 0 ∧ s.layout (u8At p 5) = none ∨ ab.1 ≤ ab.2 + (pitch : Int) →
            s.refuses .queueTube p .badField) ∧
          (fieldsGood p → (u8At p 5 ≠ 0 → s.layout (u8At p 5) ≠ none) → ab.2 + (pitch : Int) < ab.1 →
            (32 ≤ (s.lane l).ctl.worklist.length → s.refuses .queueTube p .full) ∧
            ((s.lane l).ctl.worklist.length < 32 → u32At p 12 ∈ (s.lane l).tags → s.refuses .queueTube p .duplicate))) ∧
  (∀ (s : State) (p : List Byte) (c : Instr) (l : LaneId) (hi lo : Int),
    s.takes p → asks c p l → (u8At p 0 = 0x10 ∧ hi = s32At p 12 ∧ lo = s32At p 16 ∨
        u8At p 0 = 0x11 ∧ hi = s32At p 8 ∧ lo = s32At p 12) →
      (s.lane l).ctl.state = .idle ∨ (s.lane l).ctl.state = .faulted → p.length = lengthCalledFor p →
      (¬ (s.lane l).solves p → s.refuses c p .badField) ∧
      ((s.lane l).solves p → fieldsGood p →
        ((∀ k ∈ (s.lane l).store, k.index ≠ hi) ∨ ∀ k ∈ (s.lane l).store, k.index ≠ lo) → s.refuses c p .noData)) ∧
  (∀ (s : State) (p : List Byte) (c : Instr) (l : LaneId),
    s.takes p → plainRequest c p l →
      (c = .abort ∧ (s.lane l).phaseOrHeld ∈ [.idle, .faulted, .retract] ∨
        c = .hold ∧ (s.lane l).ctl.state ∈ [.idle, .finish, .faulted] ∨ c = .resume ∧ (s.lane l).ctl.state ≠ .held ∨
        c = .retract ∧
          ((s.lane l).ctl.state ∉ [.idle, .faulted] ∨ (s.lane l).drive.home.active = true)) →
      s.refuses c p .state)

/-- R183, R184: an accepted STATUS changes no state; its reply is the snapshot of the unit and of both lanes, each value as it stands
once the request has left the queue. -/
def Obligations.StatusReportsAndChangesNothing : Prop :=
  ∀ (s : State) (p : List Byte),
    s.takes p → u8At p 0 = 1 → u8At p 1 = 255 → p.length = 4 →
      ∃ (u : UnitStatus) (part : LaneId → LaneStatus),
        exec .status s = .next (s.afterReply (replyTo p .ok (.status u (part .a) (part .b)))) ∧
        u =
          { up := s.link.up, mask := s.link.mask, requests := s.link.requests.length - 1, tight := s.pool.tight,
            silence := s.link.silence, free := s.pool.free, records := s.pool.queue.length, low := s.pool.low,
            resume := s.pool.resume, engine := s.engine.busy.map fun e => e.lane, servedLast := s.engine.servedLast,
            bad := s.link.bad, overflowed := s.link.overflowed, dropped := s.pool.dropped } ∧
        ∀ l : LaneId,
          part l =
            { state := (s.lane l).ctl.state, heldPhase := (s.lane l).ctl.heldPhase, orders := (s.lane l).ctl.worklist.length,
              tag := (s.lane l).ctl.tube.map fun v => v.order.tag, rearm := (s.lane l).ctl.rearm,
              direction := (s.lane l).pos.direction, enabled := (s.lane l).drive.enabled, brake := (s.lane l).drive.brake,
              dir := (s.lane l).drive.dir, phase := (s.lane l).drive.phase, duty := (s.lane l).drive.duty,
              speed := (s.lane l).pos.speed, guide := (s.lane l).drive.guide.active, home := (s.lane l).drive.home.active,
              fault := (s.lane l).drive.fault.active, jobs := (s.lane l).jobs.length,
              engine := decide (∃ e, s.engine.busy = some e ∧ e.lane = l),
              raw := (s.lane l).pos.scale.map fun k => (s.lane l).pos.count * (k : Int), errors := (s.lane l).pos.errors,
              store := (s.lane l).store.length, storeFirst := (s.lane l).store.head?.map fun k => k.index,
              entries :=
                (match (s.lane l).ctl.tube with
                | some v => v.catalogue.length
                | none => 0),
              catOverflow :=
                (match (s.lane l).ctl.tube with
                | some v => v.catOverflow
                | none => 0) }

/-- R181, R160, R182: an accepted SET_LINK replaces the four items, reloads a running silence timer and tests the pool once. -/
def Obligations.SetLinkReplacesTheFourItems : Prop :=
  ∀ (s : State) (p : List Byte),
    s.takes p → u8At p 0 = 2 → u8At p 1 = 255 → p.length = 10 → 200 ≤ u16At p 4 → u16At p 4 ≤ 10000 → 17 ≤ u8At p 7 →
      u8At p 7 ≤ 200 → u8At p 7 < u8At p 8 → u8At p 8 ≤ 255 →
      ∃ t : State,
        exec .setLink s = .next t ∧ t.link.silence = u16At p 4 ∧ t.link.mask = BitVec.ofNat 7 (u8At p 6) ∧
        t.pool.low = u8At p 7 ∧ t.pool.resume = u8At p 8 ∧ t.link.up = s.link.up ∧
        t.link.silenceDue = (if s.link.up then some (s.clock + u16At p 4 * 1000000) else s.link.silenceDue) ∧
        s.answered t (replyTo p .ok (.setLink (u16At p 4) (BitVec.ofNat 7 (u8At p 6)) (u8At p 7) (u8At p 8))) ∧
        s.sameLanes t ∧
        (if s.pool.tight = true then
          if s.pool.free < u8At p 8 then t.pool.tight = true ∧ t.pool.queue = s.pool.queue
          else ∃ more, t.pool.queue = s.pool.queue ++ .notice (unitNotice .poolEasy) :: more
        else
          if u8At p 7 < s.pool.free then t.pool.tight = false ∧ t.pool.queue = s.pool.queue
          else
            t.pool.tight = true ∧ (0 < s.pool.free → ∃ more, t.pool.queue = s.pool.queue ++ .notice (unitNotice .poolTight) :: more))

/-- R86, R87: an accepted SET_LAYOUT replaces the class whole and nothing else. -/
def Obligations.SetLayoutReplacesTheClass : Prop :=
  ∀ (s : State) (p : List Byte) (y : Layout),
    s.takes p → u8At p 0 = 3 → u8At p 1 = 255 → p.length = 20 + 4 * u8At p 5 → 1 ≤ u8At p 4 → u8At p 4 ≤ 16 →
      (∀ (l : LaneId) (u : Tube), (s.lane l).ctl.tube = some u → u.order.cls ≠ u8At p 4) → layoutAt p = some y →
      exec .setLayout s =
        .next
          { s with
            layouts := s.layouts.set (u8At p 4 - 1) (some y),
            link := s.link.afterReply s.clock (replyTo p .ok (.setLayout (u8At p 4) (u8At p 5))) }

/-- R16 to R18: an accepted SET_SCAN replaces both tables, abandons the cycle in progress, begins slot 0 or stops the unit, and
clears the calibration store; its reply carries the timing of R12 to R14. -/
def Obligations.SetScanReplacesTheTables : Prop :=
  ∀ (s : State) (p : List Byte) (l : LaneId) (freqs : List Nat) (slots : List Slot),
    s.takes p → asks .setScan p l → (s.lane l).ctl.state = .idle ∨ (s.lane l).ctl.state = .faulted →
      p.length = 8 + 4 * u8At p 4 + 6 * u8At p 5 → scanTables p = (freqs, slots) → freqs.length ≤ 4 → slots.length ≤ 16 →
      (∀ f ∈ freqs, 2000 ≤ f ∧ f ≤ 1000000) →
      (∀ k ∈ slots, k.coil ≤ 7 ∧ k.freqIndex < freqs.length ∧ 1 ≤ k.drive ∧ k.drive ≤ 8 ∧ k.gain ≤ 5 ∧ 1 ≤ k.settle ∧
        k.settle ≤ 16 ∧ 4 ≤ k.integrate ∧ k.integrate ≤ 64) →
      ∃ (x : Lane) (cycle : Nat) (limit : Option Nat),
        x =
          { s.lane l with
            exc :=
              { freqs := freqs, slots := slots,
                run :=
                  if slots = [] then none else some { slot := 0, phase := .switch, start := s.clock, partialCycle := [] } },
            store := [] } ∧
        cycle =
          (slots.map fun k =>
            ((k.settle + k.integrate) * 1000000000 + (freqs.getD k.freqIndex 0 - 1)) / freqs.getD k.freqIndex 0 + 2000).sum ∧
        limit =
          (match x.motion.pitch with
          | some pitch => if slots = [] then none else some (pitch * 1000000 / cycle)
          | none => none) ∧
        exec .setScan s =
          .next
            ((s.setLane l x).afterReply
              (replyTo p .ok
                (.setScan slots.length cycle limit
                  (match limit with
                  | some v => min x.motion.pullSpeed v
                  | none => x.motion.pullSpeed))))

/-- R49: an accepted SET_CHANNEL replaces every present part of the channel and leaves the absent ones. -/
def Obligations.SetChannelReplacesThePresentParts : Prop :=
  ∀ (s : State) (p : List Byte) (l : LaneId) (cal : Option CalPart) (k : Parts),
    s.takes p → asks .setChannel p l → (s.lane l).ctl.state = .idle ∨ (s.lane l).ctl.state = .faulted →
      p.length = (channelPlaces p).total → u8At p 4 ≤ 15 → optionalPart (bitAt p 5 0) (calPartAt p 8) = some cal →
      partsAt p 5 (channelPlaces p) = some k → (s.lane l).bases.length = 16 →
      ∃ b : BaseChannel,
        b.null = (match cal with
          | some c => c.null
          | none => ((s.lane l).base (u8At p 4)).null) ∧
        (b.kc, b.ks) = (match cal with
          | some c => (c.kc, c.ks)
          | none => (((s.lane l).base (u8At p 4)).kc, ((s.lane l).base (u8At p 4)).ks)) ∧
        b.facets.screening = k.screening.getD ((s.lane l).base (u8At p 4)).facets.screening ∧
        b.facets.disposition = k.disposition.getD ((s.lane l).base (u8At p 4)).facets.disposition ∧
        b.facets.curve = k.curve.getD ((s.lane l).base (u8At p 4)).facets.curve ∧
        exec .setChannel s =
          .next
            ((s.setLane l { s.lane l with bases := (s.lane l).bases.set (u8At p 4) b }).afterReply
              (replyTo p .ok (.setChannel b.null b.kc b.ks (decide (u8At p 4 < (s.lane l).exc.slots.length)))))

/-- R50: an accepted definition sets the sources and the coefficient; its absent parts are the power-on values where the mix was
undefined and are kept where it was defined. The reply says whether both sources are active. -/
def Obligations.SetMixDefinesAMix : Prop :=
  ∀ (s : State) (p : List Byte) (l : LaneId) (k : Parts),
    s.takes p → asks .setMix p l → (s.lane l).ctl.state = .idle ∨ (s.lane l).ctl.state = .faulted → u8At p 5 = 1 →
      p.length = (mixPlaces p).total → 16 ≤ u8At p 4 → u8At p 4 ≤ 19 → u8At p 8 ≤ 15 → u8At p 9 ≤ 15 → u8At p 8 ≠ u8At p 9 →
      partsAt p 6 (mixPlaces p) = some k → (s.lane l).mixes.length = 4 →
      ∃ (old : Facets) (m : MixChannel),
        old = (if (((s.lane l).mix (u8At p 4)).defn).isSome then ((s.lane l).mix (u8At p 4)).facets else Facets.reset) ∧
        m.defn = some { p := u8At p 8, q := u8At p 9, mc := s16At p 12, ms := s16At p 14 } ∧
        m.facets =
          { screening := k.screening.getD old.screening, disposition := k.disposition.getD old.disposition,
            curve := k.curve.getD old.curve } ∧
        exec .setMix s =
          .next
            ((s.setLane l { s.lane l with mixes := (s.lane l).mixes.set (u8At p 4 - 16) m }).afterReply
              (replyTo p .ok
                (.active
                  (decide (u8At p 8 < (s.lane l).exc.slots.length) && decide (u8At p 9 < (s.lane l).exc.slots.length)))))

/-- R51: a removal that passes the checks makes the mix undefined with its settings at their power-on values, is accepted for an
undefined mix too, and leaves everything else of the lane, the landmark setting among it; the removed mix has no value on any
line. -/
def Obligations.SetMixRemovesAMix : Prop :=
  ∀ (s : State) (p : List Byte) (l : LaneId),
    s.takes p → asks .setMix p l → (s.lane l).ctl.state = .idle ∨ (s.lane l).ctl.state = .faulted → u8At p 5 = 0 →
      p.length = 8 → 16 ≤ u8At p 4 → u8At p 4 ≤ 19 → (s.lane l).mixes.length = 4 →
      ∃ x : Lane,
        x = { s.lane l with
              mixes := (s.lane l).mixes.set (u8At p 4 - 16)
                { defn := none,
                  facets :=
                    { screening :=
                        { enable := false, component := .vert, openTh := 1000, closeTh := 500, confirm := 2, release := 3,
                          shift := 4 },
                      disposition := .off, curve := [] } } } ∧
        (∀ samples, x.channelValue samples (u8At p 4) = none) ∧
        exec .setMix s = .next ((s.setLane l x).afterReply (replyTo p .ok (.active false)))

/-- R89: an accepted SET_LANDMARK replaces all the lane's landmark settings and reports whether the channel is active. -/
def Obligations.SetLandmarkReplacesTheSettings : Prop :=
  ∀ (s : State) (p : List Byte) (l : LaneId) (k : LandmarkSettings),
    s.takes p → asks .setLandmark p l → (s.lane l).ctl.state = .idle ∨ (s.lane l).ctl.state = .faulted → p.length = 24 →
      landmarkAt p = some k →
      exec .setLandmark s =
        .next
          ((s.setLane l { s.lane l with landmark := k }).afterReply
            (replyTo p .ok
              (.active
                (match k.channel with
                | some ch => (s.lane l).active ch
                | none => false))))

/-- R134, R22, R28, R119: an accepted SET_MOTION replaces every setting of a lane whose motor is stopped, as it is in IDLE and FAULTED.
A changed scale leaves the count, or sets it to the nearer end of the range it allows, and sets the reference position; each input
whose time stood has reached the new debounce time follows its raw level. Model's choice: a scale equal to the one in force leaves the
reference position (log entry 29). -/
def Obligations.SetMotionReplacesTheSettings : Prop :=
  ∀ (s : State) (p : List Byte) (l : LaneId) (scale : Nat) (m : Motion),
    s.takes p → asks .setMotion p l → (s.lane l).ctl.state = .idle ∨ (s.lane l).ctl.state = .faulted → p.length = 46 →
      motionAt p = some (scale, m) → (s.lane l).drive.stopped →
      ∃ (pos : Position) (limit : Option Nat) (guide : Input),
        ((s.lane l).pos.scale = some scale → pos = (s.lane l).pos) ∧
        ((s.lane l).pos.scale ≠ some scale →
          pos = { (s.lane l).pos with scale := some scale, count := pos.count, refPos := pos.count * (scale : Int) } ∧
          fitsS32 (pos.count * (scale : Int)) ∧
          (fitsS32 ((s.lane l).pos.count * (scale : Int)) → pos.count = (s.lane l).pos.count) ∧
          (2147483647 < (s.lane l).pos.count * (scale : Int) → ¬ fitsS32 ((pos.count + 1) * (scale : Int))) ∧
          ((s.lane l).pos.count * (scale : Int) < -2147483648 → ¬ fitsS32 ((pos.count - 1) * (scale : Int)))) ∧
        limit =
          (if (s.lane l).exc.slots = [] then none else some (u16At p 6 * 1000000 / (s.lane l).exc.cycleTime)) ∧
        guide = (s.lane l).drive.guide.followed m.debounce s.clock ∧
        exec .setMotion s =
          .next
            ((s.setLane l
                { s.lane l with
                  pos := pos, motion := m,
                  drive :=
                    { (s.lane l).drive with
                      guide := guide, home := (s.lane l).drive.home.followed m.debounce s.clock,
                      fault := (s.lane l).drive.fault.followed m.debounce s.clock },
                  ctl :=
                    { (s.lane l).ctl with
                      rearm := (s.lane l).ctl.rearm || ((s.lane l).drive.guide.active && !guide.active) } }).afterReply
              (replyTo p .ok
                (.setMotion limit
                  (match limit with
                  | some v => min m.pullSpeed v
                  | none => m.pullSpeed))))

/-- R138, R139, R24: an accepted QUEUE_TUBE appends the order; the reply carries the count after the append and the stops computed
for the check: L − far_back and pull_end, or within a segment's ends widened by 20,000 µm. A lane that is not IDLE takes nothing now. -/
def Obligations.QueueTubeAppendsTheOrder : Prop :=
  ∀ (s : State) (p : List Byte) (l : LaneId) (o : Order) (pitch : Nat) (ab : Int × Int),
    s.takes p → asks .queueTube p l → p.length = queueLength p → orderAt p = o → (s.lane l).exc.slots ≠ [] →
      (s.lane l).pos.scale.isSome = true → (s.lane l).motion.pitch = some pitch → o.fieldsOk = true →
      (o.cls ≠ 0 → (s.layout o.cls).isSome = true) → ab = s.stops l o → ab.2 + (pitch : Int) < ab.1 →
      (s.lane l).ctl.worklist.length < 32 → o.tag ∉ (s.lane l).tags →
      ((s.lane l).ctl.state ≠ .idle →
        exec .queueTube s =
          .next
            ((s.setLane l
                { s.lane l with ctl := { (s.lane l).ctl with worklist := (s.lane l).ctl.worklist ++ [o] } }).afterReply
              (replyTo p .ok (.queueTube ((s.lane l).ctl.worklist.length + 1) ab.1 ab.2)))) ∧
      ∃ t : State,
        exec .queueTube s = .next t ∧
        s.answered t (replyTo p .ok (.queueTube ((s.lane l).ctl.worklist.length + 1) ab.1 ab.2)) ∧
        ((t.lane l).ctl.worklist = (s.lane l).ctl.worklist ++ [o] ∨
          (s.lane l).ctl.worklist ++ [o] = ((t.lane l).ctl.tube.map fun u => u.order).toList ++ (t.lane l).ctl.worklist) ∧
        (∀ len : Int,
          (o.cls = 0 ∧ o.length.map (fun n => (n : Int)) = some len ∨
            o.cls ≠ 0 ∧ (s.layout o.cls).map (fun y => y.length) = some len) →
          (o.segment = none → ab = (len - ((s.lane l).motion.farBack : Int), ((s.lane l).motion.pullEnd : Int))) ∧
          (∀ upper lower : Nat, o.segment = some (upper, lower) →
            ab =
              (min (len - ((s.lane l).motion.farBack : Int)) ((upper : Int) + 20000),
                max ((s.lane l).motion.pullEnd : Int) ((lower : Int) - 20000))))

/-- R140: CANCEL_TUBE, in any lane state, removes the waiting order of the tag and keeps the order of the rest; without one it
replies NOT_FOUND and changes nothing, the current tube's tag being no exception; a lane other than 0 or 1 is BAD_LANE. So a
cancel that comes after the taking of the order finds nothing, and one that comes before it removes the order. -/
def Obligations.CancelTubeRemovesAWaitingOrder : Prop :=
  (∀ (s : State) (p : List Byte),
    s.takes p → u8At p 0 = 0x0A → u8At p 1 ≠ 0 → u8At p 1 ≠ 1 →
      exec .cancelTube s = .next (s.afterReply (replyTo p .badLane .empty))) ∧
  ∀ (s : State) (p : List Byte) (l : LaneId),
    s.takes p → asks .cancelTube p l → p.length = 8 →
      (∀ (before after : List Order) (o : Order),
        (s.lane l).ctl.worklist = before ++ o :: after → o.tag = u32At p 4 → (s.lane l).tags.Nodup →
        exec .cancelTube s =
          .next
            ((s.setLane l { s.lane l with ctl := { (s.lane l).ctl with worklist := before ++ after } }).afterReply
              (replyTo p .ok (.cancelTube (before ++ after).length)))) ∧
      ((∀ o ∈ (s.lane l).ctl.worklist, o.tag ≠ u32At p 4) →
        exec .cancelTube s = .next (s.afterReply (replyTo p .notFound .empty)))

/-- R153: ABORT decides ABORTED once and sends the lane where the table says, by its state, or by its held phase in HELD: FINISH from
GUIDE_CHECK, WITHDRAW with a motion start from INSERT and TURN, WITHDRAW by retarget from a running PULL and with a motion start from a
held one; in WITHDRAW and FINISH it changes nothing, and a held WITHDRAW stays HELD. R97: a tube that leaves TURN so has its expected
landmarks decided MISSED. R146: a pull ends in its order, with PULL_ENDED. The withdrawals are stated for a lane that has no motor fault,
is away from its park position and above its home limit, over an UP link. Model's choice: PULL_ENDED precedes the pool notice that its
buffer causes (log entry 12). -/
def Obligations.AbortEndsTheTube : Prop :=
  ∀ (s : State) (p : List Byte) (l : LaneId) (u : Tube),
    s.takes p → plainRequest .abort p l → (s.lane l).ctl.tube = some u →
      ((s.lane l).phaseOrHeld = .withdraw ∨ (s.lane l).phaseOrHeld = .finish → s.link.up = true →
        exec .abort s = .next (s.afterReply (replyTo p .ok .empty))) ∧
      ((s.lane l).phaseOrHeld = .guideCheck →
        ∃ (t : State) (v : Tube),
          exec .abort s = .next t ∧ s.answered t (replyTo p .ok .empty) ∧ (t.lane l).ctl.state = .finish ∧
          (t.lane l).ctl.heldPhase = none ∧ t.pool = s.pool ∧
          (t.lane l).drive.stopped ∧ (t.lane l).ctl.tube = some v ∧ v.outcome = some (u.outcome.getD .aborted) ∧
          v.fault = u.fault) ∧
      ((s.lane l).phaseOrHeld ∈ [.insert, .turn, .pull] → s.link.up = true → (s.lane l).drive.fault.active = false →
        (s.lane l).drive.home.active = false → (s.lane l).atHomeLimit = false →
        ∃ (t : State) (v : Tube),
          exec .abort s = .next t ∧ s.answered t (replyTo p .ok .empty) ∧ (t.lane l).ctl.state = .withdraw ∧
          (t.lane l).ctl.heldPhase = none ∧
          (t.lane l).drive.enabled = true ∧ (t.lane l).drive.brake = .released ∧ (t.lane l).drive.phase = .withdraw ∧
          (t.lane l).drive.dir = .reverse ∧
          (t.lane l).drive.duty =
            (if (s.lane l).phaseOrHeld = .pull ∧ (s.lane l).drive.enabled = true then (s.lane l).drive.duty
            else (s.lane l).motion.startDuty) ∧
          (t.lane l).pos.armedA = false ∧ (t.lane l).pos.armedB = false ∧ (t.lane l).ctl.tube = some v ∧
          v.outcome = some (u.outcome.getD .aborted) ∧ v.fault = u.fault ∧
          ((s.lane l).phaseOrHeld = .pull →
            (t.lane l).pullClosed ∧
            ∃ q : State,
              ({ s with link := { s.link with requests := s.link.requests.tail } } : State).pullEnded l q ∧
              t.lane l = (q.lane l).withdrawing (t.lane l).drive.duty .aborted ∧ s.sameOther l t ∧ t.pool = q.pool ∧
              t.engine = q.engine) ∧
          ((s.lane l).phaseOrHeld = .insert →
            t.pool = s.pool ∧ (t.lane l).detector = (s.lane l).detector ∧ v.flags = u.flags) ∧
          ((s.lane l).phaseOrHeld = .turn →
            t.pool = s.pool ∧ (s.lane l).detector.missedRest (t.lane l).detector ∧
            v.flags =
              { u.flags with
                lmMissed :=
                  u.flags.lmMissed || decide ((s.lane l).detector.pointer < (s.lane l).detector.expected.length) }))

/-- R151: a HOLD taken in a state that can be held stops the motor, remembers the phase, freezes the timers, marks the tube and
emits HELD; the stops stay armed and line capture as it is. In HELD it changes nothing. Model's choice: HELD precedes the pool notice
that its buffer causes (log entry 12). -/
def Obligations.HoldSuspendsTheLane : Prop :=
  ∀ (s : State) (p : List Byte) (l : LaneId),
    s.takes p → plainRequest .hold p l →
      ((s.lane l).ctl.state = .held → exec .hold s = .next (s.afterReply (replyTo p .ok .empty))) ∧
      ((s.lane l).ctl.state ∈ [.guideCheck, .insert, .turn, .pull, .withdraw, .retract] →
        ∃ t : State,
          exec .hold s = .next t ∧ s.answered t (replyTo p .ok .empty) ∧
          t.lane l =
            { s.lane l with
              drive :=
                { (s.lane l).drive with
                  enabled := false, brake := .engaged, duty := 0, phase := .none, window := none },
              pos := { (s.lane l).pos with wholePull := false },
              ctl :=
                { (s.lane l).ctl with
                  state := .held, heldPhase := some (s.lane l).ctl.state,
                  poll := (s.lane l).ctl.poll.freeze s.clock, dwell := (s.lane l).ctl.dwell.freeze s.clock,
                  tube := (s.lane l).ctl.tube.map fun u => { u with flags := { u.flags with holdOccurred := true } } } } ∧
          s.noticed t l .held 3 (s.lane l).tag none)

/-- R152, R25: RESUME returns the lane to its held phase with RESUMED. A frozen dwell runs on from the time left; a motion phase is
given a motion start (over an UP link, without a motor fault, the stops unreached, probe-home and home limit unreached). Model's choice:
RESUMED precedes the pool notice that its buffer causes (log entry 12). -/
def Obligations.ResumeReturnsToTheHeldPhase : Prop :=
  ∀ (s : State) (p : List Byte) (l : LaneId) (st : LaneState),
    s.takes p → plainRequest .resume p l → (s.lane l).ctl.state = .held → (s.lane l).ctl.heldPhase = some st →
      s.link.up = true →
      (st = .guideCheck ∨ st = .turn →
        ∃ t : State,
          exec .resume s = .next t ∧ s.answered t (replyTo p .ok .empty) ∧
          t.lane l =
            { s.lane l with
              pos := { (s.lane l).pos with wholePull := false },
              ctl :=
                { (s.lane l).ctl with
                  state := st, heldPhase := none, poll := (s.lane l).ctl.poll.thaw s.clock,
                  dwell := (s.lane l).ctl.dwell.thaw s.clock } } ∧
          s.noticed t l .resumed 4 (s.lane l).tag none) ∧
      (st ∈ [.insert, .pull, .withdraw, .retract] → (s.lane l).drive.fault.active = false →
        (s.lane l).drive.home.active = false → (s.lane l).atHomeLimit = false →
        (∀ (u : Tube) (r : Int), (s.lane l).ctl.tube = some u → (s.lane l).pos.raw = some r →
          ((s.lane l).pos.armedA = true → r < u.stopA) ∧ ((s.lane l).pos.armedB = true → u.stopB < r)) →
        ∃ t : State,
          exec .resume s = .next t ∧ s.answered t (replyTo p .ok .empty) ∧ (t.lane l).ctl.state = st ∧
          (t.lane l).ctl.heldPhase = none ∧
          (t.lane l).motorStarted st.motion (if st = .insert then .forward else .reverse) ∧
          (t.lane l).capture = (s.lane l).capture ∧ (t.lane l).pos.armedA = (s.lane l).pos.armedA ∧
          (t.lane l).pos.armedB = (s.lane l).pos.armedB ∧ (t.lane l).ctl.tube = (s.lane l).ctl.tube ∧
          s.noticed t l .resumed 4 (s.lane l).tag none)

/-- R154: an accepted RETRACT remembers the state it came from and gives a motion start of RETRACT, opening no tube record and
emitting no notice. -/
def Obligations.RetractBringsTheProbeHome : Prop :=
  ∀ (s : State) (p : List Byte) (l : LaneId),
    s.takes p → plainRequest .retract p l → (s.lane l).ctl.state = .idle ∨ (s.lane l).ctl.state = .faulted →
      (s.lane l).drive.home.active = false → s.link.up = true → (s.lane l).drive.fault.active = false →
      exec .retract s =
        .next
          ((s.setLane l
              { s.lane l with
                pos := { (s.lane l).pos with wholePull := false },
                drive :=
                  { (s.lane l).drive with
                    enabled := true, brake := .released, duty := (s.lane l).motion.startDuty, dir := .reverse,
                    phase := .retract, window := some { start := (s.lane l).pos.raw, periods := 0 } },
                ctl :=
                  { (s.lane l).ctl with state := .retract, returnTo := some (s.lane l).ctl.state } }).afterReply
            (replyTo p .ok .empty))

/-- R155, R171, R81, R136, R100: LANE_RESET in any state leaves the lane IDLE, its motor stopped, its worklist, tube, jobs, window,
screens, detector and assemblers empty, its in-engine job discarded, and its setup, calibration store and encoder count kept. That its
notice carries no tag is deduced (log entry 21); that it precedes the pool notice its buffer causes is the model's choice (log entry
12). -/
def Obligations.LaneResetClearsTheLane : Prop :=
  ∀ (s : State) (p : List Byte) (l : LaneId),
    s.takes p → plainRequest .laneReset p l →
      ∃ t : State,
        exec .laneReset s = .next t ∧ s.answered t (replyTo p .ok .empty) ∧ s.sameBeyond l t ∧
        t.engine.servedLast = s.engine.servedLast ∧
        t.engine.busy =
          (s.engine.busy.map fun e => if e.lane = l then { e with discarded := true } else e) ∧
        ((s.lane l).lineBlock = none → (s.lane l).regionBlock = none →
          s.noticed t l .laneReset 6 none none) ∧
        t.lane l =
          { s.lane l with
            drive :=
              { (s.lane l).drive with enabled := false, brake := .engaged, duty := 0, phase := .none, window := none },
            pos := { (s.lane l).pos with armedA := false, armedB := false, wholePull := false },
            capture := { armed := false, window := [] }, screens := List.replicate 20 Screen.reset, roi := none,
            detector := Detector.reset, jobs := [], ring := [], lineBlock := none, regionBlock := none,
            ctl :=
              { state := .idle, heldPhase := none, returnTo := none, worklist := [],
                rearm :=
                  (match (s.lane l).ctl.tube with
                  | some u => if u.enteredInsert then !(s.lane l).drive.guide.active else (s.lane l).ctl.rearm
                  | none => (s.lane l).ctl.rearm),
                poll := .off, attempts := (s.lane l).ctl.attempts, dwell := .off, tube := none } }

/-- R55, R56, R59, R178: an accepted SPAN_CAL or SOLVE_MIX becomes a job of the span's values, from the stored lines hi down to lo; it is
in flight, with no reply yet. An idle engine takes it at once for the running time of R79; while the engine is busy it joins the back of
the lane's job queue. -/
def Obligations.SolvesGoInFlight : Prop :=
  (∀ (s : State) (p : List Byte) (l : LaneId) (hi lo : Int) (n : Nat) (span : List StoredLine) (j : Job),
    s.takes p → asks .spanCal p l → (s.lane l).ctl.state = .idle ∨ (s.lane l).ctl.state = .faulted → p.length = 20 →
      u8At p 4 ≤ 15 → u8At p 4 < (s.lane l).exc.slots.length → 100 ≤ u16At p 6 → u16At p 6 ≤ 30000 → u16At p 8 ≤ 3599 →
      s32At p 12 = hi → s32At p 16 = lo → lo < hi → hi - lo + 1 ≤ 256 → (∃ k ∈ (s.lane l).store, k.index = hi) →
      (∃ k ∈ (s.lane l).store, k.index = lo) →
      span = ((s.lane l).store.filter fun k => decide (k.index ≤ hi) && decide (lo ≤ k.index)) → n = span.length →
      j = .span (u8At p 4) (u16At p 6) (u16At p 8) (span.map fun k => k.samples.getD (u8At p 4) ⟨0, 0⟩) →
      (s.engine.busy = none → (s.lane l).jobs = [] →
        exec .spanCal s =
          .next
            { s with
              engine :=
                { busy := some { lane := l, job := j, discarded := false, doneAt := s.clock + 4000 + 40 * (n * (n - 1) / 2) },
                  servedLast := l },
              link := { s.link with requests := s.link.requests.tail, handler := .working (headerOf p) } }) ∧
      (s.engine.busy ≠ none →
        exec .spanCal s =
          .next
            { s.setLane l { s.lane l with jobs := (s.lane l).jobs ++ [j] } with
              link := { s.link with requests := s.link.requests.tail, handler := .working (headerOf p) } })) ∧
  (∀ (s : State) (p : List Byte) (l : LaneId) (hi lo : Int) (d : MixDef) (n : Nat) (span : List StoredLine) (j : Job),
    s.takes p → asks .solveMix p l → (s.lane l).ctl.state = .idle ∨ (s.lane l).ctl.state = .faulted → p.length = 16 →
      16 ≤ u8At p 4 → u8At p 4 ≤ 19 → ((s.lane l).mix (u8At p 4)).defn = some d → d.p < 16 → d.q < 16 →
      d.p < (s.lane l).exc.slots.length → d.q < (s.lane l).exc.slots.length → s32At p 8 = hi → s32At p 12 = lo → lo < hi →
      hi - lo + 1 ≤ 256 → (∃ k ∈ (s.lane l).store, k.index = hi) → (∃ k ∈ (s.lane l).store, k.index = lo) →
      span = ((s.lane l).store.filter fun k => decide (k.index ≤ hi) && decide (lo ≤ k.index)) → n = span.length →
      j =
        .solve (u8At p 4) (span.map fun k => (s.lane l).baseValue k.samples d.p)
          (span.map fun k => (s.lane l).baseValue k.samples d.q) →
      (s.engine.busy = none → (s.lane l).jobs = [] →
        exec .solveMix s =
          .next
            { s with
              engine :=
                { busy :=
                    some
                      { lane := l, job := j, discarded := false,
                        doneAt := s.clock + 4000 + 40 * n + 40 * (n * (n - 1) / 2) },
                  servedLast := l },
              link := { s.link with requests := s.link.requests.tail, handler := .working (headerOf p) } }) ∧
      (s.engine.busy ≠ none →
        exec .solveMix s =
          .next
            { s.setLane l { s.lane l with jobs := (s.lane l).jobs ++ [j] } with
              link := { s.link with requests := s.link.requests.tail, handler := .working (headerOf p) } }))

/-! ### Inputs and encoder -/

/-- R119: a raw level changes without changing the debounced state, and its time stood starts anew; one that has returned to the
debounced state changes nothing when the debounce time has run. -/
def Obligations.RawLevelsAreDebounced : Prop :=
  (∀ (s : State) (l : LaneId) (i : InputId) (level : Bool),
    exec (.rawLevelChange l i level) s =
      .next
        (s.setLane l
          { s.lane l with
            drive :=
              (s.lane l).drive.setInput i
                { raw := level, active := ((s.lane l).drive.input i).active,
                  since := if ((s.lane l).drive.input i).raw = level then ((s.lane l).drive.input i).since else s.clock } })) ∧
  (∀ (s : State) (l : LaneId) (i : InputId),
    ((s.lane l).drive.input i).raw = ((s.lane l).drive.input i).active → exec (.debouncedStateChange l i) s = .next s)

/-- R119, R120, R143, R130, R131: a debounced state changes to the raw level one debounce time after the level's last change, and no
other input with it. Guide-latched changing, probe-home with the motor DISABLED, and motor-fault clearing change nothing but the
input, and the rearm flag when guide-latched is released. Probe-home becoming ACTIVE while the motor runs in WITHDRAW stops it and
the lane is in FINISH, the outcome unchanged; in RETRACT it stops it and the lane is back in the state it came from, with no notice. -/
def Obligations.DebouncedStatesFollow : Prop :=
  ∀ (s : State) (l : LaneId) (i : InputId) (v : Input),
    (s.lane l).drive.input i = v → v.raw ≠ v.active →
      (∃ t : State,
        exec (.debouncedStateChange l i) s = .next t ∧ (t.lane l).drive.input i = { v with active := v.raw } ∧
        (∀ j, j ≠ i → (t.lane l).drive.input j = (s.lane l).drive.input j) ∧
        t.clock = max s.clock (v.since + (s.lane l).motion.debounce * 1000000)) ∧
      (i = .guideLatched ∨ i = .probeHome ∧ (s.lane l).drive.enabled = false ∨ i = .motorFault ∧ v.raw = false →
        exec (.debouncedStateChange l i) s =
          .next
            { s.setLane l
                { s.lane l with
                  drive := (s.lane l).drive.setInput i { v with active := v.raw },
                  ctl :=
                    { (s.lane l).ctl with
                      rearm := (s.lane l).ctl.rearm || (decide (i = .guideLatched) && !v.raw) } } with
              clock := max s.clock (v.since + (s.lane l).motion.debounce * 1000000) }) ∧
      (i = .probeHome → v.raw = true → (s.lane l).drive.enabled = true →
        ((s.lane l).ctl.state = .withdraw → (s.lane l).drive.phase = .withdraw →
          ∃ t : State,
            exec (.debouncedStateChange l i) s = .next t ∧ (t.lane l).drive.stopped ∧ (t.lane l).ctl.state = .finish ∧
            t.pool = s.pool ∧ s.sameOther l t ∧
            ∀ u, (s.lane l).ctl.tube = some u →
              ∃ w, (t.lane l).ctl.tube = some w ∧ w.outcome = u.outcome ∧ w.fault = u.fault ∧ w.flags = u.flags) ∧
        ((s.lane l).ctl.state = .retract → (s.lane l).drive.phase = .retract →
          ∃ t : State,
            exec (.debouncedStateChange l i) s = .next t ∧ (t.lane l).drive.stopped ∧ t.pool = s.pool ∧ s.sameOther l t ∧
            (t.lane l).ctl =
              { (s.lane l).ctl with
                state := (s.lane l).ctl.returnTo.getD .idle, returnTo := none, heldPhase := none }))

/-- R130, R149, R141: motor-fault becoming ACTIVE stops the motor at once. A tube in GUIDE_CHECK, INSERT, TURN or PULL gets outcome
MOTOR_FAULT unless one is decided, in WITHDRAW it keeps its outcome; the fault mark is set unless it is; the lane is in FINISH. R97: a
tube that leaves TURN so has its expected landmarks decided MISSED. R146: a pull ends in its order, with PULL_ENDED. A retraction ends in
FAULTED. A lane in IDLE, FINISH, HELD or FAULTED keeps its controller, tube and worklist as they are, and emits nothing. Model's choice:
PULL_ENDED and FAULTED precede the pool notice that their buffer causes (log entry 12). -/
def Obligations.MotorFaultsStopTheMotor : Prop :=
  ∀ (s : State) (l : LaneId),
    (s.lane l).drive.fault.raw = true → (s.lane l).drive.fault.active = false →
      ∃ t : State,
        exec (.debouncedStateChange l .motorFault) s = .next t ∧ (t.lane l).drive.stopped ∧
        ((s.lane l).ctl.state ∈ [.guideCheck, .insert, .turn, .pull, .withdraw] →
          (t.lane l).ctl.state = .finish ∧ (t.lane l).pos.armedA = false ∧ (t.lane l).pos.armedB = false ∧
          ∀ u, (s.lane l).ctl.tube = some u →
            ∃ v, (t.lane l).ctl.tube = some v ∧ v.order = u.order ∧ v.fault = some (u.fault.getD .motorFault) ∧
              v.outcome =
                (if (s.lane l).ctl.state = .withdraw then u.outcome else some (u.outcome.getD .motorFault))) ∧
        ((s.lane l).ctl.state ∈ [.guideCheck, .insert, .withdraw] →
          (t.lane l).detector = (s.lane l).detector ∧ t.pool = s.pool ∧
          ∀ u v, (s.lane l).ctl.tube = some u → (t.lane l).ctl.tube = some v → v.flags = u.flags) ∧
        ((s.lane l).ctl.state = .turn →
          (s.lane l).detector.missedRest (t.lane l).detector ∧ t.pool = s.pool ∧
          ∀ u v, (s.lane l).ctl.tube = some u → (t.lane l).ctl.tube = some v →
            v.flags =
              { u.flags with
                lmMissed :=
                  u.flags.lmMissed || decide ((s.lane l).detector.pointer < (s.lane l).detector.expected.length) }) ∧
        ((s.lane l).ctl.state = .pull →
          (t.lane l).pullClosed ∧
          ∃ q : State,
            ({ s.setLane l
                { s.lane l with
                  drive :=
                    { (s.lane l).drive with
                      enabled := false, brake := .engaged, duty := 0, phase := .none, window := none,
                      fault := { (s.lane l).drive.fault with active := true } } } with
                clock :=
                  max s.clock ((s.lane l).drive.fault.since + (s.lane l).motion.debounce * 1000000) } : State).pullEnded l q ∧
            t = (q.setLane l ((q.lane l).finishing .motorFault .motorFault)).finishWait l) ∧
        ((s.lane l).ctl.state = .retract →
          (t.lane l).ctl.state = .faulted ∧ (t.lane l).ctl.returnTo = none ∧
          s.noticed t l .faulted 5 (s.lane l).tag (some .motorFault)) ∧
        ((s.lane l).ctl.state ∈ [.idle, .finish, .held, .faulted] → (t.lane l).ctl = (s.lane l).ctl ∧ t.pool = s.pool)

/-- R20 to R22: a step along the forward order raises the count by 1 and one against it lowers it by 1, unless the raw position would
leave the signed 32-bit range; a change of both phases counts an encoder error instead; the new phase state is the last accepted one. R25,
R132: nothing else changes in any lane state, where the new raw position reaches no armed stop of a lane that is not HELD, and in a
running WITHDRAW lies above the home limit. That the count has no bound while the scale is unset is deduced (log entry 17). -/
def Obligations.EdgesMoveTheCount : Prop :=
  ∀ (s : State) (l : LaneId) (new : EncPhase),
    (∀ k, (s.lane l).pos.scale = some k → 1 ≤ k) →
      (new = (s.lane l).pos.phase → exec (.edge l new) s = .next s) ∧
      (∀ d : Int,
        (new = forwardOf (s.lane l).pos.phase ∧ d = 1 ∨ forwardOf new = (s.lane l).pos.phase ∧ d = -1) →
        ((∀ k : Nat, (s.lane l).pos.scale = some k →
            fitsS32 (((s.lane l).pos.count + d) * (k : Int)) ∧
            ((s.lane l).drive.enabled = true → (s.lane l).drive.phase = .withdraw →
              -((s.lane l).motion.homeLimit : Int) < ((s.lane l).pos.count + d) * (k : Int)) ∧
            ∀ u : Tube, (s.lane l).ctl.tube = some u → (s.lane l).ctl.state ≠ .held →
              ((s.lane l).pos.armedA = true → ((s.lane l).pos.count + d) * (k : Int) < u.stopA) ∧
              ((s.lane l).pos.armedB = true → u.stopB < ((s.lane l).pos.count + d) * (k : Int))) →
          exec (.edge l new) s =
            .next
              (s.setLane l
                { s.lane l with pos := { (s.lane l).pos with phase := new, count := (s.lane l).pos.count + d } })) ∧
        (∀ k : Nat, (s.lane l).pos.scale = some k → ¬ fitsS32 (((s.lane l).pos.count + d) * (k : Int)) →
          exec (.edge l new) s =
            .next (s.setLane l { s.lane l with pos := { (s.lane l).pos with phase := new } }))) ∧
      (new = forwardOf (forwardOf (s.lane l).pos.phase) →
        exec (.edge l new) s =
          .next
            (s.setLane l
              { s.lane l with
                pos :=
                  { (s.lane l).pos with
                    phase := new,
                    errors :=
                      if (s.lane l).pos.errors < 4294967295 then (s.lane l).pos.errors + 1 else (s.lane l).pos.errors } }))

/-- R25, R144, R145, R39, R53, R65, R90, R112: the edge that reaches stop A in INSERT stops the motor and enters TURN with the
per-pull state of every block reset, the calibration store emptied for a CAL order, and the dwell running. -/
def Obligations.StopATurnsTheLane : Prop :=
  ∀ (s : State) (l : LaneId) (u : Tube) (k : Nat),
    (s.lane l).ctl.state = .insert → (s.lane l).pos.armedA = true → (s.lane l).pos.armedB = false →
      (s.lane l).ctl.tube = some u → (s.lane l).pos.scale = some k → 1 ≤ k → 0 < (s.lane l).motion.turnDwell →
      fitsS32 (((s.lane l).pos.count + 1) * (k : Int)) → u.stopA ≤ ((s.lane l).pos.count + 1) * (k : Int) →
      ∃ (t : State) (v : Tube),
        exec (.edge l (forwardOf (s.lane l).pos.phase)) s = .next t ∧ s.sameUnit t ∧ t.clock = s.clock ∧ s.sameOther l t ∧
        (t.lane l).pos.count = (s.lane l).pos.count + 1 ∧ (t.lane l).ctl.state = .turn ∧ (t.lane l).drive.stopped ∧
        (t.lane l).drive.dir = (s.lane l).drive.dir ∧ (t.lane l).pos.armedA = false ∧
        (t.lane l).ctl.dwell = .running (s.clock + (s.lane l).motion.turnDwell * 1000000) ∧
        (t.lane l).screens = List.replicate 20 Screen.reset ∧ (t.lane l).roi = none ∧ (t.lane l).ring = [] ∧
        (t.lane l).store = (if u.order.cal then [] else (s.lane l).store) ∧
        (t.lane l).detector.run = none ∧ (t.lane l).detector.pointer = 0 ∧ (t.lane l).detector.correction = 0 ∧
        (t.lane l).detector.unexpected = [] ∧ (t.lane l).detector.overflow = 0 ∧
        (t.lane l).detector.expected = expectedList (s.layout u.order.cls) u.stopA u.stopB ∧
        (t.lane l).ctl.tube = some v ∧ v.order = u.order ∧ v.outcome = u.outcome ∧ v.committed = 0 ∧ v.repeated = 0 ∧
        v.ignored = 0 ∧ v.lost = 0 ∧ v.catalogue = [] ∧ v.joins = 0 ∧ v.catOverflow = 0

/-- R25, R146, R125: the edge that reaches stop B in PULL ends the pull EXAMINED: the flush, the detector's end-of-pull signal,
screening's and the assemblers' in this order, then PULL_ENDED behind the blocks they queued; the running motor passes to WITHDRAW with no
change of duty and a fresh stall window. Model's choice: PULL_ENDED precedes the pool notice that its buffer causes (log entry 12). -/
def Obligations.StopBEndsThePull : Prop :=
  ∀ (s : State) (l : LaneId) (u : Tube) (k : Nat),
    (s.lane l).ctl.state = .pull → (s.lane l).pos.armedB = true → (s.lane l).pos.armedA = false →
      (s.lane l).drive.enabled = true → (s.lane l).ctl.tube = some u → (s.lane l).pos.scale = some k → 1 ≤ k →
      fitsS32 (((s.lane l).pos.count - 1) * (k : Int)) → ((s.lane l).pos.count - 1) * (k : Int) ≤ u.stopB →
      -((s.lane l).motion.homeLimit : Int) < ((s.lane l).pos.count - 1) * (k : Int) →
      ∃ (t q : State) (v : Tube) (old : EncPhase),
        forwardOf old = (s.lane l).pos.phase ∧ exec (.edge l old) s = .next t ∧
        (s.setLane l
          { s.lane l with
            pos :=
              { (s.lane l).pos with phase := old, count := (s.lane l).pos.count - 1, armedB := false } }).pullEnded l q ∧
        t = q.setLane l ((q.lane l).withdrawing (s.lane l).drive.duty .examined) ∧ s.sameOther l t ∧
        (t.lane l).ctl.state = .withdraw ∧ (t.lane l).pullClosed ∧ (t.lane l).drive.enabled = true ∧
        (t.lane l).drive.brake = .released ∧ (t.lane l).drive.phase = .withdraw ∧ (t.lane l).drive.dir = .reverse ∧
        (t.lane l).drive.duty = (s.lane l).drive.duty ∧
        (t.lane l).drive.window = some { start := some (((s.lane l).pos.count - 1) * (k : Int)), periods := 0 } ∧
        (t.lane l).ctl.tube = some v ∧ v.order = u.order ∧ v.outcome = some (u.outcome.getD .examined) ∧ v.fault = u.fault

/-- R132, R147: in WITHDRAW the edge that reaches −home_limit stops the motor, flags HOME_FAULT, marks the fault and enters FINISH
with the outcome unchanged. -/
def Obligations.TheHomeLimitStopsAWithdrawal : Prop :=
  ∀ (s : State) (l : LaneId) (u : Tube) (k : Nat),
    (s.lane l).ctl.state = .withdraw → (s.lane l).pos.armedA = false → (s.lane l).pos.armedB = false →
      (s.lane l).drive.enabled = true → (s.lane l).drive.phase = .withdraw → (s.lane l).ctl.tube = some u →
      (s.lane l).pos.scale = some k → 1 ≤ k → fitsS32 (((s.lane l).pos.count - 1) * (k : Int)) →
      ((s.lane l).pos.count - 1) * (k : Int) ≤ -((s.lane l).motion.homeLimit : Int) →
      ∃ (t : State) (v : Tube) (old : EncPhase),
        forwardOf old = (s.lane l).pos.phase ∧ exec (.edge l old) s = .next t ∧ s.sameUnit t ∧ s.sameOther l t ∧
        (t.lane l).ctl.state = .finish ∧ (t.lane l).drive.stopped ∧ (t.lane l).ctl.tube = some v ∧
        v.flags = { u.flags with homeFault := true } ∧ v.fault = some (u.fault.getD .homeLimit) ∧ v.outcome = u.outcome

/-- R28, R29, R126, R127, R128: at a control period's end the speed is |Δ|/10 toward zero with the sign of Δ as direction; while the scale
is unset nothing is measured, the speed is 0 and the direction STILL. A period wholly in PULL counts toward the tube's extremes; an
ENABLED motor gets the duty of the speed loop, and its stall window restarts after the stall distance, the travel without a scale being 0,
or counts the period. Nothing else changes. Deduced: the stall that a window then shows is a step of its own, STALL, so that here the
motor stays ENABLED (log entry 7). -/
def Obligations.ControlPeriodsMeasureAndDrive : Prop :=
  ∀ (s : State) (l : LaneId) (raw : Option Int),
    raw = ((s.lane l).pos.scale.map fun k => (s.lane l).pos.count * (k : Int)) →
      ∃ t : State,
        exec (.controlPeriodEnd l) s = .next t ∧ s.sameUnit t ∧ s.sameOther l t ∧ t.clock = max s.clock (s.lane l).pos.periodEnd ∧
        t.lane l =
          { s.lane l with
            drive := (t.lane l).drive, ctl := { (s.lane l).ctl with tube := (t.lane l).ctl.tube },
            pos :=
              { (s.lane l).pos with
                periodEnd := (s.lane l).pos.periodEnd + 10000000, wholePull := decide ((s.lane l).ctl.state = .pull),
                refPos := (t.lane l).pos.refPos, speed := (t.lane l).pos.speed, direction := (t.lane l).pos.direction } } ∧
        (∀ r : Int, raw = some r →
          (t.lane l).pos.refPos = r ∧ (t.lane l).pos.speed = (r - (s.lane l).pos.refPos).natAbs / 10 ∧
          (t.lane l).pos.direction =
            (if (s.lane l).pos.refPos < r then .forward else if r < (s.lane l).pos.refPos then .reverse else .still)) ∧
        (raw = none →
          (t.lane l).pos.refPos = (s.lane l).pos.refPos ∧ (t.lane l).pos.speed = 0 ∧ (t.lane l).pos.direction = .still) ∧
        ((s.lane l).ctl.tube = none → (t.lane l).ctl.tube = none) ∧
        (∀ u, (s.lane l).ctl.tube = some u → ∃ v, (t.lane l).ctl.tube = some v ∧
          (if (s.lane l).pos.wholePull = true ∧ (s.lane l).ctl.state = .pull then
            v =
              { u with
                minSpeed := some (min (u.minSpeed.getD (t.lane l).pos.speed) (t.lane l).pos.speed),
                maxSpeed := some (max (u.maxSpeed.getD (t.lane l).pos.speed) (t.lane l).pos.speed) }
          else v = u)) ∧
        ((s.lane l).drive.enabled = false → (t.lane l).drive = (s.lane l).drive) ∧
        ((s.lane l).drive.enabled = true →
          (t.lane l).drive =
            { (s.lane l).drive with duty := (t.lane l).drive.duty, window := (t.lane l).drive.window } ∧
          (∃ target speed : Int,
            target =
              (match (s.lane l).drive.phase with
              | .none => 0
              | .insert => ((s.lane l).motion.insertSpeed : Int)
              | .pull =>
                if s.pool.tight then (((s.lane l).effectivePull / 2 : Nat) : Int) else ((s.lane l).effectivePull : Int)
              | .withdraw => ((s.lane l).motion.withdrawSpeed : Int)
              | .retract => ((s.lane l).motion.withdrawSpeed : Int)) ∧
            speed =
              (if (s.lane l).drive.dir = .forward ∧ (t.lane l).pos.direction = .reverse ∨
                  (s.lane l).drive.dir = .reverse ∧ (t.lane l).pos.direction = .forward then
                -((t.lane l).pos.speed : Int)
              else ((t.lane l).pos.speed : Int)) ∧
            ((t.lane l).drive.duty : Int) =
              max 0 (min ((s.lane l).motion.dmax : Int)
                (((s.lane l).drive.duty : Int) + Int.tdiv ((target - speed) * ((s.lane l).motion.kp : Int)) 16))) ∧
          ((s.lane l).drive.window = none → (t.lane l).drive.window = none) ∧
          ∀ (w : StallWindow) (travel : Int), (s.lane l).drive.window = some w →
            travel =
              (match w.start, raw, (s.lane l).drive.dir with
              | some p, some r, .forward => r - p
              | some p, some r, .reverse => p - r
              | _, _, _ => 0) →
            (t.lane l).drive.window =
              some
                (if ((s.lane l).motion.stallDistance : Int) ≤ travel then { start := raw, periods := 0 }
                else { start := w.start, periods := w.periods + 1 }))

/-- R128, R129, R144, R146, R147, R154: a stall stops the motor. In INSERT the tube is RESTRICTED at the raw position of the period end
and the lane withdraws (given no motor fault, probe-home INACTIVE, home limit unreached); in PULL the pull ends in R146's order with
PULL_ENDED, and the tube is STALLED with its fault mark, in WITHDRAW flagged and marked, both in FINISH; a retraction is FAULTED. A window
short of the stall time is no stall. Deduced: a stall is read from the window by this step of its own, at the reference position (log
entry 7). Model's choice: PULL_ENDED and FAULTED precede the pool notice that their buffer causes (log entry 12). -/
def Obligations.StallsEndThePhase : Prop :=
  ∀ (s : State) (l : LaneId) (w : StallWindow),
    (s.lane l).drive.enabled = true → (s.lane l).drive.window = some w →
      (w.periods * 10 < (s.lane l).motion.stallTime → exec (.stall l) s = .next s) ∧
      ((s.lane l).motion.stallTime ≤ w.periods * 10 →
        ∃ t : State,
          exec (.stall l) s = .next t ∧ s.sameOther l t ∧
          ((s.lane l).ctl.state = .insert → (s.lane l).drive.fault.active = false → (s.lane l).drive.home.active = false →
            (s.lane l).atHomeLimit = false →
            (t.lane l).ctl.state = .withdraw ∧ (t.lane l).motorStarted .withdraw .reverse ∧ (t.lane l).pos.armedA = false ∧
            ∀ u, (s.lane l).ctl.tube = some u →
              ∃ v, (t.lane l).ctl.tube = some v ∧ v.outcome = some (u.outcome.getD .restricted) ∧
                v.restriction = some (s.lane l).pos.refPos ∧ v.fault = u.fault) ∧
          ((s.lane l).ctl.state = .pull →
            (t.lane l).ctl.state = .finish ∧ (t.lane l).drive.stopped ∧ (t.lane l).pullClosed ∧
            (∃ q : State,
              (s.setLane l
                { s.lane l with
                  drive :=
                    { (s.lane l).drive with
                      enabled := false, brake := .engaged, duty := 0, phase := .none, window := none } }).pullEnded l q ∧
              t = (q.setLane l ((q.lane l).finishing .stalled .pullStall)).finishWait l) ∧
            ∀ u, (s.lane l).ctl.tube = some u →
              ∃ v, (t.lane l).ctl.tube = some v ∧ v.outcome = some (u.outcome.getD .stalled) ∧
                v.fault = some (u.fault.getD .pullStall)) ∧
          ((s.lane l).ctl.state = .withdraw →
            (t.lane l).ctl.state = .finish ∧ (t.lane l).drive.stopped ∧
            ∀ u, (s.lane l).ctl.tube = some u →
              ∃ v, (t.lane l).ctl.tube = some v ∧ v.outcome = u.outcome ∧ v.flags = { u.flags with withdrawStall := true } ∧
                v.fault = some (u.fault.getD .withdrawStall)) ∧
          ((s.lane l).ctl.state = .retract →
            (t.lane l).ctl.state = .faulted ∧ (t.lane l).drive.stopped ∧
            s.noticed t l .faulted 5 (s.lane l).tag (some .retractStall)))

/-! ### The scan and line capture -/

/-- R4, R5, R11: SWITCH lasts 2000 ns and gives way to SETTLE, which lasts the settle cycles as whole periods and gives way to
INTEGRATE; nothing else changes. Model's choice: a period count that is no whole number of ns ends at the next one (log entry 15). -/
def Obligations.SlotsSwitchAndSettle : Prop :=
  (∀ (s : State) (l : LaneId) (r : Running),
    (s.lane l).exc.run = some r → r.phase = .switch →
      exec (.switchEnd l) s =
        .next
          { s.setLane l { s.lane l with exc := { (s.lane l).exc with run := some { r with phase := .settle } } } with
            clock := max s.clock (r.start + 2000) }) ∧
  (∀ (s : State) (l : LaneId) (r : Running) (k : Slot) (f : Nat),
    (s.lane l).exc.run = some r → r.phase = .settle → (s.lane l).exc.slots[r.slot]? = some k →
      (s.lane l).exc.freqs[k.freqIndex]? = some f → 0 < f →
      ∃ c : Nat,
        k.settle * 1000000000 ≤ c * f ∧ c * f < k.settle * 1000000000 + f ∧
        exec (.settleEnd l) s =
          .next
            { s.setLane l { s.lane l with exc := { (s.lane l).exc with run := some { r with phase := .integrate } } } with
              clock := max s.clock (r.start + 2000 + c) })

/-- R8, R9, R11: at the end of INTEGRATE, a slot time after the slot's start, the raw sample joins the partial cycle; the next slot begins
its SWITCH phase at once, or after the last slot the cycle completes and slot 0 of the next cycle begins at once. R31, R36, R39, R52:
armed line capture takes a completed cycle by its bin and commits what is more than four lines, highest first: the counts and flags of the
tube and the calibration store follow, while they have room; disarmed, or without a scale, it discards the cycle. R44: each line that
leaves the window passes, highest first and one after the other, through the blocks of the lane (`State.commitLine`), and nothing else
happens. R4 to R7: the sample is the average of the converter's output weighted by the drive reference, which stands 2000 ns past a whole
period where INTEGRATE begins. Of an output made of a constant, a part A in phase with the reference, a part B a quarter period ahead, and
harmonics, to within e at each code, X is A and Y is B, 32767 standing for full scale, to within e, half a count of rounding and 2^-40 of
a count; then both saturate, and a code at full scale or a component beyond ±32767 sets the overload mark. Model's choice: the output is a
list of codes at equal intervals, more than two to a cycle, and it holds the harmonics of at least two codes to their own period (log
entry 14); that rounding is from the exact value is deduced (log entry 22). -/
def Obligations.SlotsEndAndFollow : Prop :=
  (∀ (s : State) (l : LaneId) (r : Running) (d : Demod) (k : Slot) (f c due : Nat) (cycle : List Sample) (exc : Excitation),
     (s.lane l).exc.run = some r → r.phase = .integrate → (s.lane l).exc.slots[r.slot]? = some k →
       (s.lane l).exc.freqs[k.freqIndex]? = some f → 0 < f → (k.settle + k.integrate) * 1000000000 ≤ c * f →
       c * f < (k.settle + k.integrate) * 1000000000 + f → due = r.start + c + 2000 →
       cycle = r.partialCycle ++ [sampleOf due f k.integrate d] →
       (r.slot + 1 < (s.lane l).exc.slots.length →
         exec (.slotEnd l d) s =
           .next
             { s.setLane l
                 { s.lane l with
                   exc :=
                     { (s.lane l).exc with
                       run := some { slot := r.slot + 1, phase := .switch, start := due, partialCycle := cycle } } } with
               clock := max s.clock due }) ∧
       ((s.lane l).exc.slots.length ≤ r.slot + 1 →
         exc = { (s.lane l).exc with run := some { slot := 0, phase := .switch, start := due, partialCycle := [] } } →
         ((s.lane l).capture.armed = false ∨ (s.lane l).pos.scale = none →
           exec (.slotEnd l d) s =
             .next { s.setLane l { s.lane l with exc := exc } with clock := max s.clock due }) ∧
         (∀ (scale pitch : Nat) (w : CaptureResult) (out : List CapLine),
           (s.lane l).capture.armed = true → (s.lane l).pos.scale = some scale → (s.lane l).motion.pitch = some pitch →
           w = captureBin (s.lane l).capture.window cycle (Int.fdiv ((s.lane l).pos.count * (scale : Int)) (pitch : Int)) →
           out = w.window.take (w.window.length - 4) →
           ∃ t : State,
             exec (.slotEnd l d) s = .next t ∧
             t =
               out.foldl (State.commitLine l)
                 { s.setLane l
                     { s.lane l with
                       exc := exc,
                       capture := { armed := true, window := w.window.drop (w.window.length - 4) },
                       ctl :=
                         { (s.lane l).ctl with
                           tube :=
                             (s.lane l).ctl.tube.map fun u =>
                               { u with
                                 ignored := if w.ignored then countTube (max s.clock due) u.ignored else u.ignored,
                                 flags :=
                                   { u.flags with
                                     overspeed := u.flags.overspeed || w.overspeed,
                                     reversal := u.flags.reversal || w.ignored } } } } with
                   clock := max s.clock due } ∧
             t.clock = max s.clock due ∧ (t.lane l).exc = exc ∧ s.sameOther l t ∧
             (t.lane l).capture = { armed := true, window := w.window.drop (w.window.length - 4) } ∧
             ((s.lane l).store.length ≤ 2048 → ∀ u, (s.lane l).ctl.tube = some u →
               (t.lane l).store =
                 (if u.order.cal then
                   ((s.lane l).store ++ out.map fun h => ({ index := h.index, samples := h.samples } : StoredLine)).take 2048
                 else (s.lane l).store)) ∧
             (∀ u, (s.lane l).ctl.tube = some u →
               ∃ v, (t.lane l).ctl.tube = some v ∧ v.order = u.order ∧ v.outcome = u.outcome ∧
                 (u.committed + out.length ≤ 4294967295 → v.committed = u.committed + out.length) ∧
                 (u.repeated + (out.filter fun h => h.rep).length ≤ 4294967295 →
                   v.repeated = u.repeated + (out.filter fun h => h.rep).length) ∧
                 (u.ignored < 4294967295 → v.ignored = u.ignored + (if w.ignored then 1 else 0)) ∧
                 v.flags.overspeed = (u.flags.overspeed || w.overspeed) ∧ v.flags.reversal = (u.flags.reversal || w.ignored) ∧
                 v.flags.overload = (u.flags.overload || out.any fun h => h.ovr))))) ∧
  (∀ (now f cycles top n : ℕ) (d : Demod) (e K A B : ℝ) (amplitude phase θ : ℕ → ℝ),
    d.consistent = true → n = d.output.length → 0 < cycles → 2 * cycles < n → 2 * top * cycles ≤ n →
      (∀ i, θ i = 2 * Real.pi * ((f : ℝ) * 2000 / 10 ^ 9 + (cycles : ℝ) * i / n)) →
      (∀ i < n,
        |(d.output.getD i 0 : ℝ) -
          (K + A * Real.sin (θ i) + B * Real.cos (θ i) +
            ∑ h ∈ Finset.Icc 2 top, amplitude h * Real.cos (h * θ i + phase h))| ≤ e) →
      ∃ v : Vec,
        |(v.x : ℝ) - 32767 * A / d.full| ≤ 65534 * e / d.full + 1 / 2 + 1 / 2 ^ 40 ∧
        |(v.y : ℝ) - 32767 * B / d.full| ≤ 65534 * e / d.full + 1 / 2 + 1 / 2 ^ 40 ∧
        sampleOf now f cycles d =
          { value := ⟨max (-32767) (min 32767 v.x), max (-32767) (min 32767 v.y)⟩,
            overload :=
              d.output.any (fun code => decide (d.full ≤ code.natAbs)) || decide (32767 < v.x.natAbs) ||
                decide (32767 < v.y.natAbs) })

/-- R32 to R35: a cycle of bin b creates the first line of an empty window; below a window of consecutive lines it appends the bins
down to b, the skipped ones REPEAT and OVERSPEED with them; within the window it replaces the line of its bin and no other; above it
the cycle is ignored. -/
def Obligations.CyclesAreCapturedByBin : Prop :=
  ∀ (samples : List Sample) (b : Int),
    captureBin [] samples b = { window := [lineOf samples b false], overspeed := false, ignored := false } ∧
    ∀ (h : CapLine) (rest : List CapLine) (low : Int),
      consecutive (h :: rest) = true → low = h.index - (rest.length : Int) →
      (b < low →
        ∃ added : List CapLine,
          (captureBin (h :: rest) samples b).window = (h :: rest) ++ added ∧ added.length = (low - b).toNat ∧
          (∀ i < added.length,
            added[i]? = some (lineOf samples (low - 1 - (i : Int)) (decide (i + 1 < added.length)))) ∧
          (captureBin (h :: rest) samples b).overspeed = decide (b < low - 1) ∧
          (captureBin (h :: rest) samples b).ignored = false) ∧
      (low ≤ b → b ≤ h.index →
        captureBin (h :: rest) samples b =
          { window := (h :: rest).set (h.index - b).toNat (lineOf samples b false), overspeed := false, ignored := false }) ∧
      (h.index < b → captureBin (h :: rest) samples b = { window := h :: rest, overspeed := false, ignored := true })

/-! ### The sequence of a tube -/

/-- R143, R23, R26, R122: a poll's guide test is one more attempt. A pass zeroes the count, arms stop A and starts INSERT (given no
motor fault and a stop A above 0); a failure below the limit waits for the next poll; a failure at the limit is NO_GUIDE and
FINISH. -/
def Obligations.GuidePollsTestTheGuide : Prop :=
  ∀ (s : State) (l : LaneId) (due : Nat) (u : Tube),
    (s.lane l).ctl.state = .guideCheck → (s.lane l).ctl.poll = .running due → (s.lane l).ctl.tube = some u →
      ∃ t : State,
        exec (.guidePoll l) s = .next t ∧ t.clock = max s.clock due ∧ s.sameOther l t ∧
        (if (s.lane l).drive.home.active = true ∧ (s.lane l).drive.guide.active = true ∧ (s.lane l).ctl.rearm = true then
          (s.lane l).drive.fault.active = false → 0 < u.stopA →
            (t.lane l).ctl.state = .insert ∧ (t.lane l).pos.count = 0 ∧ (t.lane l).pos.refPos = 0 ∧
            (t.lane l).pos.armedA = true ∧ (t.lane l).motorStarted .insert .forward ∧
            (t.lane l).ctl.attempts = (s.lane l).ctl.attempts + 1 ∧ (t.lane l).ctl.tube = some { u with enteredInsert := true }
        else if (s.lane l).ctl.attempts + 1 < (s.lane l).motion.attemptLimit then
          t.lane l =
            { s.lane l with
              ctl :=
                { (s.lane l).ctl with
                  attempts := (s.lane l).ctl.attempts + 1,
                  poll := .running (due + (s.lane l).motion.pollInterval * 1000000) } }
        else
          (t.lane l).ctl.state = .finish ∧ (t.lane l).drive.stopped ∧
          ∃ v, (t.lane l).ctl.tube = some v ∧ v.outcome = some (u.outcome.getD .noGuide))

/-- R145, R31, R122: when the dwell runs out, stop B and line capture are armed and the lane enters PULL with a motion start and
PULL_STARTED (given no motor fault and stop B not reached already). Model's choice: PULL_STARTED precedes the pool notice that its
buffer causes (log entry 12). -/
def Obligations.TheDwellEndsInAPull : Prop :=
  ∀ (s : State) (l : LaneId) (due : Nat) (u : Tube) (r : Int),
    (s.lane l).ctl.state = .turn → (s.lane l).ctl.dwell = .running due → (s.lane l).ctl.tube = some u →
      (s.lane l).pos.raw = some r → u.stopB < r → (s.lane l).drive.fault.active = false →
      ∃ t : State,
        exec (.turnDwellEnd l) s = .next t ∧ t.clock = max s.clock due ∧ s.sameOther l t ∧ (t.lane l).ctl.state = .pull ∧
        (t.lane l).pos.armedB = true ∧ (t.lane l).capture = { armed := true, window := [] } ∧
        (t.lane l).motorStarted .pull .reverse ∧ (t.lane l).ctl.tube = some u ∧
        s.noticed t l .pullStarted 1 (some u.order.tag) none

/-- R142, R141, R24, R143: a lane that may takes the front order, opens its tube record with the stops computed then, and makes its first
guide test: a pass starts INSERT (given a stop A above 0), a failure below the limit waits for the next poll, a failure at the limit is
NO_GUIDE and FINISH; inconsistent stops give INVALID and FINISH. A lane that may not is unchanged. Model's choice: TUBE_STARTED precedes
the pool notice that its buffer causes (log entry 12). -/
def Obligations.OrdersAreTakenFromTheFront : Prop :=
  ∀ (s : State) (l : LaneId) (o : Order) (rest : List Order) (a b : Int),
    (s.lane l).ctl.worklist = o :: rest → s.stops l o = (a, b) →
      (((s.lane l).ctl.state ≠ .idle ∨ s.link.up = false ∨ (s.lane l).drive.fault.active = true ∨
          s.hasJob l Job.isSolve = true) →
        exec (.takeOrder l) s = .next s) ∧
      ((s.lane l).ctl.state = .idle → s.link.up = true → (s.lane l).drive.fault.active = false →
        s.hasJob l Job.isSolve = false →
        ((s.lane l).drive.home.active = true → (s.lane l).drive.guide.active = true → (s.lane l).ctl.rearm = true →
          b + ((s.lane l).pitch : Int) < a → 0 < a) →
        ∃ (t : State) (u : Tube),
          exec (.takeOrder l) s = .next t ∧ s.sameOther l t ∧ (t.lane l).ctl.worklist = rest ∧
          (t.lane l).ctl.tube = some u ∧ u.order = o ∧ u.stopA = a ∧ u.stopB = b ∧ u.flags = TubeFlags.clear ∧
          u.fault = none ∧ u.minSpeed = none ∧ u.maxSpeed = none ∧ s.noticed t l .tubeStarted 0 (some o.tag) none ∧
          (if b + ((s.lane l).pitch : Int) < a then
            (t.lane l).ctl.attempts = 1 ∧
            (if (s.lane l).drive.home.active = true ∧ (s.lane l).drive.guide.active = true ∧ (s.lane l).ctl.rearm = true then
              (t.lane l).ctl.state = .insert ∧ u.outcome = none ∧ u.enteredInsert = true ∧ (t.lane l).pos.count = 0 ∧
              (t.lane l).pos.refPos = 0 ∧ (t.lane l).pos.armedA = true ∧ (t.lane l).motorStarted .insert .forward
            else if 1 < (s.lane l).motion.attemptLimit then
              (t.lane l).ctl.state = .guideCheck ∧ u.outcome = none ∧ u.enteredInsert = false ∧
              (t.lane l).ctl.poll = .running (s.clock + (s.lane l).motion.pollInterval * 1000000)
            else
              (t.lane l).ctl.state = .finish ∧ (t.lane l).drive.stopped ∧ u.outcome = some .noGuide ∧
              u.enteredInsert = false)
          else (t.lane l).ctl.state = .finish ∧ u.outcome = some .invalid ∧ u.catalogue = []))

/-- R169, R114, R148, R143, R141, R150: in FINISH, once the wait for jobs has ended and a buffer is free, the next CATALOGUE record is
queued, or after the last of them the SUMMARY with the tube's final values. With the SUMMARY the tube leaves the lane for IDLE, or for
FAULTED with its notice where the fault mark is set and a buffer is left for it. Without a free buffer the report waits. Model's choice:
the record precedes the pool notice that its buffer causes (log entry 12); deduced: the FAULTED notice carries no tag (log entry 21). -/
def Obligations.ReportsAreQueuedInFinish : Prop :=
  ∀ (s : State) (l : LaneId) (u : Tube) (n : Nat),
    (s.lane l).ctl.state = .finish → (s.lane l).ctl.tube = some u → u.located = true → n = (u.catalogue.length + 31) / 32 →
      (s.pool.free = 0 → exec (.reportRecord l) s = .next s) ∧
      (1 ≤ s.pool.free → u.reported < n →
        ∃ (t : State) (more : List Record),
          exec (.reportRecord l) s = .next t ∧ s.sameOther l t ∧
          t.pool.queue =
            s.pool.queue ++
              .catalogue l u.order.tag (u.reported + 1) n ((u.catalogue.drop (32 * u.reported)).take 32) :: more ∧
          (∀ k ∈ more, k = .notice (unitNotice .poolTight) ∨ k = .notice (unitNotice .poolEasy)) ∧
          (t.lane l).ctl = { (s.lane l).ctl with tube := some { u with reported := u.reported + 1 } }) ∧
      (1 ≤ s.pool.free → n ≤ u.reported →
        ∃ (t : State) (more : List Record) (content : Summary) (faulted : Notice),
          exec (.reportRecord l) s = .next t ∧ s.sameOther l t ∧ t.pool.queue = s.pool.queue ++ .summary l content :: more ∧
          content =
            { tag := u.order.tag, row := u.order.row, column := u.order.column, outcome := u.outcome, flags := u.flags,
              restriction := u.restriction, committed := u.committed, lost := u.lost, repeated := u.repeated,
              ignored := u.ignored, entries := u.catalogue.length, records := n, catOverflow := u.catOverflow,
              lmOverflow := (s.lane l).detector.overflow, minSpeed := u.minSpeed, maxSpeed := u.maxSpeed,
              correction := (s.lane l).detector.correction, landmarks := content.landmarks } ∧
          content.landmarks.Perm ((s.lane l).detector.expected ++ (s.lane l).detector.unexpected) ∧
          content.landmarks.Pairwise (fun a b => a.position ≤ b.position) ∧
          (∀ q : Int,
            (content.landmarks.filter fun a => decide (a.position = q)) =
              ((s.lane l).detector.expected ++ (s.lane l).detector.unexpected).filter fun a => decide (a.position = q)) ∧
          faulted = { kind := .faulted, lane := some l, tag := none, cause := u.fault } ∧
          (∀ k ∈ more,
            k = .notice (unitNotice .poolTight) ∨ k = .notice (unitNotice .poolEasy) ∨
              k = .notice faulted ∧ u.fault.isSome = true ∧ s.link.mask.getLsbD 5 = true) ∧
          (u.fault.isSome = true → s.link.mask.getLsbD 5 = true → 4 ≤ s.pool.free → .notice faulted ∈ more) ∧
          (t.lane l).ctl.tube = none ∧
          (t.lane l).ctl.rearm =
            (if u.enteredInsert then !(s.lane l).drive.guide.active else (s.lane l).ctl.rearm) ∧
          (t.lane l).ctl.state = (if u.fault.isSome then .faulted else .idle))

/-! ### The measurement engine -/

/-- R80, R82, R83, R104, R105, R107 to R110, R78, R113, R148: at the completion of a MEASURE job, in whatever state the lane is, the
entry joins the catalogue of the lane's tube with its indication, its Vpp and phase (0 and none for a span of one line) and the depth its
channel's curve gives the phase; a discarded job delivers nothing. In FINISH, when no MEASURE job of the lane is left, the location pass
then gives every entry its location and changes nothing else. The freed engine takes the next job. An entry is inserted in order of
centre line, then channel, those present keeping their order; one that meets a full catalogue evicts the entry of smallest amplitude, of
equal ones the last that joined, or is dropped, and the overflow is counted and flagged. -/
def Obligations.MeasurementsJoinTheCatalogue : Prop :=
  (∀ (s : State) (e : EngineJob) (tag : Nat) (ind : Indication),
    s.engine.busy = some e → e.job = .measure tag ind →
      ∃ t : State,
        exec .jobCompletion s = .next t ∧ t.clock = max s.clock e.doneAt ∧ t.pool = s.pool ∧ t.link = s.link ∧
        t.layouts = s.layouts ∧ t.pending = s.pending ∧ s.tookNext t ∧
        t.lane (otherLane e.lane) = { s.lane (otherLane e.lane) with jobs := (t.lane (otherLane e.lane)).jobs } ∧
        t.lane e.lane =
          { s.lane e.lane with
            jobs := (t.lane e.lane).jobs, ctl := { (s.lane e.lane).ctl with tube := (t.lane e.lane).ctl.tube } } ∧
        ((s.lane e.lane).ctl.tube = none → (t.lane e.lane).ctl.tube = none) ∧
        ∀ u : Tube, (s.lane e.lane).ctl.tube = some u →
          ∃ v : Tube,
            (e.discarded = true → v = u) ∧
            (e.discarded = false →
              ∃ (vpp : Nat) (phase depth : Option Nat) (low high outside : Bool),
                (ind.values.length < 2 → vpp = 0 ∧ phase = none) ∧
                (∀ k : Chord, maxChord ind.values = some k → vpp = vppOf k.d ∧ phase = angleTenths k.c) ∧
                (phase = none → depth = none ∧ low = false ∧ high = false ∧ outside = false) ∧
                (∀ phi, phase = some phi →
                  (depth, low, high, outside) = depthOf ((s.lane e.lane).facets ind.channel).curve phi) ∧
                v =
                  u.join
                    { channel := ind.channel, first := ind.first, last := ind.last, centre := ind.peak,
                      corrected :=
                        max (-2147483648)
                          (min 2147483647 (ind.peak * ((s.lane e.lane).pitch : Int) + ind.correction)),
                      flags :=
                        { long := ind.long, truncated := ind.truncated, unmeasured := false, ovr := ind.ovr,
                          rep := ind.rep, clampedLow := low, clampedHigh := high, outside := outside },
                      vpp := some vpp, phase := phase, depth := depth, location := none, join := 0 }) ∧
            (t.lane e.lane).ctl.tube =
              some
                (if (s.lane e.lane).ctl.state = .finish ∧ u.located = false ∧
                    (s.lane e.lane).jobs.any Job.isMeasure = false then
                  { v with
                    located := true,
                    catalogue :=
                      v.catalogue.map fun c =>
                        { c with
                          location :=
                            locationOf ((s.lane e.lane).detector.expected ++ (s.lane e.lane).detector.unexpected)
                              c.corrected } }
                else v)) ∧
  (∀ phi : Nat, depthOf [] phi = (none, false, false, false)) ∧
  (∀ (curve : List CurvePoint) (p1 pn : CurvePoint) (phi : Nat),
    curve.head? = some p1 → curve.getLast? = some pn → curve.Pairwise (fun a b => b.phase < a.phase) →
      (1800 < phi → depthOf curve phi = (none, false, false, true)) ∧
      (phi ≤ 1800 → p1.phase < phi → depthOf curve phi = (some p1.depth, true, false, false)) ∧
      (phi ≤ 1800 → phi < pn.phase → depthOf curve phi = (some pn.depth, false, true, false)) ∧
      (phi ≤ 1800 → ∀ p ∈ curve, p.phase = phi → depthOf curve phi = (some p.depth, false, false, false)) ∧
      (phi ≤ 1800 → ∀ (i : Nat) (p q : CurvePoint), curve[i]? = some p → curve[i + 1]? = some q → q.phase < phi →
        phi < p.phase → p.depth ≤ q.depth →
        ∃ depth : Nat,
          depthOf curve phi = (some depth, false, false, false) ∧
          2 * (p.phase - q.phase) * depth ≤
            2 * (p.depth * (p.phase - q.phase) + (q.depth - p.depth) * (p.phase - phi)) + (p.phase - q.phase) ∧
          2 * (p.depth * (p.phase - q.phase) + (q.depth - p.depth) * (p.phase - phi)) + (p.phase - q.phase) <
            2 * (p.phase - q.phase) * (depth + 1))) ∧
  (∀ (u : Tube) (e : CatEntry),
    u.catalogue.length < 64 →
      ∃ front back : List CatEntry,
        u.catalogue = front ++ back ∧
        u.join e =
          { u with catalogue := front ++ { e with join := u.joins + 1 } :: back, joins := u.joins + 1 } ∧
        (∀ k ∈ front, k.centre < e.centre ∨ (k.centre = e.centre ∧ k.channel ≤ e.channel)) ∧
        (∀ k, back.head? = some k → e.centre < k.centre ∨ (e.centre = k.centre ∧ e.channel < k.channel))) ∧
  (∀ (u : Tube) (e : CatEntry),
    u.catalogueLegal → u.catalogue.length = 64 →
      (u.join e).catOverflow = (if u.catOverflow < 65535 then u.catOverflow + 1 else u.catOverflow) ∧
      (u.join e).flags = { u.flags with catOverflow := true } ∧
      ((∀ k ∈ u.catalogue, e.amplitude ≤ k.amplitude) → (u.join e).catalogue = u.catalogue ∧ (u.join e).joins = u.joins) ∧
      (∀ w ∈ u.catalogue, w.amplitude < e.amplitude →
        (∀ k ∈ u.catalogue, w.amplitude < k.amplitude ∨ (w.amplitude = k.amplitude ∧ k.join ≤ w.join)) →
        (u.join e).joins = u.joins + 1 ∧ (u.join e).catalogueLegal ∧
        (u.join e).catalogue.Perm ({ e with join := u.joins + 1 } :: u.catalogue.erase w) ∧
        (u.catalogue.erase w).Sublist (u.join e).catalogue))

/-- R57, R58, R60, R61, R178: at the completion of a SPAN or SOLVE job the coefficient found is installed and reported with the
chord or the residual Vpp; a failed solve installs nothing and is answered SPAN_WEAK or GAIN_RANGE. The reply goes to the request in
flight, the handler is FREE and the engine takes the next job. R57, R60: a chord shorter than 64 counts, and a Den of 0, are SPAN_WEAK;
the coefficients are the rounded quotients, GAIN_RANGE outside 16 bits. R54, R82: two values or more have a max chord, the greatest of
their pairs, and of equal ones the pair whose earlier member comes first, then the one whose later member does; its angle is the nearest
tenth of a degree to the true angle. Rounding from sines, cosines and angles is stated up to 2^-40 of a unit; that it is from the exact
value is deduced (log entry 22). -/
def Obligations.SolvesAreAnsweredAtCompletion : Prop :=
  (∀ (s : State) (e : EngineJob) (ch amplitude phase : Nat) (values : List Vec) (k : Chord) (hdr : Header),
    s.engine.busy = some e → e.job = .span ch amplitude phase values → e.discarded = false → maxChord values = some k →
      s.link.handler = .working hdr → s.link.slot = none → ch < (s.lane e.lane).bases.length →
      ∃ (t : State) (r : Reply) (bases : List BaseChannel),
        exec .jobCompletion s = .next t ∧ t.clock = max s.clock e.doneAt ∧ t.pool = s.pool ∧ t.layouts = s.layouts ∧
        s.tookNext t ∧ t.link.handler = .free ∧ t.link.requests = s.link.requests ∧
        (t.link.slot = some r ∨ ∃ due, t.link.tx = .sending .reply (frameOf r.payload) due) ∧ r.hdr = hdr ∧
        t.lane (otherLane e.lane) = { s.lane (otherLane e.lane) with jobs := (t.lane (otherLane e.lane)).jobs } ∧
        t.lane e.lane =
          { s.lane e.lane with bases := bases, jobs := (t.lane e.lane).jobs, ctl := (t.lane e.lane).ctl } ∧
        ((s.lane e.lane).ctl.state ≠ .finish → (t.lane e.lane).ctl = (s.lane e.lane).ctl) ∧
        (match solveSpan amplitude phase k with
        | .ok (kc, ks) =>
          bases = (s.lane e.lane).bases.set ch { (s.lane e.lane).base ch with kc := kc, ks := ks } ∧ r.code = .ok ∧
          r.body = .spanCal (angleTenths k.c) (vppOf k.d) (some (kc, ks))
        | .error .spanWeak =>
          bases = (s.lane e.lane).bases ∧ r.code = .spanWeak ∧ r.body = .spanCal (angleTenths k.c) (vppOf k.d) none
        | .error .gainRange =>
          bases = (s.lane e.lane).bases ∧ r.code = .gainRange ∧
          r.body = .spanCal (angleTenths k.c) (vppOf k.d) none)) ∧
  (∀ (s : State) (e : EngineJob) (ch : Nat) (ps qs : List Vec) (hdr : Header) (d : MixDef),
    s.engine.busy = some e → e.job = .solve ch ps qs → e.discarded = false → s.link.handler = .working hdr →
      s.link.slot = none → 16 ≤ ch → 2 ≤ ps.length → ps.length = qs.length →
      ch - 16 < (s.lane e.lane).mixes.length → ((s.lane e.lane).mix ch).defn = some d →
      ∃ (t : State) (r : Reply) (mixes : List MixChannel),
        exec .jobCompletion s = .next t ∧ t.clock = max s.clock e.doneAt ∧ t.pool = s.pool ∧ t.layouts = s.layouts ∧
        s.tookNext t ∧ t.link.handler = .free ∧ t.link.requests = s.link.requests ∧
        (t.link.slot = some r ∨ ∃ due, t.link.tx = .sending .reply (frameOf r.payload) due) ∧ r.hdr = hdr ∧
        t.lane (otherLane e.lane) = { s.lane (otherLane e.lane) with jobs := (t.lane (otherLane e.lane)).jobs } ∧
        t.lane e.lane =
          { s.lane e.lane with mixes := mixes, jobs := (t.lane e.lane).jobs, ctl := (t.lane e.lane).ctl } ∧
        ((s.lane e.lane).ctl.state ≠ .finish → (t.lane e.lane).ctl = (s.lane e.lane).ctl) ∧
        (match solveMixCoefficient ps qs with
        | .ok (mc, ms) =>
          mixes =
            (s.lane e.lane).mixes.set (ch - 16)
              { (s.lane e.lane).mix ch with defn := some { d with mc := mc, ms := ms } } ∧
          r.code = .ok ∧
          ∀ k, maxChord (List.zipWith (mixValue mc ms) ps qs) = some k → r.body = .solveMix mc ms (vppOf k.d)
        | .error .spanWeak => mixes = (s.lane e.lane).mixes ∧ r.code = .spanWeak ∧ r.body = .empty
        | .error .gainRange => mixes = (s.lane e.lane).mixes ∧ r.code = .gainRange ∧ r.body = .empty)) ∧
  (∀ (amplitude phase : Nat) (k : Chord),
    amplitude ≤ 30000 → phase < 3600 → (k.d : Int) = k.c.x * k.c.x + k.c.y * k.c.y →
      (k.d < 4096 → solveSpan amplitude phase k = .error .spanWeak) ∧
      (4096 ≤ k.d →
        ∃ kc ks : Int,
          solveSpan amplitude phase k =
            (if -32768 ≤ kc ∧ kc ≤ 32767 ∧ -32768 ≤ ks ∧ ks ≤ 32767 then .ok (kc, ks) else .error .gainRange) ∧
          (∀ θ : ℝ, (k.c.x : ℝ) = √(k.d : ℝ) * Real.cos θ → (k.c.y : ℝ) = √(k.d : ℝ) * Real.sin θ →
            |(kc : ℝ) - 4096 * ((amplitude : ℝ) / √(k.d : ℝ)) * Real.cos (phase * (Real.pi / 1800) - θ)| ≤ 1 / 2 + 1 / 2 ^ 40 ∧
            |(ks : ℝ) - 4096 * ((amplitude : ℝ) / √(k.d : ℝ)) * Real.sin (phase * (Real.pi / 1800) - θ)| ≤ 1 / 2 + 1 / 2 ^ 40) ∧
          (∀ c s : Int, (phase, c, s) ∈ ([(0, 1, 0), (900, 0, 1), (1800, -1, 0), (2700, 0, -1)] : List (Nat × Int × Int)) →
            kc = roundDiv (4096 * (amplitude : Int) * (c * k.c.x + s * k.c.y)) k.d ∧
            ks = roundDiv (4096 * (amplitude : Int) * (s * k.c.x - c * k.c.y)) k.d))) ∧
  (∀ (ps qs : List Vec) (nr ni den mc ms : Int),
    ps.length = qs.length → nr = (List.zipWith (fun p q : Vec => p.x * q.x + p.y * q.y) ps qs).sum →
      ni = (List.zipWith (fun p q : Vec => p.y * q.x - p.x * q.y) ps qs).sum →
      den = (qs.map fun q => q.x * q.x + q.y * q.y).sum → mc = roundDiv (4096 * nr) den.natAbs →
      ms = roundDiv (4096 * ni) den.natAbs →
      (den = 0 → solveMixCoefficient ps qs = .error .spanWeak) ∧
      (den ≠ 0 →
        solveMixCoefficient ps qs =
          (if -32768 ≤ mc ∧ mc ≤ 32767 ∧ -32768 ≤ ms ∧ ms ≤ 32767 then .ok (mc, ms) else .error .gainRange))) ∧
  (∀ c : Vec,
    (c.x = 0 ∧ c.y = 0 → angleTenths c = none) ∧
    (c.x ≠ 0 ∨ c.y ≠ 0 →
      ∃ (k : Nat) (θ : ℝ),
        angleTenths c = some k ∧ k < 3600 ∧ (c.x : ℝ) = √((c.x : ℝ) ^ 2 + (c.y : ℝ) ^ 2) * Real.cos θ ∧
        (c.y : ℝ) = √((c.x : ℝ) ^ 2 + (c.y : ℝ) ^ 2) * Real.sin θ ∧ |θ * (1800 / Real.pi) - k| ≤ 1 / 2 + 1 / 2 ^ 40)) ∧
  (∀ values : List Vec,
    (values.length < 2 → maxChord values = none) ∧
    (2 ≤ values.length →
      ∃ (k : Chord) (i j : Nat) (p q : Vec),
        maxChord values = some k ∧ i < j ∧ values[i]? = some p ∧ values[j]? = some q ∧ k = chordOf p q ∧
        ∀ (i' j' : Nat) (p' q' : Vec), i' < j' → values[i']? = some p' → values[j']? = some q' →
          (chordOf p' q').d ≤ k.d ∧ ((chordOf p' q').d = k.d → i < i' ∨ (i = i' ∧ j ≤ j'))))

/-! ### Arithmetic and formats -/

/-- 00_scope 5 (Rounding), R54: `roundDiv` gives the nearest integer, a half going away from zero; Vpp is the integer nearest to the
length of the chord. -/
def Obligations.RoundingIsNearest : Prop :=
  (∀ (n : Int) (d : Nat), 0 < d →
    2 * (n - roundDiv n d * (d : Int)).natAbs ≤ d ∧
    (2 * (n - roundDiv n d * (d : Int)).natAbs = d → n.natAbs < (roundDiv n d * (d : Int)).natAbs)) ∧
  (∀ d : Nat, 4 * d < (2 * vppOf d + 1) ^ 2 ∧ (0 < vppOf d → (2 * vppOf d - 1) ^ 2 < 4 * d))

/-- R45, R46, R66 to R76, R106, R163 to R168, R37: what a committed line does, and the flush's lines in turn, highest first. An active
base channel's value is its nulled sample turned and scaled, rounded, then saturated; an active mix's is P minus the turned Q, saturated;
an inactive channel has none. A screened channel steps through QUIET, CONFIRMING, OPEN and RELEASING against its baseline. An indication's
span runs from its first line to the last one at or above the close threshold; those that close on a line are handed on in ascending
channel number, as a MEASURE job while the lane's queue holds fewer than 4, else as an UNMEASURED entry at once. The ROI opens on a line
on which a channel leaves QUIET and ends after 32 quiet lines. At the end of the pull candidates are discarded, open indications close
TRUNCATED in ascending channel number with the tube's flag, and the ROI ends. A block assembler appends the line to its block, opens one
while more than 16 buffers are free, closes it at a change of the correction, at capacity, at a region's end and at the end of the pull,
and else loses the line; lines outside a region go to the history ring, which a region's first line places first and the end of the pull
empties. Model's choice: the pool is tested as a block opens, before its first line is appended (log entry 12), and at the end of the pull
the line assembler closes its block first (log entry 30). -/
def Obligations.CommittedLinesAreScreenedAndPlaced : Prop :=
  (∀ (x : Lane) (samples : List Vec) (ch : Nat),
    (x.active ch = false → x.channelValue samples ch = none) ∧
    (∀ dx dy : Int, ch < 16 → ch < x.exc.slots.length → dx = (samples.getD ch ⟨0, 0⟩).x - (x.base ch).null.x →
      dy = (samples.getD ch ⟨0, 0⟩).y - (x.base ch).null.y →
      x.channelValue samples ch =
        some
          ⟨max (-32767) (min 32767 (roundDiv ((x.base ch).kc * dx - (x.base ch).ks * dy) 4096)),
            max (-32767) (min 32767 (roundDiv ((x.base ch).ks * dx + (x.base ch).kc * dy) 4096))⟩) ∧
    (∀ (d : MixDef) (p q : Vec), 16 ≤ ch → ch < 20 → (x.mix ch).defn = some d → d.p < 16 → d.q < 16 →
      x.channelValue samples d.p = some p → x.channelValue samples d.q = some q →
      x.channelValue samples ch =
        some
          ⟨max (-32767) (min 32767 (p.x - roundDiv (d.mc * q.x - d.ms * q.y) 4096)),
            max (-32767) (min 32767 (p.y - roundDiv (d.ms * q.x + d.mc * q.y) 4096))⟩)) ∧
  (∀ (set : Screening) (k : Screen) (index : Int) (v b : Vec) (ovr rep : Bool) (d n : Nat) (span : List SpanEntry)
      (out : ScreenStep),
    out = stepScreen set k index v ovr rep → b = k.baseline.getD v →
      d =
        (match set.component with
        | .vert => (v.y - b.y).natAbs
        | .max => max (v.x - b.x).natAbs (v.y - b.y).natAbs) →
      span = k.span ++ [{ index := index, value := v, dev := d, ovr := ovr, rep := rep }] →
      (k.phase = .quiet → d < set.openTh →
        out.closed = none ∧
        out.screen =
          { phase := .quiet, count := 0, span := k.span,
            baseline :=
              some ⟨b.x + Int.tdiv (v.x - b.x) (2 ^ set.shift), b.y + Int.tdiv (v.y - b.y) (2 ^ set.shift)⟩ }) ∧
      (k.phase = .confirming → d < set.openTh →
        out.closed = none ∧ out.screen = { phase := .quiet, baseline := some b, count := 0, span := [] }) ∧
      (k.phase = .quiet ∧ n = 1 ∨ k.phase = .confirming ∧ n = k.count + 1 → set.openTh ≤ d →
        out.closed = none ∧
        out.screen =
          (if set.confirm ≤ n then { phase := .opened, baseline := some b, count := 0, span := span }
          else { phase := .confirming, baseline := some b, count := n, span := span })) ∧
      (k.phase = .opened ∧ n = 1 ∨ k.phase = .releasing ∧ n = k.count + 1 →
        (256 ≤ span.length →
          out = { screen := { phase := .quiet, baseline := some v, count := 0, span := [] }, closed := some span, long := true }) ∧
        (span.length < 256 → set.closeTh ≤ d →
          out.closed = none ∧ out.screen = { phase := .opened, baseline := some b, count := 0, span := span }) ∧
        (span.length < 256 → d < set.closeTh →
          (n < set.release →
            out.closed = none ∧ out.screen = { phase := .releasing, baseline := some b, count := n, span := span }) ∧
          (set.release ≤ n →
            out =
              { screen := { phase := .quiet, baseline := some b, count := 0, span := [] }, closed := some span,
                long := false })))) ∧
  (∀ (ch closeTh : Nat) (core tail : List SpanEntry) (first last : SpanEntry) (long truncated : Bool) (correction : Int),
    core.head? = some first → core.getLast? = some last → closeTh ≤ last.dev → (∀ e ∈ tail, e.dev < closeTh) →
      ∃ (peak : SpanEntry) (i : Nat),
        core[i]? = some peak ∧
        (∀ (j : Nat) (q : SpanEntry), core[j]? = some q → q.dev ≤ peak.dev ∧ (j < i → q.dev < peak.dev)) ∧
        indicationOf ch closeTh (core ++ tail) long truncated correction =
          some
            { channel := ch, first := first.index, last := last.index, peak := peak.index,
              values := core.map fun e => e.value, ovr := core.any fun e => e.ovr, rep := core.any fun e => e.rep,
              long := long, truncated := truncated, correction := correction }) ∧
  (∀ left outside : Bool,
    roiStep none left outside =
      (if left then (some 0, { within := true, first := true, last := false })
      else (none, { within := false, first := false, last := false })) ∧
    ∀ quiet : Nat,
      roiStep (some quiet) left outside =
        (if outside then (some 0, { within := true, first := false, last := false })
        else if quiet < 31 then (some (quiet + 1), { within := true, first := false, last := false })
        else (none, { within := true, first := false, last := true }))) ∧
  (∀ (s : State) (l : LaneId) (x y : Lane) (c : CapLine) (line : ChanLine),
    x = s.lane l → x.screens.length = 20 → line = x.chanLine c →
      y = ((x.updTube fun u => u.countCommit s.clock c).storeLine c).landmarkLine line →
      ∃ (w : State) (out : Nat → Option ScreenStep) (after : List Screen) (left outside : Bool),
        State.commitLine l s c =
          (w.lineAssembler l line (roiStep x.roi left outside).2).regionAssembler l line (roiStep x.roi left outside).2 ∧
        (∀ ch < 20,
          out ch =
            if x.screened ch then
              (line.value ch).map fun v =>
                stepScreen (x.facets ch).screening (x.screens.getD ch Screen.reset) c.index v c.ovr c.rep
            else none) ∧
        after.length = 20 ∧
        (∀ ch < 20,
          after[ch]? =
            some
              (match out ch with
              | some r => r.screen
              | none => x.screens.getD ch Screen.reset)) ∧
        (left = true ↔
          ∃ ch < 20, x.screened ch = true ∧ (x.screens.getD ch Screen.reset).phase = .quiet ∧
            (after.getD ch Screen.reset).phase ≠ .quiet) ∧
        (outside = true ↔ ∃ ch < 20, x.screened ch = true ∧ (after.getD ch Screen.reset).phase ≠ .quiet) ∧
        w =
          (List.range 20).foldl
            (fun u ch =>
              match out ch with
              | some { screen := _, closed := some span, long := long } => u.closeSpan l ch span long false
              | _ => u)
            (s.setLane l { y with screens := after, roi := (roiStep x.roi left outside).1 })) ∧
  (∀ (s : State) (l : LaneId) (x : Lane) (closes : Nat → Bool) (after : List Screen),
    x = s.lane l → x.screens.length = 20 →
      (∀ ch,
        closes ch = true ↔
          x.screened ch = true ∧
            ((x.screens.getD ch Screen.reset).phase = .opened ∨ (x.screens.getD ch Screen.reset).phase = .releasing)) →
      after.length = 20 →
      (∀ (ch : Nat) (k : Screen), x.screens[ch]? = some k →
        after[ch]? =
          some
            (if x.screened ch = true ∧ k.phase ≠ .quiet then { phase := .quiet, baseline := k.baseline, count := 0, span := [] }
            else k)) →
      s.screenEnd l =
        (List.range 20).foldl
          (fun u ch => if closes ch then u.closeSpan l ch (x.screens.getD ch Screen.reset).span false true else u)
          (s.setLane l
            { x with
              screens := after, roi := none,
              ctl :=
                { x.ctl with
                  tube :=
                    x.ctl.tube.map fun u =>
                      { u with
                        flags :=
                          { u.flags with truncated := u.flags.truncated || (List.range 20).any closes } } } })) ∧
  (∀ (s : State) (l : LaneId) (ch : Nat) (span : List SpanEntry) (long truncated : Bool),
    s.closeSpan l ch span long truncated =
      (match
        indicationOf ch ((s.lane l).facets ch).screening.closeTh span long truncated (s.lane l).detector.correction with
      | some ind => s.handOn l ind
      | none => s)) ∧
  (∀ (s : State) (l : LaneId) (x : Lane) (ind : Indication) (n : Nat),
    x = s.lane l → n = ind.values.length →
      (x.jobs.length < 4 → s.engine.busy ≠ none →
        s.handOn l ind = s.setLane l { x with jobs := x.jobs ++ [.measure (x.tag.getD 0) ind] }) ∧
      (x.jobs = [] → s.engine.busy = none →
        s.handOn l ind =
          { s with
            engine :=
              { busy :=
                  some
                    { lane := l, job := .measure (x.tag.getD 0) ind, discarded := false,
                      doneAt := s.clock + 4000 + 40 * (n * (n - 1) / 2) },
                servedLast := l } }) ∧
      (4 ≤ x.jobs.length →
        (x.ctl.tube = none → s.handOn l ind = s) ∧
        ∀ u : Tube, x.ctl.tube = some u →
          s.handOn l ind =
            s.setLane l
              { x with
                ctl :=
                  { x.ctl with
                    tube :=
                      some
                        (u.join
                          { channel := ind.channel, first := ind.first, last := ind.last, centre := ind.peak,
                            corrected :=
                              max (-2147483648) (min 2147483647 (ind.peak * (x.pitch : Int) + ind.correction)),
                            flags :=
                              { long := ind.long, truncated := ind.truncated, unmeasured := true, ovr := ind.ovr,
                                rep := ind.rep, clampedLow := false, clampedHigh := false, outside := false },
                            vpp := none, phase := none, depth := none, location := none, join := 0 }) } })) ∧
  (∀ (s : State) (l : LaneId),
    ((s.lane l).capture.window = [] →
      s.flush l = s.setLane l { s.lane l with capture := { armed := false, window := [] } }) ∧
    ∀ (h : CapLine) (rest : List CapLine), (s.lane l).capture.window = h :: rest →
      ∃ t : State,
        t = State.commitLine l
              (s.setLane l { s.lane l with capture := { (s.lane l).capture with window := [] } }) h ∧
        s.flush l =
          (t.setLane l { t.lane l with capture := { (t.lane l).capture with window := rest } }).flush l) ∧
  (∀ (s : State) (l : LaneId) (kind : BlockKind) (line : RingLine) (entry : BlockLine),
    entry = { flags := line.flags, values := line.values } →
      (∀ b : Block, (s.lane l).block kind = some b → b.correction = line.correction →
        b.lines.length + 1 < capacity b.mask.length →
        s.placeLine l kind line = s.setLane l ((s.lane l).setBlock kind (some { b with lines := b.lines ++ [entry] }))) ∧
      (∀ b : Block, (s.lane l).block kind = some b → b.correction = line.correction →
        capacity b.mask.length ≤ b.lines.length + 1 →
        ∃ t : State,
          s.placeLine l kind line = t ∧ t.lane l = (s.lane l).setBlock kind none ∧ s.sameOther l t ∧
          t.pool =
            { s.pool with queue := s.pool.queue ++ [.lineBlock l { b with lines := b.lines ++ [entry] }] }) ∧
      (∀ b : Block, (s.lane l).block kind = some b → b.correction ≠ line.correction →
        ∃ t : State,
          s.placeLine l kind line = t.placeLine l kind line ∧ t.lane l = (s.lane l).setBlock kind none ∧ s.sameOther l t ∧
          t.pool = { s.pool with queue := s.pool.queue ++ [.lineBlock l b] }) ∧
      ((s.lane l).block kind = none → 16 < s.pool.free →
        ∃ t : State,
          s.placeLine l kind line = t ∧ s.sameOther l t ∧
          t.lane l =
            (s.lane l).setBlock kind
              (some
                { kind := kind, tag := (s.lane l).tag.getD 0, first := line.index, mask := (s.lane l).mask kind,
                  correction := line.correction, lines := [entry] }) ∧
          (s.pool.tight = true ∧ s.pool.free ≤ s.pool.resume ∨ s.pool.tight = false ∧ s.pool.low + 1 < s.pool.free →
            t.pool = { s.pool with free := s.pool.free - 1 }) ∧
          (s.pool.tight = false → s.pool.free ≤ s.pool.low + 1 →
            t.pool =
              { s.pool with
                tight := true, free := s.pool.free - 2,
                queue := s.pool.queue ++ [.notice (unitNotice .poolTight)] })) ∧
      ((s.lane l).block kind = none → s.pool.free ≤ 16 → ∀ u, (s.lane l).ctl.tube = some u → u.lost < 4294967295 →
        s.placeLine l kind line =
          s.setLane l
            { s.lane l with
              ctl :=
                { (s.lane l).ctl with
                  tube := some { u with lost := u.lost + 1, flags := { u.flags with dataGap := true } } } })) ∧
  (∀ (s : State) (l : LaneId) (line : ChanLine) (m : RegionMarks) (full region : RingLine),
    full =
        { index := line.index, correction := (s.lane l).detector.correction,
          flags :=
            { ovr := line.ovr, rep := line.rep, region := m.within, regionFirst := m.first, regionLast := m.last,
              history := false },
          values := ((s.lane l).mask .full).map fun ch => (line.value ch).getD ⟨0, 0⟩ } →
      region = { full with values := ((s.lane l).mask .region).map fun ch => (line.value ch).getD ⟨0, 0⟩ } →
      s.lineAssembler l line m = (if (s.lane l).mask .full = [] then s else s.placeLine l .full full) ∧
      ((s.lane l).mask .region = [] → s.regionAssembler l line m = s) ∧
      ((s.lane l).mask .region ≠ [] → m.within = false → (s.lane l).ring.length ≤ 32 →
        s.regionAssembler l line m =
          s.setLane l
            { s.lane l with
              ring := ((s.lane l).ring ++ [region]).drop ((s.lane l).ring.length + 1 - 32) }) ∧
      ((s.lane l).mask .region ≠ [] → m.within = true →
        ∃ (t : State) (lines : List RingLine),
          lines =
            (if m.first then
              ((s.lane l).ring.map fun h => { h with flags := { h.flags with history := true } }) ++ [region]
            else [region]) ∧
          t =
            lines.foldl (fun u h => u.placeLine l .region h)
              (if m.first then s.setLane l { s.lane l with ring := [] } else s) ∧
          (m.last = false → s.regionAssembler l line m = t) ∧
          (m.last = true →
            ∃ w : State,
              s.regionAssembler l line m = w ∧ s.sameOther l w ∧ w.lane l = { t.lane l with regionBlock := none } ∧
              w.pool =
                (match (t.lane l).regionBlock with
                | some b => { t.pool with queue := t.pool.queue ++ [.lineBlock l b] }
                | none => t.pool)))) ∧
  (∀ (s : State) (l : LaneId),
    ∃ t : State,
      s.assemblersEnd l = t ∧ s.sameOther l t ∧ t.layouts = s.layouts ∧ t.engine = s.engine ∧ t.clock = s.clock ∧
      t.pending = s.pending ∧ t.lane l = { s.lane l with lineBlock := none, regionBlock := none, ring := [] } ∧
      t.pool =
        { s.pool with
          queue :=
            s.pool.queue ++
              ((s.lane l).lineBlock.toList ++ (s.lane l).regionBlock.toList).map fun b => .lineBlock l b })

/-- R90 to R99, R113, R148: the expected list holds the class's landmarks from stop B to stop A in pull order, PENDING. At pull start the
detector is anew, its watch on where the landmark channel is active; with the watch off it decides no candidate. A line at or above the
threshold from the reference opens or lengthens a run; a run that reaches ts_min is a tube sheet at its first line, one that began on
the pull's first line is one at its last line when it ends, and another that ends within sp_min to sp_max is a support at its middle. A
candidate first passes as MISSED the entries whose nominal position minus the tolerance lies above its corrected position; it then
matches the pointed entry if that is of its kind and within the tolerance, and moves the correction so that its corrected position
becomes the nominal one; otherwise it is UNEXPECTED, listed up to 16 and then counted, and the correction stays. At the end of the pull
an open run ends and what is left is MISSED. When FINISH's wait ends, the location pass gives every entry its location and changes
nothing else: the offset of its corrected centre from the nearest MATCHED landmark, of equally near ones the lower. -/
def Obligations.LandmarksAreExpectedMatchedAndLocated : Prop :=
  (∀ stopA stopB : Int,
    expectedList none stopA stopB = [] ∧
    ∀ y : Layout,
      ((expectedList (some y) stopA stopB).map fun e => (e.kind, e.ordinal, e.nominal)) =
        ((LandmarkKind.tsf, 0, some (y.length - y.tf)) ::
            (((y.supports.zipIdx 1).reverse.map fun c => (LandmarkKind.support, c.2, some c.1)) ++
              [(LandmarkKind.tsn, 0, some y.tn)])).filter
          (fun k => decide (stopB ≤ k.2.2.getD 0) && decide (k.2.2.getD 0 ≤ stopA)) ∧
      ∀ e ∈ expectedList (some y) stopA stopB, e.state = .pending ∧ e.found = none ∧ e.raw = none) ∧
  (∀ (d : Detector) (tolerance : Nat) (kind : CandidateKind) (p x : Int) (d' : Detector) (missed unexpected : Bool),
    d.matchCandidate tolerance kind p = (d', missed, unexpected) → x = p + d.correction →
      ∃ n : Nat,
        d' =
          { d with
            expected := d'.expected, pointer := d'.pointer, unexpected := d'.unexpected, overflow := d'.overflow,
            correction := d'.correction } ∧
        d.pointer ≤ n ∧ (d.pointer < n → n ≤ d.expected.length) ∧ missed = decide (d.pointer < n) ∧
        d'.expected.length = d.expected.length ∧
        (∀ (i : Nat) (e : LandmarkEntry), d.pointer ≤ i → i < n → d.expected[i]? = some e →
          x < e.nominal.getD 0 - (tolerance : Int) ∧ d'.expected[i]? = some { e with state := .missed }) ∧
        (∀ e : LandmarkEntry, d.expected[n]? = some e → e.nominal.getD 0 - (tolerance : Int) ≤ x) ∧
        (∀ i : Nat, i < d.pointer ∨ n < i → d'.expected[i]? = d.expected[i]?) ∧
        (∀ e : LandmarkEntry, d.expected[n]? = some e →
          (kind = .support ∧ e.kind = .support ∨ kind = .sheet ∧ (e.kind = .tsf ∨ e.kind = .tsn)) →
          (x - e.nominal.getD 0).natAbs ≤ tolerance →
          unexpected = false ∧ d'.pointer = n + 1 ∧ p + d'.correction = e.nominal.getD 0 ∧
          d'.expected[n]? = some { e with state := .matched, found := some x, raw := some p } ∧
          d'.unexpected = d.unexpected ∧ d'.overflow = d.overflow) ∧
        ((∀ e : LandmarkEntry, d.expected[n]? = some e →
            (kind = .support ∧ e.kind = .support ∨ kind = .sheet ∧ (e.kind = .tsf ∨ e.kind = .tsn)) →
            tolerance < (x - e.nominal.getD 0).natAbs) →
          unexpected = true ∧ d'.pointer = n ∧ d'.correction = d.correction ∧ d'.expected[n]? = d.expected[n]? ∧
          (d.unexpected.length < 16 →
            d'.overflow = d.overflow ∧
            d'.unexpected =
              d.unexpected ++
                [{ kind :=
                    (match kind with
                    | .support => .support
                    | .sheet => .sheet),
                   ordinal := 0, state := .unexpected, nominal := none, found := some x, raw := some p }]) ∧
          (16 ≤ d.unexpected.length →
            d'.unexpected = d.unexpected ∧
            d'.overflow = (if d.overflow < 65535 then d.overflow + 1 else d.overflow)))) ∧
  (∀ (x : Lane) (expected : List LandmarkEntry),
    ∃ watch : Bool,
      (watch = true ↔ ∃ ch, x.landmark.channel = some ch ∧ x.active ch = true) ∧
      x.startDetector expected =
        { x with
          detector :=
            { watch := watch, firstTaken := false, run := none, expected := expected, pointer := 0, unexpected := [],
              overflow := 0, correction := 0 } }) ∧
  (∀ (x : Lane) (line : ChanLine),
    (x.detector.watch = false → x.landmarkLine line = { x with detector := { x.detector with firstTaken := true } }) ∧
    ∀ (ch : Nat) (v : Vec) (marked : Bool) (run : Option LandmarkRun) (cand : Option (CandidateKind × Int)),
      x.detector.watch = true → x.landmark.channel = some ch → line.value ch = some v →
        marked =
          decide (x.landmark.threshold ≤ max (v.x - x.landmark.ref.x).natAbs (v.y - x.landmark.ref.y).natAbs) →
        (marked = true →
          ∃ r : LandmarkRun,
            r =
              (match x.detector.run with
              | none => { first := line.index, len := 1, onFirst := !x.detector.firstTaken, decided := false }
              | some q => { q with len := q.len + 1 }) ∧
            (if r.onFirst = false ∧ r.decided = false ∧ x.landmark.tsMin ≤ r.len then
              run = some { r with decided := true } ∧ cand = some (.sheet, r.first)
            else run = some r ∧ cand = none)) →
        (marked = false → run = none ∧ (x.detector.run = none → cand = none) ∧
          ∀ r : LandmarkRun, x.detector.run = some r → cand = r.ending x.landmark) →
        x.landmarkLine line = ({ x with detector := { x.detector with firstTaken := true, run := run } } : Lane).decided cand) ∧
  (∀ (x : Lane) (y : Lane) (d : Detector),
    y = ({ x with detector := { x.detector with run := none } } : Lane).decided
          (x.detector.run.bind fun r => r.ending x.landmark) → d = y.detector →
      ∃ rest : List LandmarkEntry,
        rest.length = d.expected.length ∧
        (∀ i, rest[i]? = if i < d.pointer then d.expected[i]? else d.expected[i]?.map fun e => { e with state := .missed }) ∧
        x.landmarkEnd =
          { y with
            detector := { d with expected := rest, pointer := max d.pointer d.expected.length },
            ctl :=
              { y.ctl with
                tube :=
                  y.ctl.tube.map fun u =>
                    { u with
                      flags := { u.flags with lmMissed := u.flags.lmMissed || decide (d.pointer < d.expected.length) } } } }) ∧
  (∀ (s : State) (l : LaneId) (u : Tube),
    (s.lane l).ctl.state = .finish → (s.lane l).ctl.tube = some u →
      (u.located = true ∨ (s.lane l).jobs.any Job.isMeasure = true ∨
          (∃ e, s.engine.busy = some e ∧ e.lane = l ∧ e.discarded = false ∧ e.job.isMeasure = true) →
        s.finishWait l = s) ∧
      (u.located = false → (s.lane l).jobs.any Job.isMeasure = false →
        (∀ e, s.engine.busy = some e → e.lane = l → e.discarded = false → e.job.isMeasure = false) →
        s.finishWait l =
          s.setLane l
            { s.lane l with
              ctl :=
                { (s.lane l).ctl with
                  tube :=
                    some
                      { u with
                        located := true,
                        catalogue :=
                          u.catalogue.map fun c =>
                            { c with
                              location :=
                                locationOf ((s.lane l).detector.expected ++ (s.lane l).detector.unexpected)
                                  c.corrected } } } })) ∧
  (∀ (landmarks : List LandmarkEntry) (x : Int),
    ((∀ m ∈ landmarks, m.state ≠ .matched) → locationOf landmarks x = none) ∧
    (∀ m ∈ landmarks, m.state = .matched → m.nominal ≠ none → locationOf landmarks x ≠ none) ∧
    (∀ (m : LandmarkEntry) (n : Int), m ∈ landmarks → m.state = .matched → m.nominal = some n →
      (∀ m' ∈ landmarks, ∀ n' : Int, m'.state = .matched → m'.nominal = some n' →
        (x - n).natAbs < (x - n').natAbs ∨ ((x - n).natAbs = (x - n').natAbs ∧ n < n') ∨ m' = m) →
      locationOf landmarks x =
        some
          { kind := m.kind, ordinal := m.ordinal,
            offset := max (-2147483648) (min 2147483647 (x - n)) }))

/-- 11.4, 11.5, R187: a reply has 5 bytes and those of its fields: 116 with STATUS's, 6 with SET_LINK's, 2 with SET_LAYOUT's, 16 with
SET_SCAN's, 12 with SET_CHANNEL's, 1 with those of SET_MIX, SET_LANDMARK and CANCEL_TUBE, 12 with those of SET_MOTION and QUEUE_TUBE, 8 or
12 with SPAN_CAL's, 8 with SOLVE_MIX's. A LINE_BLOCK of c lines over k channels has 24 + c(4 + 4k) bytes, at most 2008 within the block's
capacity; a CATALOGUE of e entries 12 + 36e, a SUMMARY of m landmarks 58 + 16m, a NOTICE 12. -/
def Obligations.PayloadsHaveTheirLengths : Prop :=
  (∀ r : Reply,
    r.payload.length =
      5 +
        (match r.body with
        | .empty => 0
        | .setLink _ _ _ _ => 6
        | .setLayout _ _ => 2
        | .setScan _ _ _ _ => 16
        | .setChannel _ _ _ _ => 12
        | .active _ => 1
        | .setMotion _ _ => 12
        | .queueTube _ _ _ => 12
        | .cancelTube _ => 1
        | .spanCal _ _ none => 8
        | .spanCal _ _ (some _) => 12
        | .solveMix _ _ _ => 8
        | .status _ _ _ => 116)) ∧
  (∀ (l : LaneId) (b : Block),
    (∀ k ∈ b.lines, k.values.length = b.mask.length) →
      (Record.lineBlock l b).payload.length = 24 + b.lines.length * (4 + 4 * b.mask.length) ∧
      (b.lines.length ≤ capacity b.mask.length → (Record.lineBlock l b).payload.length ≤ 2008)) ∧
  (∀ (l : LaneId) (tag number count : Nat) (entries : List CatEntry),
    (Record.catalogue l tag number count entries).payload.length = 12 + 36 * entries.length) ∧
  (∀ (l : LaneId) (c : Summary), (Record.summary l c).payload.length = 58 + 16 * c.landmarks.length) ∧
  (∀ n : Notice, (Record.notice n).payload.length = 12)

end Claims
end

