-- ==== Sys2Proof/Laws/Trig.lean ====
section
/-! SUPPORT. The fixed-point sines and cosines keep to their error bound: within `2 ^ (p / 2)` units of 2^-p of the true values. -/

namespace Sys2Proof.Machine

open Real

/-! ### The tails of the series of cos and sin -/

/-- What is left of the alternating series of cos (even k) or sin (odd k) from the term of degree `k` on. -/
noncomputable def trigTail : ℕ → ℝ → ℝ
  | 0, θ => cos θ
  | 1, θ => sin θ
  | k + 2, θ => θ ^ k / (k.factorial : ℝ) - trigTail k θ

theorem trigTail_hasDerivAt : ∀ (k : ℕ) (θ : ℝ), HasDerivAt (trigTail (k + 1)) (trigTail k θ) θ
  | 0, θ => hasDerivAt_sin θ
  | 1, θ => by
    have h := (hasDerivAt_cos θ).const_sub 1
    rw [neg_neg] at h
    have e : trigTail 2 = fun x => 1 - cos x := by funext x; simp [trigTail]
    rw [e]; exact h
  | k + 2, θ => by
    have h1 : HasDerivAt (fun x : ℝ => x ^ (k + 1) / ((k + 1).factorial : ℝ)) (θ ^ k / (k.factorial : ℝ)) θ := by
      have h := (hasDerivAt_pow (k + 1) θ).div_const ((k + 1).factorial : ℝ)
      have e : ((k + 1 : ℕ) : ℝ) * θ ^ (k + 1 - 1) / ((k + 1).factorial : ℝ) = θ ^ k / (k.factorial : ℝ) := by
        rw [Nat.factorial_succ, Nat.cast_mul, Nat.add_sub_cancel]
        field_simp
      rwa [e] at h
    have e : trigTail (k + 3) = fun x => x ^ (k + 1) / ((k + 1).factorial : ℝ) - trigTail (k + 1) x := by
      funext x; rfl
    rw [e]
    exact h1.sub (trigTail_hasDerivAt k θ)

theorem trigTail_zero : ∀ k : ℕ, trigTail (k + 1) 0 = 0
  | 0 => sin_zero
  | 1 => by simp [trigTail]
  | k + 2 => by
    show (0 : ℝ) ^ (k + 1) / _ - trigTail (k + 1) 0 = 0
    rw [trigTail_zero k]; simp

theorem trigTail_nonneg : ∀ (k : ℕ) {θ : ℝ}, 0 ≤ θ → 0 ≤ trigTail (k + 2) θ
  | 0, θ, _ => by
    show 0 ≤ θ ^ 0 / _ - cos θ
    simp [cos_le_one]
  | k + 1, θ, h => by
    have hm : MonotoneOn (trigTail (k + 3)) (Set.Ici 0) := by
      refine monotoneOn_of_deriv_nonneg (convex_Ici 0) ?_ ?_ ?_
      · exact fun x _ => (trigTail_hasDerivAt (k + 2) x).continuousAt.continuousWithinAt
      · exact fun x _ => (trigTail_hasDerivAt (k + 2) x).differentiableAt.differentiableWithinAt
      · intro x hx
        rw [interior_Ici, Set.mem_Ioi] at hx
        rw [(trigTail_hasDerivAt (k + 2) x).deriv]
        exact trigTail_nonneg k hx.le
    have := hm (Set.mem_Ici.2 le_rfl) (Set.mem_Ici.2 h) h
    rwa [trigTail_zero] at this

/-- A tail is no greater than its first term. -/
theorem trigTail_abs_le (k : ℕ) {θ : ℝ} (h : 0 ≤ θ) : |trigTail k θ| ≤ θ ^ k / (k.factorial : ℝ) := by
  match k with
  | 0 => simpa [trigTail] using abs_cos_le_one θ
  | 1 =>
    have := abs_sin_le_abs (x := θ)
    simpa [trigTail, abs_of_nonneg h] using this
  | k + 2 =>
    rw [abs_of_nonneg (trigTail_nonneg k h)]
    have := trigTail_nonneg (k + 2) h
    have e : trigTail (k + 4) θ = θ ^ (k + 2) / ((k + 2).factorial : ℝ) - trigTail (k + 2) θ := rfl
    rw [e] at this
    linarith

/-- A term of the series. -/
noncomputable def trigTerm (k : ℕ) (θ : ℝ) : ℝ := θ ^ k / (k.factorial : ℝ)

theorem trigTerm_succ (k : ℕ) (θ : ℝ) : trigTerm (k + 1) θ = trigTerm k θ * θ / ((k : ℝ) + 1) := by
  unfold trigTerm
  rw [Nat.factorial_succ, Nat.cast_mul, pow_succ]
  push_cast
  field_simp

theorem trigTerm_nonneg (k : ℕ) {θ : ℝ} (h : 0 ≤ θ) : 0 ≤ trigTerm k θ := by unfold trigTerm; positivity

theorem trigTerm_le_two {θ : ℝ} (h0 : 0 ≤ θ) (h1 : θ ≤ 8 / 5) : ∀ k, trigTerm k θ ≤ 2
  | 0 => by simp [trigTerm]
  | 1 => by simp [trigTerm]; linarith
  | k + 2 => by
    have h := trigTerm_le_two h0 h1 (k + 1)
    have hn := trigTerm_nonneg (k + 1) h0
    rw [trigTerm_succ]
    push_cast
    rw [div_le_iff₀ (by positivity)]
    nlinarith [(by positivity : (0 : ℝ) ≤ (k : ℝ))]

/-- With as many terms as places, the term left over is less than one unit. -/
theorem trigTerm_last {θ : ℝ} (h0 : 0 ≤ θ) (h1 : θ ≤ 8 / 5) (p k : ℕ) (hp : 8 ≤ p) (hk : 2 * p ≤ k) :
    (2 : ℝ) ^ p * trigTerm k θ ≤ 1 := by
  induction k, hk using Nat.le_induction with
  | base =>
    unfold trigTerm
    have hf : ((p : ℝ) + 1) ^ p ≤ ((2 * p).factorial : ℝ) := by
      have h := Nat.factorial_mul_pow_le_factorial (m := p) (n := p)
      have h' : (p + 1) ^ p ≤ (2 * p).factorial := by
        calc (p + 1) ^ p ≤ p.factorial * (p + 1) ^ p := Nat.le_mul_of_pos_left _ p.factorial_pos
          _ ≤ (2 * p).factorial := by rw [two_mul]; exact h
      exact_mod_cast h'
    have hpos : (0 : ℝ) < ((2 * p).factorial : ℝ) := by exact_mod_cast Nat.factorial_pos _
    rw [← mul_div_assoc, div_le_one hpos]
    refine le_trans ?_ hf
    rw [pow_mul, ← mul_pow]
    have hp' : (8 : ℝ) ≤ p := by exact_mod_cast hp
    exact pow_le_pow_left₀ (by positivity) (by nlinarith) p
  | succ k hk ih =>
    rw [trigTerm_succ]
    have hn := trigTerm_nonneg k h0
    have hk' : (2 : ℝ) ≤ (k : ℝ) + 1 := by
      have : 2 ≤ k + 1 := by omega
      exact_mod_cast this
    have : trigTerm k θ * θ / ((k : ℝ) + 1) ≤ trigTerm k θ := by
      rw [div_le_iff₀ (by linarith)]
      nlinarith
    nlinarith [pow_pos (two_pos : (0 : ℝ) < 2) p]

/-! ### Quotients of naturals -/

theorem natDiv_real (a b : ℕ) (hb : 0 < b) : ((a / b : ℕ) : ℝ) ≤ (a : ℝ) / b ∧ (a : ℝ) / b < ((a / b : ℕ) : ℝ) + 1 := by
  have hb' : (0 : ℝ) < b := by exact_mod_cast hb
  constructor
  · exact Nat.cast_div_le
  · rw [div_lt_iff₀ hb']
    have h := Nat.lt_mul_div_succ a hb
    have : (a : ℝ) < (b : ℝ) * ((a / b : ℕ) + 1) := by exact_mod_cast h
    linarith

/-! ### The Taylor series in fixed point -/

/-- The next term keeps within three units. -/
theorem taylor_term_close {θ : ℝ} (h0 : 0 ≤ θ) (h1 : θ ≤ 8 / 5) {p x t k : ℕ} (hx : (x : ℝ) = 2 ^ p * θ)
    (ht : |(t : ℝ) - 2 ^ p * trigTerm k θ| ≤ 3) (hk : k = 0 → (t : ℝ) = 2 ^ p) :
    |((t * (x * x / 2 ^ p) / 2 ^ p / ((k + 1) * (k + 2)) : ℕ) : ℝ) - 2 ^ p * trigTerm (k + 2) θ| ≤ 3 := by
  have hP : (0 : ℝ) < 2 ^ p := by positivity
  obtain ⟨f, hf0, hf1, hf⟩ : ∃ f : ℝ, 0 ≤ f ∧ f ≤ 1 ∧ ((x * x / 2 ^ p : ℕ) : ℝ) = 2 ^ p * θ ^ 2 - f := by
    have h := natDiv_real (x * x) (2 ^ p) (by positivity)
    have e : ((x * x : ℕ) : ℝ) / ((2 ^ p : ℕ) : ℝ) = 2 ^ p * θ ^ 2 := by
      push_cast; rw [hx]; field_simp
    rw [e] at h
    exact ⟨2 ^ p * θ ^ 2 - ((x * x / 2 ^ p : ℕ) : ℝ), by linarith [h.1], by linarith [h.2], by ring⟩
  set xx := x * x / 2 ^ p with hxx
  have hm : (0 : ℝ) < ((k : ℝ) + 1) * ((k : ℝ) + 2) := by positivity
  rw [Nat.div_div_eq_div_mul]
  have hq := natDiv_real (t * xx) (2 ^ p * ((k + 1) * (k + 2))) (by positivity)
  have e1 : ((t * xx : ℕ) : ℝ) / ((2 ^ p * ((k + 1) * (k + 2)) : ℕ) : ℝ) =
      ((t : ℝ) * (θ ^ 2 - f / 2 ^ p)) / (((k : ℝ) + 1) * ((k : ℝ) + 2)) := by
    push_cast; rw [hf]; field_simp
  rw [e1] at hq
  have e2 : trigTerm (k + 2) θ = trigTerm k θ * θ ^ 2 / (((k : ℝ) + 1) * ((k : ℝ) + 2)) := by
    rw [show k + 2 = (k + 1) + 1 from rfl, trigTerm_succ, trigTerm_succ]
    push_cast; field_simp; ring
  set r := trigTerm k θ with hr
  have hr0 : 0 ≤ r := trigTerm_nonneg k h0
  have hr2 : r ≤ 2 := trigTerm_le_two h0 h1 k
  have hth : θ ^ 2 ≤ 64 / 25 := by nlinarith
  -- the distance of the exact quotients
  have hd : |((t : ℝ) * (θ ^ 2 - f / 2 ^ p)) / (((k : ℝ) + 1) * ((k : ℝ) + 2)) - 2 ^ p * trigTerm (k + 2) θ| ≤ 2 := by
    rw [e2]
    have e3 : ((t : ℝ) * (θ ^ 2 - f / 2 ^ p)) / (((k : ℝ) + 1) * ((k : ℝ) + 2)) -
        2 ^ p * (r * θ ^ 2 / (((k : ℝ) + 1) * ((k : ℝ) + 2))) =
        (((t : ℝ) - 2 ^ p * r) * (θ ^ 2 - f / 2 ^ p) - r * f) / (((k : ℝ) + 1) * ((k : ℝ) + 2)) := by
      field_simp; ring
    rw [e3, abs_div, abs_of_pos hm, div_le_iff₀ hm]
    have hw : |θ ^ 2 - f / 2 ^ p| ≤ 64 / 25 := by
      have h1P : (1 : ℝ) ≤ 2 ^ p := one_le_pow₀ (by norm_num)
      have : f / 2 ^ p ≤ 1 := by rw [div_le_one hP]; linarith
      have h2 : 0 ≤ f / 2 ^ p := by positivity
      rw [abs_le]; constructor <;> nlinarith [sq_nonneg θ]
    have hrf : |r * f| ≤ 2 := by rw [abs_of_nonneg (by positivity)]; nlinarith
    have htri : |((t : ℝ) - 2 ^ p * r) * (θ ^ 2 - f / 2 ^ p) - r * f| ≤ |(t : ℝ) - 2 ^ p * r| * (64 / 25) + 2 := by
      refine (abs_sub _ _).trans ?_
      rw [abs_mul]
      have := mul_le_mul_of_nonneg_left hw (abs_nonneg ((t : ℝ) - 2 ^ p * r))
      linarith
    rcases Nat.eq_zero_or_pos k with rfl | hkp
    · have h0' : (t : ℝ) - 2 ^ p * r = 0 := by rw [hk rfl, hr]; simp [trigTerm]
      rw [h0'] at htri ⊢
      simp only [abs_zero, zero_mul] at htri ⊢
      push_cast
      linarith
    · have hk1 : (1 : ℝ) ≤ k := by exact_mod_cast hkp
      nlinarith
  rw [abs_le] at hd ⊢
  constructor <;> [linarith [hq.2, hd.1]; linarith [hq.1, hd.2]]

/-- The sum of the series from a close term on is within three units a term of its tail. -/
theorem taylor_close {θ : ℝ} (h0 : 0 ≤ θ) (h1 : θ ≤ 8 / 5) {p x : ℕ} (hx : (x : ℝ) = 2 ^ p * θ) :
    ∀ (fuel t k : ℕ), |(t : ℝ) - 2 ^ p * trigTerm k θ| ≤ 3 → (k = 0 → (t : ℝ) = 2 ^ p) →
      2 ^ p * trigTerm (k + 2 * fuel) θ ≤ 1 →
      |((taylor p (x * x / 2 ^ p) fuel t k : ℤ) : ℝ) - 2 ^ p * trigTail k θ| ≤ 3 * fuel + 3 := by
  have hP : (0 : ℝ) < 2 ^ p := by positivity
  have small : ∀ k : ℕ, |2 ^ p * trigTail k θ| ≤ 2 ^ p * trigTerm k θ := fun k => by
    rw [abs_mul, abs_of_pos hP]
    exact mul_le_mul_of_nonneg_left (trigTail_abs_le k h0) hP.le
  intro fuel
  induction fuel with
  | zero =>
    intro t k _ _ hl
    have := small k
    simp only [taylor, Int.cast_zero, zero_sub, abs_neg]
    simp only [Nat.mul_zero, Nat.add_zero] at hl
    push_cast; linarith
  | succ fuel ih =>
    intro t k ht hk hl
    by_cases h : t = 0
    · subst h
      have hs := small k
      simp only [taylor, if_true, Int.cast_zero, zero_sub, abs_neg]
      rw [abs_le] at ht
      push_cast at ht ⊢
      have : (0 : ℝ) ≤ fuel := by positivity
      linarith [ht.1]
    · have hn := taylor_term_close h0 h1 hx ht hk
      have hi := ih _ (k + 2) hn (fun e => by omega) (by rwa [show k + 2 + 2 * fuel = k + 2 * (fuel + 1) by ring])
      rw [taylor, if_neg h]
      have e : trigTail (k + 2) θ = trigTerm k θ - trigTail k θ := rfl
      rw [e, mul_sub] at hi
      push_cast at hi ⊢
      rw [abs_le] at hi ht ⊢
      constructor <;> linarith [hi.1, hi.2, ht.1, ht.2]

/-! ### π -/

/-- What is left of the alternating series of arctan from the term of degree `2 j + 1` on. -/
noncomputable def arctanTail : ℕ → ℝ → ℝ
  | 0, y => arctan y
  | j + 1, y => y ^ (2 * j + 1) / (2 * j + 1) - arctanTail j y

theorem arctanTail_hasDerivAt : ∀ (j : ℕ) (y : ℝ), HasDerivAt (arctanTail j) (y ^ (2 * j) / (1 + y ^ 2)) y
  | 0, y => by
    have h := hasDerivAt_arctan y
    have e : arctanTail 0 = arctan := by funext x; rfl
    rw [e]; simpa using h
  | j + 1, y => by
    have h1 : HasDerivAt (fun x : ℝ => x ^ (2 * j + 1) / (2 * j + 1)) (y ^ (2 * j)) y := by
      have h := (hasDerivAt_pow (2 * j + 1) y).div_const (2 * (j : ℝ) + 1)
      have e : ((2 * j + 1 : ℕ) : ℝ) * y ^ (2 * j + 1 - 1) / (2 * (j : ℝ) + 1) = y ^ (2 * j) := by
        rw [Nat.add_sub_cancel]; push_cast; field_simp
      rwa [e] at h
    have h := h1.sub (arctanTail_hasDerivAt j y)
    have e : y ^ (2 * j) - y ^ (2 * j) / (1 + y ^ 2) = y ^ (2 * (j + 1)) / (1 + y ^ 2) := by
      have : (1 : ℝ) + y ^ 2 ≠ 0 := by positivity
      field_simp; ring
    rw [e] at h
    exact h

theorem arctanTail_zero : ∀ j : ℕ, arctanTail j 0 = 0
  | 0 => arctan_zero
  | j + 1 => by
    show (0 : ℝ) ^ (2 * j + 1) / _ - arctanTail j 0 = 0
    rw [arctanTail_zero j]; simp

theorem arctanTail_nonneg (j : ℕ) {y : ℝ} (h : 0 ≤ y) : 0 ≤ arctanTail j y := by
  have hm : MonotoneOn (arctanTail j) (Set.Ici 0) := by
    refine monotoneOn_of_deriv_nonneg (convex_Ici 0) ?_ ?_ ?_
    · exact fun x _ => (arctanTail_hasDerivAt j x).continuousAt.continuousWithinAt
    · exact fun x _ => (arctanTail_hasDerivAt j x).differentiableAt.differentiableWithinAt
    · intro x hx
      rw [interior_Ici, Set.mem_Ioi] at hx
      rw [(arctanTail_hasDerivAt j x).deriv]
      positivity
  have := hm (Set.mem_Ici.2 le_rfl) (Set.mem_Ici.2 h) h
  rwa [arctanTail_zero] at this

theorem arctanTail_le (j : ℕ) {y : ℝ} (h : 0 ≤ y) : arctanTail j y ≤ y ^ (2 * j + 1) / (2 * j + 1) := by
  have := arctanTail_nonneg (j + 1) h
  have e : arctanTail (j + 1) y = y ^ (2 * j + 1) / (2 * j + 1) - arctanTail j y := rfl
  rw [e] at this
  linarith

/-- The arctan series in fixed point, within three units a term. -/
theorem arctanInv_close {q p : ℕ} (hq : 2 ≤ q) :
    ∀ (fuel t j : ℕ), |(t : ℝ) - 2 ^ p * ((q : ℝ)⁻¹) ^ (2 * j + 1)| ≤ 2 →
      2 ^ p * ((q : ℝ)⁻¹) ^ (2 * (j + fuel) + 1) ≤ 1 →
      |((arctanInv q fuel t (2 * j + 1) : ℤ) : ℝ) - 2 ^ p * arctanTail j (q : ℝ)⁻¹| ≤ 3 * fuel + 3 := by
  have hP : (0 : ℝ) < 2 ^ p := by positivity
  have hq' : (2 : ℝ) ≤ q := by exact_mod_cast hq
  have hy : (0 : ℝ) ≤ (q : ℝ)⁻¹ := by positivity
  have small : ∀ j : ℕ, 0 ≤ 2 ^ p * arctanTail j (q : ℝ)⁻¹ ∧
      2 ^ p * arctanTail j (q : ℝ)⁻¹ ≤ 2 ^ p * ((q : ℝ)⁻¹) ^ (2 * j + 1) := fun j => by
    refine ⟨mul_nonneg hP.le (arctanTail_nonneg j hy), mul_le_mul_of_nonneg_left ((arctanTail_le j hy).trans ?_) hP.le⟩
    exact div_le_self (by positivity) (by linarith [(by positivity : (0 : ℝ) ≤ (j : ℝ))])
  intro fuel
  induction fuel with
  | zero =>
    intro t j _ hl
    have := small j
    simp only [arctanInv, Int.cast_zero, zero_sub, abs_neg]
    rw [abs_of_nonneg this.1]
    simp only [Nat.add_zero] at hl
    push_cast; linarith
  | succ fuel ih =>
    intro t j ht hl
    by_cases h : t = 0
    · subst h
      have hs := small j
      simp only [arctanInv, if_true, Int.cast_zero, zero_sub, abs_neg]
      rw [abs_of_nonneg hs.1]
      rw [abs_le] at ht
      push_cast at ht ⊢
      have : (0 : ℝ) ≤ fuel := by positivity
      linarith [ht.1]
    · set y := (q : ℝ)⁻¹ with hydef
      have hqy : (q : ℝ) * y = 1 := by rw [hydef]; field_simp
      have hnext : |((t / (q * q) : ℕ) : ℝ) - 2 ^ p * y ^ (2 * (j + 1) + 1)| ≤ 2 := by
        have hd := natDiv_real t (q * q) (by positivity)
        have e1 : (t : ℝ) / ((q * q : ℕ) : ℝ) = t * y ^ 2 := by rw [hydef]; push_cast; field_simp
        rw [e1] at hd
        have e2 : 2 ^ p * y ^ (2 * (j + 1) + 1) = 2 ^ p * y ^ (2 * j + 1) * y ^ 2 := by ring
        have hy2 : y ^ 2 ≤ 1 / 4 := by
          have : y ≤ 1 / 2 := by rw [hydef, inv_le_comm₀ (by linarith) (by norm_num)]; linarith
          nlinarith
        have hy20 : 0 ≤ y ^ 2 := by positivity
        rw [e2]
        rw [abs_le] at ht ⊢
        constructor <;> nlinarith [hd.1, hd.2, ht.1, ht.2]
      have hi := ih (t / (q * q)) (j + 1) hnext (by rwa [show j + 1 + fuel = j + (fuel + 1) by ring])
      have hterm := natDiv_real t (2 * j + 1) (by positivity)
      have e3 : arctanTail (j + 1) y = y ^ (2 * j + 1) / (2 * j + 1) - arctanTail j y := rfl
      rw [e3] at hi
      rw [arctanInv, if_neg h]
      have hj1 : (1 : ℝ) ≤ 2 * (j : ℝ) + 1 := by linarith [(by positivity : (0 : ℝ) ≤ (j : ℝ))]
      have hquot : |(t : ℝ) / ((2 * j + 1 : ℕ) : ℝ) - 2 ^ p * (y ^ (2 * j + 1) / (2 * j + 1))| ≤ 2 := by
        have e4 : (t : ℝ) / ((2 * j + 1 : ℕ) : ℝ) - 2 ^ p * (y ^ (2 * j + 1) / (2 * j + 1)) =
            ((t : ℝ) - 2 ^ p * y ^ (2 * j + 1)) / (2 * j + 1) := by push_cast; field_simp
        rw [e4, abs_div, abs_of_pos (by linarith : (0 : ℝ) < 2 * (j : ℝ) + 1), div_le_iff₀ (by linarith)]
        nlinarith
      have e5 : 2 * j + 1 + 2 = 2 * (j + 1) + 1 := by ring
      rw [e5]
      rw [Int.cast_sub, Int.cast_natCast, Nat.cast_succ]
      rw [abs_le] at hi hquot ⊢
      constructor <;> linarith [hi.1, hi.2, hquot.1, hquot.2, hterm.1, hterm.2]

/-- π in fixed point. -/
theorem piFix_close {p : ℕ} (hp : 16 ≤ p) : |((piFix p : ℕ) : ℝ) - 2 ^ p * π| ≤ 60 * p + 60 := by
  have hP : (0 : ℝ) < 2 ^ p := by positivity
  have start : ∀ q : ℕ, 2 ≤ q →
      |((arctanInv q p (2 ^ p / q) 1 : ℤ) : ℝ) - 2 ^ p * arctan (q : ℝ)⁻¹| ≤ 3 * p + 3 := fun q hq => by
    have hq' : (2 : ℝ) ≤ q := by exact_mod_cast hq
    have hd := natDiv_real (2 ^ p) q (by omega)
    have h := arctanInv_close (p := p) hq p (2 ^ p / q) 0 (by
      push_cast at hd
      simp only [Nat.mul_zero, Nat.zero_add, pow_one, ← div_eq_mul_inv]
      rw [abs_le]; constructor <;> linarith [hd.1, hd.2]) (by
      have hy : (q : ℝ)⁻¹ ≤ 2⁻¹ := inv_anti₀ (by norm_num) hq'
      have h1 : ((q : ℝ)⁻¹) ^ (2 * (0 + p) + 1) ≤ (2⁻¹ : ℝ) ^ p := by
        calc ((q : ℝ)⁻¹) ^ (2 * (0 + p) + 1) ≤ (2⁻¹ : ℝ) ^ (2 * (0 + p) + 1) := pow_le_pow_left₀ (by positivity) hy _
          _ ≤ (2⁻¹ : ℝ) ^ p := pow_le_pow_of_le_one (by norm_num) (by norm_num) (by omega)
      calc 2 ^ p * ((q : ℝ)⁻¹) ^ (2 * (0 + p) + 1) ≤ 2 ^ p * (2⁻¹ : ℝ) ^ p := mul_le_mul_of_nonneg_left h1 hP.le
        _ = 1 := by rw [← mul_pow]; norm_num)
    simpa [arctanTail] using h
  have h5 := start 5 (by norm_num)
  have h239 := start 239 (by norm_num)
  have machin := four_mul_arctan_inv_5_sub_arctan_inv_239
  push_cast at h5 h239
  set a := arctanInv 5 p (2 ^ p / 5) 1
  set b := arctanInv 239 p (2 ^ p / 239) 1
  have hz : |((16 * a - 4 * b : ℤ) : ℝ) - 2 ^ p * π| ≤ 60 * p + 60 := by
    have e : 2 ^ p * π = 16 * (2 ^ p * arctan (5 : ℝ)⁻¹) - 4 * (2 ^ p * arctan (239 : ℝ)⁻¹) := by
      have : π = 16 * arctan (5 : ℝ)⁻¹ - 4 * arctan (239 : ℝ)⁻¹ := by linarith
      rw [this]; ring
    rw [e]
    push_cast
    rw [abs_le] at h5 h239 ⊢
    constructor <;> nlinarith [h5.1, h5.2, h239.1, h239.2]
  have hnn : 0 ≤ 16 * a - 4 * b := by
    have hbig : (60 : ℝ) * p + 60 ≤ 2 ^ p := by
      have : ∀ n : ℕ, 60 * (16 + n) + 60 ≤ 2 ^ (16 + n) := fun n => by
        induction n with
        | zero => norm_num
        | succ n ih => rw [← Nat.add_assoc, pow_succ]; omega
      have h := this (p - 16)
      rw [Nat.add_sub_cancel' hp] at h
      exact_mod_cast h
    have h3 := pi_gt_three
    rw [abs_le] at hz
    have : (0 : ℝ) ≤ ((16 * a - 4 * b : ℤ) : ℝ) := by nlinarith [hz.1]
    exact_mod_cast this
  have e : ((piFix p : ℕ) : ℝ) = ((16 * a - 4 * b : ℤ) : ℝ) := by
    have : ((piFix p : ℕ) : ℤ) = 16 * a - 4 * b := Int.toNat_of_nonneg hnn
    exact_mod_cast this
  rw [e]; exact hz

/-! ### The users' functions -/

theorem units_bound {p : ℕ} (hp : 128 ≤ p) : 33 * (p : ℝ) + 40 ≤ 2 ^ (p / 2) := by
  have key : ∀ n : ℕ, 33 * (2 * (64 + n) + 1) + 40 ≤ 2 ^ (64 + n) := fun n => by
    induction n with
    | zero => norm_num
    | succ n ih => rw [← Nat.add_assoc, pow_succ]; omega
  have h := key (p / 2 - 64)
  rw [Nat.add_sub_cancel' (by omega : 64 ≤ p / 2)] at h
  have h2 : 33 * p + 40 ≤ 2 ^ (p / 2) := by omega
  exact_mod_cast h2

/-- cos and sin of an angle of the first quadrant, within `2 ^ (p / 2)` units (log entry 22). -/
theorem cosSinFix_close {p num den : ℕ} (hp : 128 ≤ p) (hd : 0 < den) (hq : 2 * num ≤ den) :
    |((cosSinFix p num den).1 : ℝ) - 2 ^ p * cos (π * num / den)| ≤ 2 ^ (p / 2) ∧
    |((cosSinFix p num den).2 : ℝ) - 2 ^ p * sin (π * num / den)| ≤ 2 ^ (p / 2) := by
  have hP : (0 : ℝ) < 2 ^ p := by positivity
  have hd' : (0 : ℝ) < den := by exact_mod_cast hd
  have hpi := piFix_close (p := p) (by omega)
  have hu := units_bound hp
  have hratio : (num : ℝ) / den ≤ 1 / 2 := by
    rw [div_le_iff₀ hd']
    have : (2 : ℝ) * num ≤ den := by exact_mod_cast hq
    linarith
  have hratio0 : (0 : ℝ) ≤ (num : ℝ) / den := by positivity
  set x := piFix p * num / den with hx
  set θ : ℝ := (x : ℝ) / 2 ^ p with hθ
  have hxθ : (x : ℝ) = 2 ^ p * θ := by rw [hθ]; field_simp
  have hθ0 : 0 ≤ θ := by positivity
  -- the angle
  have hang : |2 ^ p * θ - 2 ^ p * (π * num / den)| ≤ 30 * p + 31 := by
    have h := natDiv_real (piFix p * num) den hd
    rw [← hx] at h
    have e : ((piFix p * num : ℕ) : ℝ) / den = (piFix p : ℝ) * ((num : ℝ) / den) := by push_cast; ring
    rw [e] at h
    have e2 : 2 ^ p * (π * num / den) = (2 ^ p * π) * ((num : ℝ) / den) := by ring
    rw [← hxθ, e2]
    rw [abs_le] at hpi ⊢
    have hp0 : (0 : ℝ) ≤ p := by positivity
    constructor <;> nlinarith [h.1, h.2, hpi.1, hpi.2]
  have hhalf : (2 : ℝ) ^ (p / 2) ≤ 2 ^ p / 100 := by
    have h1 : (100 : ℝ) * 2 ^ (p / 2) ≤ 2 ^ 64 * 2 ^ (p / 2) := by
      have : (0 : ℝ) < 2 ^ (p / 2) := by positivity
      nlinarith
    have h2 : (2 : ℝ) ^ 64 * 2 ^ (p / 2) ≤ 2 ^ p := by
      rw [← pow_add]
      exact pow_le_pow_right₀ (by norm_num) (by omega)
    linarith
  have hθ1 : θ ≤ 8 / 5 := by
    have h1 : 2 ^ p * (π * num / den) ≤ 2 ^ p * (3.15 / 2) := by
      refine mul_le_mul_of_nonneg_left ?_ hP.le
      have h2 := pi_lt_d2
      rw [mul_div_assoc]
      nlinarith [pi_pos]
    rw [abs_le] at hang
    have hp0 : (0 : ℝ) ≤ p := by positivity
    have h3 : 2 ^ p * θ ≤ 2 ^ p * (8 / 5) := by linarith [hang.2]
    exact le_of_mul_le_mul_left h3 hP
  have hlip : |θ - π * num / den| * 2 ^ p ≤ 30 * p + 31 := by
    have : |2 ^ p * θ - 2 ^ p * (π * num / den)| = |θ - π * num / den| * 2 ^ p := by
      rw [← mul_sub, abs_mul, abs_of_pos hP, mul_comm]
    rw [← this]; exact hang
  have hc := taylor_close hθ0 hθ1 hxθ p (2 ^ p) 0 (by simp [trigTerm]) (fun _ => by push_cast; rfl)
    (trigTerm_last hθ0 hθ1 p _ (by omega) (by omega))
  have hs := taylor_close hθ0 hθ1 hxθ p x 1 (by simp [trigTerm, hxθ]) (fun h => by omega)
    (trigTerm_last hθ0 hθ1 p _ (by omega) (by omega))
  have hcl : |cos θ - cos (π * num / den)| ≤ |θ - π * num / den| := by
    have := abs_cos_sub_cos_le θ (π * num / den)
    exact this
  have hsl : |sin θ - sin (π * num / den)| ≤ |θ - π * num / den| := abs_sin_sub_sin_le θ (π * num / den)
  have fin : ∀ (v : ℤ) (w w' : ℝ), |(v : ℝ) - 2 ^ p * w| ≤ 3 * p + 3 → |w - w'| ≤ |θ - π * num / den| →
      |(v : ℝ) - 2 ^ p * w'| ≤ 2 ^ (p / 2) := fun v w w' h1 h2 => by
    have h3 : |2 ^ p * w - 2 ^ p * w'| ≤ 30 * p + 31 := by
      rw [← mul_sub, abs_mul, abs_of_pos hP, mul_comm]
      exact (mul_le_mul_of_nonneg_right h2 hP.le).trans hlip
    have h4 := abs_sub_le (v : ℝ) (2 ^ p * w) (2 ^ p * w')
    linarith
  exact ⟨fin _ _ _ hc hcl, fin _ _ _ hs hsl⟩

/-- Quarter turns keep the error bound. -/
theorem quarterTurns_close {p : ℕ} {cs : ℤ × ℤ} {θ e : ℝ} (q : ℕ) (hq : q < 4)
    (hc : |(cs.1 : ℝ) - 2 ^ p * cos θ| ≤ e) (hs : |(cs.2 : ℝ) - 2 ^ p * sin θ| ≤ e) :
    |((quarterTurns q cs).1 : ℝ) - 2 ^ p * cos (q * (π / 2) + θ)| ≤ e ∧
    |((quarterTurns q cs).2 : ℝ) - 2 ^ p * sin (q * (π / 2) + θ)| ≤ e := by
  have neg : ∀ (v : ℤ) (w : ℝ), |(v : ℝ) - 2 ^ p * w| ≤ e → |((-v : ℤ) : ℝ) - 2 ^ p * -w| ≤ e := fun v w h => by
    have : ((-v : ℤ) : ℝ) - 2 ^ p * -w = -((v : ℝ) - 2 ^ p * w) := by push_cast; ring
    rwa [this, abs_neg]
  interval_cases q
  · simpa [quarterTurns] using ⟨hc, hs⟩
  · have e1 : ((1 : ℕ) : ℝ) * (π / 2) + θ = θ + π / 2 := by push_cast; ring
    rw [e1, cos_add_pi_div_two, sin_add_pi_div_two]
    exact ⟨neg _ _ hs, hc⟩
  · have e1 : ((2 : ℕ) : ℝ) * (π / 2) + θ = θ + π := by push_cast; ring
    rw [e1, cos_add_pi, sin_add_pi]
    exact ⟨neg _ _ hc, neg _ _ hs⟩
  · have e1 : ((3 : ℕ) : ℝ) * (π / 2) + θ = (θ + π / 2) + π := by push_cast; ring
    rw [e1, cos_add_pi, sin_add_pi, cos_add_pi_div_two, sin_add_pi_div_two, neg_neg]
    exact ⟨hs, neg _ _ hc⟩

/-- cos and sin of tenths of a degree, within `2 ^ (p / 2)` units (R57; log entry 22). -/
theorem cosSinTenths_close {p phi : ℕ} (hp : 128 ≤ p) (h : phi < 3600) :
    |((cosSinTenths p phi).1 : ℝ) - 2 ^ p * cos (phi * (π / 1800))| ≤ 2 ^ (p / 2) ∧
    |((cosSinTenths p phi).2 : ℝ) - 2 ^ p * sin (phi * (π / 1800))| ≤ 2 ^ (p / 2) := by
  have hb := cosSinFix_close (p := p) (num := phi % 900) (den := 1800) hp (by norm_num) (by omega)
  have ht := quarterTurns_close (phi / 900) (by omega) hb.1 hb.2
  have e : ((phi / 900 : ℕ) : ℝ) * (π / 2) + π * ((phi % 900 : ℕ) : ℝ) / ((1800 : ℕ) : ℝ) = phi * (π / 1800) := by
    have : (phi : ℝ) = 900 * ((phi / 900 : ℕ) : ℝ) + ((phi % 900 : ℕ) : ℝ) := by exact_mod_cast (Nat.div_add_mod phi 900).symm
    rw [this]; push_cast; ring
  rw [e] at ht
  exact ht

/-- The test against a half-way angle is right up to the error bound (R54; log entry 22). -/
theorem aboveHalf_close (a b n : ℕ) (h : 2 * n + 1 ≤ 1800) :
    (aboveHalf a b n = true →
      (a : ℝ) * sin (π * (2 * n + 1) / 3600) ≤ b * cos (π * (2 * n + 1) / 3600) + (a + b) / 2 ^ 64) ∧
    (aboveHalf a b n = false →
      (b : ℝ) * cos (π * (2 * n + 1) / 3600) ≤ a * sin (π * (2 * n + 1) / 3600) + (a + b) / 2 ^ 64) := by
  have hb := cosSinFix_close (p := 128) (num := 2 * n + 1) (den := 3600) le_rfl (by norm_num) (by omega)
  have e : ((2 * n + 1 : ℕ) : ℝ) = 2 * n + 1 := by push_cast; ring
  have e' : ((3600 : ℕ) : ℝ) = 3600 := by norm_num
  rw [e, e'] at hb
  set θ : ℝ := π * (2 * n + 1) / 3600
  obtain ⟨hc, hs⟩ := hb
  rw [abs_le] at hc hs
  have ha : (0 : ℝ) ≤ a := by positivity
  have hbn : (0 : ℝ) ≤ b := by positivity
  have p128 : (2 : ℝ) ^ 128 = 2 ^ 64 * 2 ^ 64 := by norm_num
  have p64 : (2 : ℝ) ^ (128 / 2) = 2 ^ 64 := by norm_num
  rw [p64, p128] at hc hs
  have hP : (0 : ℝ) < 2 ^ 64 := by positivity
  have scale : ∀ u v w : ℝ, 2 ^ 64 * (2 ^ 64 * u) ≤ 2 ^ 64 * (2 ^ 64 * v) + 2 ^ 64 * w → u ≤ v + w / 2 ^ 64 := fun u v w hu => by
    have h1 : 2 ^ 64 * u ≤ 2 ^ 64 * v + w := by
      have : 2 ^ 64 * (2 ^ 64 * u) ≤ 2 ^ 64 * (2 ^ 64 * v + w) := by rw [mul_add]; exact hu
      exact le_of_mul_le_mul_left this hP
    have h2 : 2 ^ 64 * u ≤ 2 ^ 64 * (v + w / 2 ^ 64) := by rw [mul_add, mul_div_cancel₀ _ hP.ne']; exact h1
    exact le_of_mul_le_mul_left h2 hP
  have sc := mul_le_mul_of_nonneg_left hs.1 ha
  have sc' := mul_le_mul_of_nonneg_left hs.2 ha
  have cc := mul_le_mul_of_nonneg_left hc.1 hbn
  have cc' := mul_le_mul_of_nonneg_left hc.2 hbn
  constructor
  · intro ht
    have hlt : (a : ℝ) * ((cosSinFix 128 (2 * n + 1) 3600).2 : ℝ) < b * ((cosSinFix 128 (2 * n + 1) 3600).1 : ℝ) := by
      exact_mod_cast of_decide_eq_true ht
    refine scale _ _ _ ?_
    linarith
  · intro ht
    have hle : (b : ℝ) * ((cosSinFix 128 (2 * n + 1) 3600).1 : ℝ) ≤ a * ((cosSinFix 128 (2 * n + 1) 3600).2 : ℝ) := by
      exact_mod_cast not_lt.1 (of_decide_eq_false ht)
    refine scale _ _ _ ?_
    linarith

/-- A tenth found so far and the weight of the next bit: the tenth's lower half-way angle lies below the direction (a, b), the one a
weight up does not. -/
structure Bracketed (a b k w : ℕ) : Prop where
  range : k ≤ 450
  lower : k = 0 ∨ aboveHalf a b (k - 1) = true
  upper : 450 < k + w ∨ aboveHalf a b (k + w - 1) = false

theorem Bracketed.step {a b k : ℕ} (w v : ℕ) (hv : v = w + w) (h : Bracketed a b k v) :
    Bracketed a b (octantStep a b k w) w := by
  subst hv
  unfold octantStep
  split
  · rename_i hs
    rw [Bool.and_eq_true, decide_eq_true_eq] at hs
    exact ⟨hs.1, .inr hs.2, by rw [Nat.add_assoc]; exact h.upper⟩
  · rename_i hs
    refine ⟨h.range, h.lower, ?_⟩
    by_cases hc : k + w ≤ 450
    · right
      simpa [hc] using hs
    · left; omega

/-- The bisection ends at a tenth whose lower half-way angle lies below the direction and whose upper one does not (R54). -/
theorem octantTenths_brackets (a b : ℕ) : Bracketed a b (octantTenths a b) 1 := by
  have h0 : Bracketed a b 0 512 := ⟨by omega, .inl rfl, .inl (by omega)⟩
  rw [octantTenths]
  iterate 9 rw [List.foldl_cons]
  rw [List.foldl_nil]
  refine .step 1 2 rfl (.step 2 4 rfl (.step 4 8 rfl (.step 8 16 rfl (.step 16 32 rfl (.step 32 64 rfl (.step 64 128 rfl
    (.step 128 256 rfl (.step 256 512 rfl ?_))))))))
  exact h0

end Sys2Proof.Machine
end

