-- ==== Sys2Proof/Laws/Demod.lean ====
section
/-! SUPPORT. The demodulator forms the averages of R6: the computed sums keep their error bound, and the weights tell the component
at the excitation frequency from the constant part and from the harmonics. -/

namespace Sys2Proof.Machine

open Real

/-- The phase of the drive reference at code `k` of `n`, in radians: INTEGRATE begins f·2000 ns past a whole period (R4, R5). -/
noncomputable def demodAngle (f cycles n k : ℕ) : ℝ := 2 * π * ((f : ℝ) / 500000 + (cycles : ℝ) * k / n)

/-! ### The computed sums -/

/-- cos and sin of a part of a turn, within `2 ^ (p / 2)` units (log entry 22). -/
theorem cosSinTurn_close {p k n : ℕ} (hp : 128 ≤ p) (hk : k < n) :
    |((cosSinTurn p k n).1 : ℝ) - 2 ^ p * cos (2 * π * (k / n))| ≤ 2 ^ (p / 2) ∧
    |((cosSinTurn p k n).2 : ℝ) - 2 ^ p * sin (2 * π * (k / n))| ≤ 2 ^ (p / 2) := by
  have hn : 0 < n := by omega
  have hn' : (n : ℝ) ≠ 0 := by exact_mod_cast hn.ne'
  have hm := Nat.mod_lt (4 * k) hn
  have hb := cosSinFix_close (p := p) (num := 4 * k % n) (den := 2 * n) hp (by omega) (by omega)
  have ht := quarterTurns_close (4 * k / n) (Nat.div_lt_of_lt_mul (by omega)) hb.1 hb.2
  have e : ((4 * k / n : ℕ) : ℝ) * (π / 2) + π * ((4 * k % n : ℕ) : ℝ) / ((2 * n : ℕ) : ℝ) = 2 * π * (k / n) := by
    have h : (4 : ℝ) * k = n * ((4 * k / n : ℕ) : ℝ) + ((4 * k % n : ℕ) : ℝ) := by exact_mod_cast (Nat.div_add_mod (4 * k) n).symm
    push_cast
    field_simp
    linear_combination -h
  rw [e] at ht
  exact ht

/-- A phase, in parts of a turn, is the reference's phase up to whole turns. -/
theorem demodPhase_angle {f cycles n : ℕ} (k : ℕ) (hn : 0 < n) :
    ∃ q : ℕ, demodAngle f cycles n k = 2 * π * ((demodPhase f cycles n k : ℝ) / ((1000000000 * n : ℕ) : ℝ)) + q * (2 * π) := by
  have hn' : (n : ℝ) ≠ 0 := by exact_mod_cast hn.ne'
  refine ⟨(f * Config.switchNs * n + 1000000000 * cycles * k) / (1000000000 * n), ?_⟩
  have h : ((f * Config.switchNs * n + 1000000000 * cycles * k : ℕ) : ℝ) =
      ((1000000000 * n : ℕ) : ℝ) * (((f * Config.switchNs * n + 1000000000 * cycles * k) / (1000000000 * n) : ℕ) : ℝ) +
        ((demodPhase f cycles n k : ℕ) : ℝ) := by exact_mod_cast (Nat.div_add_mod _ _).symm
  set q : ℝ := (((f * Config.switchNs * n + 1000000000 * cycles * k) / (1000000000 * n) : ℕ) : ℝ)
  simp only [Config.switchNs] at h
  push_cast at h
  unfold demodAngle
  push_cast
  field_simp
  linear_combination 500000 * h

/-- The weighted sums keep within the error bound of the true ones (log entry 22). -/
theorem demodSums_close {p f cycles n : ℕ} (hp : 128 ≤ p) (hn : 0 < n) (l : List ℤ) (k : ℕ) :
    |((demodSums p f cycles n l k).1 : ℝ) -
        2 ^ p * ∑ i ∈ Finset.range l.length, (l.getD i 0 : ℝ) * cos (demodAngle f cycles n (k + i))| ≤
      ((l.map Int.natAbs).sum : ℕ) * 2 ^ (p / 2) ∧
    |((demodSums p f cycles n l k).2 : ℝ) -
        2 ^ p * ∑ i ∈ Finset.range l.length, (l.getD i 0 : ℝ) * sin (demodAngle f cycles n (k + i))| ≤
      ((l.map Int.natAbs).sum : ℕ) * 2 ^ (p / 2) := by
  induction l generalizing k with
  | nil => simp [demodSums]
  | cons v rest ih =>
    obtain ⟨q, hq⟩ := demodPhase_angle (f := f) (cycles := cycles) k hn
    have hw := cosSinTurn_close (p := p) (k := demodPhase f cycles n k) (n := 1000000000 * n) hp (Nat.mod_lt _ (by omega))
    rw [← cos_add_nat_mul_two_pi _ q, ← sin_add_nat_mul_two_pi _ q, ← hq] at hw
    have step : ∀ (w s : ℤ) (x y : ℝ), |(w : ℝ) - 2 ^ p * x| ≤ 2 ^ (p / 2) →
        |(s : ℝ) - 2 ^ p * y| ≤ ((rest.map Int.natAbs).sum : ℕ) * 2 ^ (p / 2) →
        |((v * w + s : ℤ) : ℝ) - 2 ^ p * (y + v * x)| ≤ (((v :: rest).map Int.natAbs).sum : ℕ) * 2 ^ (p / 2) := fun w s x y h1 h2 => by
      have h3 : |(v : ℝ) * (w - 2 ^ p * x)| ≤ (v.natAbs : ℝ) * 2 ^ (p / 2) := by
        rw [abs_mul, Nat.cast_natAbs, Int.cast_abs]
        exact mul_le_mul_of_nonneg_left h1 (abs_nonneg _)
      have e : ((v * w + s : ℤ) : ℝ) - 2 ^ p * (y + v * x) = v * (w - 2 ^ p * x) + (s - 2 ^ p * y) := by push_cast; ring
      rw [e, List.map_cons, List.sum_cons, Nat.cast_add, add_mul]
      exact (abs_add_le _ _).trans (add_le_add h3 h2)
    have hi := ih (k + 1)
    simp only [List.length_cons, Finset.sum_range_succ', List.getD_cons_succ, List.getD_cons_zero, Nat.add_zero, demodSums]
    simp only [Nat.add_assoc, Nat.add_comm 1] at hi
    exact ⟨step _ _ _ _ hw.1 hi.1, step _ _ _ _ hw.2 hi.2⟩

/-! ### The averages -/

/-- A rounded quotient lies within a half of the quotient. -/
theorem roundDiv_real (a : ℤ) {b : ℕ} (hb : 0 < b) : |(roundDiv a b : ℝ) - a / b| ≤ 1 / 2 := by
  have hb' : (0 : ℝ) < b := by exact_mod_cast hb
  have h1 := Nat.div_add_mod (2 * a.natAbs + b) (2 * b)
  have h2 := Nat.mod_lt (2 * a.natAbs + b) (by omega : 0 < 2 * b)
  generalize hq : (2 * a.natAbs + b) / (2 * b) = q at *
  have hz : -(b : ℤ) ≤ 2 * (roundDiv a b * b - a) ∧ 2 * (roundDiv a b * b - a) ≤ b := by
    have e : 2 * b * q = 2 * (q * b) := by ring
    rw [e] at h1
    unfold roundDiv
    rw [hq]
    split
    · rw [neg_mul]
      have : ((q * b : ℕ) : ℤ) = (q : ℤ) * b := by push_cast; ring
      omega
    · have : ((q * b : ℕ) : ℤ) = (q : ℤ) * b := by push_cast; ring
      omega
  have hr : -(b : ℝ) ≤ 2 * (roundDiv a b * b - a) ∧ 2 * ((roundDiv a b : ℝ) * b - a) ≤ b := by exact_mod_cast hz
  have e : (roundDiv a b : ℝ) - a / b = ((roundDiv a b : ℝ) * b - a) / b := by field_simp
  rw [e, abs_div, abs_of_pos hb', div_le_iff₀ hb', abs_le]
  constructor <;> linarith [hr.1, hr.2]

/-- Codes within the range have a mean magnitude within it. -/
theorem demodMass_le {d : Demod} (h : d.consistent = true) : demodMass d ≤ d.output.length * d.full := by
  simp only [Demod.consistent, Bool.and_eq_true, List.all_eq_true, decide_eq_true_eq] at h
  unfold demodMass
  have := List.sum_le_card_nsmul (d.output.map Int.natAbs) d.full (by simpa using h.2)
  simpa using this

/-- A component computed at either end of its error bound is the average, up to its rounding (R6; log entry 22). -/
theorem demodComponent_close {p : ℕ} (hp : 256 ≤ p) {d : Demod} (h : d.consistent = true) {sum e : ℤ} {A : ℝ}
    (hs : |(sum : ℝ) - 2 ^ p * A| ≤ (demodMass d : ℝ) * 2 ^ (p / 2))
    (he : |(e : ℝ)| ≤ (demodMass d : ℝ) * 2 ^ (p / 2)) :
    |(demodComponent p d (sum + e) : ℝ) - 65534 * A / (d.output.length * d.full)| ≤ 1 / 2 + 1 / 2 ^ 64 := by
  have hm : (demodMass d : ℝ) ≤ d.output.length * d.full := by exact_mod_cast demodMass_le h
  simp only [Demod.consistent, Bool.and_eq_true, decide_eq_true_eq] at h
  have hd : 0 < d.output.length * d.full := Nat.mul_pos (by omega) h.1.1
  have hd' : (0 : ℝ) < d.output.length * d.full := by exact_mod_cast hd
  have hP : (0 : ℝ) < 2 ^ p := by positivity
  have hr := roundDiv_real (65534 * (sum + e)) (b := d.output.length * d.full * 2 ^ p) (by positivity)
  have hhalf : (131068 : ℝ) * 2 ^ (p / 2) ≤ 2 ^ p / 2 ^ 64 := by
    rw [le_div_iff₀ (by positivity)]
    calc (131068 : ℝ) * 2 ^ (p / 2) * 2 ^ 64 ≤ 2 ^ 64 * 2 ^ (p / 2) * 2 ^ 64 := by
          have : (0 : ℝ) < 2 ^ (p / 2) := by positivity
          nlinarith
      _ = 2 ^ (128 + p / 2) := by rw [pow_add]; ring
      _ ≤ 2 ^ p := pow_le_pow_right₀ (by norm_num) (by omega)
  have hq : |((65534 * (sum + e) : ℤ) : ℝ) / ((d.output.length * d.full * 2 ^ p : ℕ) : ℝ) -
      65534 * A / (d.output.length * d.full)| ≤ 1 / 2 ^ 64 := by
    have e1 : ((65534 * (sum + e) : ℤ) : ℝ) / ((d.output.length * d.full * 2 ^ p : ℕ) : ℝ) -
        65534 * A / (d.output.length * d.full) =
        65534 * ((sum - 2 ^ p * A) + e) / (d.output.length * d.full * 2 ^ p) := by
      push_cast
      field_simp
      ring
    rw [e1, abs_div, abs_of_pos (mul_pos hd' hP), div_le_iff₀ (mul_pos hd' hP), abs_mul, abs_of_pos (by norm_num : (0 : ℝ) < 65534)]
    calc 65534 * |(sum : ℝ) - 2 ^ p * A + e| ≤ 65534 * (2 * ((demodMass d : ℝ) * 2 ^ (p / 2))) := by
          have := abs_add_le ((sum : ℝ) - 2 ^ p * A) e
          linarith
      _ = (demodMass d : ℝ) * (131068 * 2 ^ (p / 2)) := by ring
      _ ≤ (d.output.length * d.full) * (2 ^ p / 2 ^ 64) := mul_le_mul hm hhalf (by positivity) hd'.le
      _ = 1 / 2 ^ 64 * (d.output.length * d.full * 2 ^ p) := by ring
  exact (abs_sub_le _ _ _).trans (add_le_add hr hq)

theorem farther_cases (a b : ℤ) : farther a b = a ∨ farther a b = b := by unfold farther; split <;> simp

/-- X and Y are the averages of the converter's output weighted by the reference, times 2 and 32767 over full scale, rounded (R6). -/
theorem demodAverage_close {d : Demod} (h : d.consistent = true) (f cycles : ℕ) :
    |((demodAverage f cycles d).x : ℝ) -
        65534 * (∑ i ∈ Finset.range d.output.length, (d.output.getD i 0 : ℝ) * sin (demodAngle f cycles d.output.length i)) /
          (d.output.length * d.full)| ≤ 1 / 2 + 1 / 2 ^ 64 ∧
    |((demodAverage f cycles d).y : ℝ) -
        65534 * (∑ i ∈ Finset.range d.output.length, (d.output.getD i 0 : ℝ) * cos (demodAngle f cycles d.output.length i)) /
          (d.output.length * d.full)| ≤ 1 / 2 + 1 / 2 ^ 64 := by
  have hn : 0 < d.output.length := by
    simp only [Demod.consistent, Bool.and_eq_true, decide_eq_true_eq] at h
    omega
  have ends : ∀ p, 256 ≤ p →
      (∀ b ∈ [(demodBounds p f cycles d).1, (demodBounds p f cycles d).2],
        |(b.x : ℝ) - 65534 * (∑ i ∈ Finset.range d.output.length, (d.output.getD i 0 : ℝ) * sin (demodAngle f cycles d.output.length i)) /
            (d.output.length * d.full)| ≤ 1 / 2 + 1 / 2 ^ 64 ∧
        |(b.y : ℝ) - 65534 * (∑ i ∈ Finset.range d.output.length, (d.output.getD i 0 : ℝ) * cos (demodAngle f cycles d.output.length i)) /
            (d.output.length * d.full)| ≤ 1 / 2 + 1 / 2 ^ 64) := fun p hp => by
    have hs := demodSums_close (p := p) (f := f) (cycles := cycles) (by omega) hn d.output 0
    simp only [Nat.zero_add] at hs
    have he : |((demodMass d * 2 ^ (p / 2) : ℕ) : ℝ)| ≤ (demodMass d : ℝ) * 2 ^ (p / 2) := by
      rw [abs_of_nonneg (by positivity)]; push_cast; exact le_rfl
    have he1 : |(((demodMass d * 2 ^ (p / 2) : ℕ) : ℤ) : ℝ)| ≤ (demodMass d : ℝ) * 2 ^ (p / 2) := by exact_mod_cast he
    have he2 : |((-((demodMass d * 2 ^ (p / 2) : ℕ) : ℤ) : ℤ) : ℝ)| ≤ (demodMass d : ℝ) * 2 ^ (p / 2) := by
      rw [Int.cast_neg, abs_neg]; exact he1
    intro b hb
    simp only [List.mem_cons, List.not_mem_nil, or_false] at hb
    rcases hb with rfl | rfl
    · simp only [demodBounds, sub_eq_add_neg]
      exact ⟨demodComponent_close hp h hs.2 he2, demodComponent_close hp h hs.1 he2⟩
    · exact ⟨demodComponent_close hp h hs.2 he1, demodComponent_close hp h hs.1 he1⟩
  unfold demodAverage
  simp only
  split
  · exact ends 256 le_rfl _ (by simp)
  · have hp : 256 ≤ demodPlaces f d := Nat.le_add_left _ _
    have hlo := ends _ hp (demodBounds (demodPlaces f d) f cycles d).1 (by simp)
    have hhi := ends _ hp (demodBounds (demodPlaces f d) f cycles d).2 (by simp)
    constructor
    · rcases farther_cases (demodBounds (demodPlaces f d) f cycles d).1.x (demodBounds (demodPlaces f d) f cycles d).2.x with e | e
      · rw [e]; exact hlo.1
      · rw [e]; exact hhi.1
    · rcases farther_cases (demodBounds (demodPlaces f d) f cycles d).1.y (demodBounds (demodPlaces f d) f cycles d).2.y with e | e
      · rw [e]; exact hlo.2
      · rw [e]; exact hhi.2

/-! ### What the weights tell apart (R6) -/

/-- A cosine taken at `n` even steps over `j` whole turns sums to 0, unless the steps are whole turns. -/
theorem cos_steps_sum {n j : ℕ} (hn : 0 < n) (hj : ¬ n ∣ j) (β : ℝ) :
    ∑ k ∈ Finset.range n, cos (β + 2 * π * j * k / n) = 0 := by
  have hn' : (n : ℝ) ≠ 0 := by exact_mod_cast hn.ne'
  have hsin : sin (π * j / n) ≠ 0 := fun h => by
    obtain ⟨m, hm⟩ := sin_eq_zero_iff.mp h
    have h2 : (j : ℝ) = m * n := by
      have hpi := pi_ne_zero
      field_simp at hm
      linarith
    have h3 : (j : ℤ) = m * n := by exact_mod_cast h2
    exact hj (Int.natCast_dvd_natCast.mp ⟨m, by rw [h3]; ring⟩)
  have tel : ∀ k : ℕ, 2 * sin (π * j / n) * cos (β + 2 * π * j * k / n) =
      sin (β - π * j / n + 2 * π * j * ((k + 1 : ℕ) : ℝ) / n) - sin (β - π * j / n + 2 * π * j * (k : ℝ) / n) := fun k => by
    rw [sin_sub_sin]
    have e1 : (β - π * j / n + 2 * π * j * ((k + 1 : ℕ) : ℝ) / n - (β - π * j / n + 2 * π * j * (k : ℝ) / n)) / 2 = π * j / n := by
      push_cast; field_simp; ring
    have e2 : (β - π * j / n + 2 * π * j * ((k + 1 : ℕ) : ℝ) / n + (β - π * j / n + 2 * π * j * (k : ℝ) / n)) / 2 =
        β + 2 * π * j * k / n := by push_cast; field_simp; ring
    rw [e1, e2]
  have hsum : 2 * sin (π * j / n) * ∑ k ∈ Finset.range n, cos (β + 2 * π * j * k / n) = 0 := by
    rw [Finset.mul_sum, Finset.sum_congr rfl fun k _ => tel k,
      Finset.sum_range_sub (fun k : ℕ => sin (β - π * j / n + 2 * π * j * (k : ℝ) / n))]
    have e : β - π * j / n + 2 * π * j * (n : ℝ) / n = β - π * j / n + j * (2 * π) := by field_simp
    rw [e, sin_add_nat_mul_two_pi]
    simp
  simpa [hsin] using hsum

/-- Multiples of the reference's phase sum to 0, unless the codes stand whole turns apart in them. -/
theorem demodAngle_sum {f cycles n m : ℕ} (hn : 0 < n) (hm : ¬ n ∣ m * cycles) (α : ℝ) :
    ∑ k ∈ Finset.range n, cos (m * demodAngle f cycles n k + α) = 0 := by
  rw [← cos_steps_sum hn hm (m * (2 * π * (f / 500000)) + α)]
  refine Finset.sum_congr rfl fun k _ => congrArg cos ?_
  unfold demodAngle
  push_cast
  ring

/-- With more than two codes to a cycle the weights have no share in a constant part and none in each other, and the square of each
has the mean 1/2 (R6). -/
theorem weights_scale {f cycles n : ℕ} (hc : 0 < cycles) (hn : 2 * cycles < n) :
    ∑ k ∈ Finset.range n, sin (demodAngle f cycles n k) = 0 ∧ ∑ k ∈ Finset.range n, cos (demodAngle f cycles n k) = 0 ∧
    ∑ k ∈ Finset.range n, sin (demodAngle f cycles n k) * cos (demodAngle f cycles n k) = 0 ∧
    ∑ k ∈ Finset.range n, sin (demodAngle f cycles n k) ^ 2 = n / 2 ∧
    ∑ k ∈ Finset.range n, cos (demodAngle f cycles n k) ^ 2 = n / 2 := by
  have n0 : 0 < n := by omega
  have d1 : ¬ n ∣ 1 * cycles := Nat.not_dvd_of_pos_of_lt (by omega) (by omega)
  have d2 : ¬ n ∣ 2 * cycles := Nat.not_dvd_of_pos_of_lt (by omega) hn
  have sine : ∀ x : ℝ, sin x = cos (x + -(π / 2)) := fun x => by rw [← sub_eq_add_neg, cos_sub_pi_div_two]
  have c1 := demodAngle_sum (f := f) n0 d1 0
  have s1 := demodAngle_sum (f := f) n0 d1 (-(π / 2))
  have c2 := demodAngle_sum (f := f) n0 d2 0
  have s2 := demodAngle_sum (f := f) n0 d2 (-(π / 2))
  simp only [Nat.cast_one, one_mul, add_zero, ← sine, Nat.cast_ofNat] at c1 s1 c2 s2
  have half : ∀ g : ℕ → ℝ, (∑ k ∈ Finset.range n, g k = 0) → ∑ k ∈ Finset.range n, (1 / 2 - g k / 2) = n / 2 := fun g hg => by
    rw [Finset.sum_sub_distrib, ← Finset.sum_div (f := g), hg]; simp; ring
  refine ⟨s1, c1, ?_, ?_, ?_⟩
  · have : ∀ x : ℝ, sin x * cos x = sin (2 * x) * (1 / 2) := fun x => by rw [sin_two_mul]; ring
    rw [Finset.sum_congr rfl fun k _ => this _, ← Finset.sum_mul, s2, zero_mul]
  · rw [← half _ c2]
    exact Finset.sum_congr rfl fun k _ => sin_sq_eq_half_sub _
  · have hneg : ∑ k ∈ Finset.range n, -cos (2 * demodAngle f cycles n k) = 0 := by rw [Finset.sum_neg_distrib, c2, neg_zero]
    rw [← half _ hneg]
    exact Finset.sum_congr rfl fun k _ => by rw [cos_sq]; ring

/-- The weights have no share in a harmonic that the codes can hold: it has at least two codes to each of its own periods (R6). -/
theorem weights_orthogonal {f cycles n h : ℕ} (hc : 0 < cycles) (hn : 2 * cycles < n) (h2 : 2 ≤ h) (hh : 2 * h * cycles ≤ n) (α : ℝ) :
    ∑ k ∈ Finset.range n, cos (h * demodAngle f cycles n k + α) * sin (demodAngle f cycles n k) = 0 ∧
    ∑ k ∈ Finset.range n, cos (h * demodAngle f cycles n k + α) * cos (demodAngle f cycles n k) = 0 := by
  obtain ⟨m, rfl⟩ : ∃ m, h = m + 2 := ⟨h - 2, by omega⟩
  have n0 : 0 < n := by omega
  have dlo : ¬ n ∣ (m + 1) * cycles := Nat.not_dvd_of_pos_of_lt (by positivity) (by nlinarith)
  have dhi : ¬ n ∣ (m + 3) * cycles := Nat.not_dvd_of_pos_of_lt (by positivity) (by nlinarith)
  have sine : ∀ x : ℝ, sin x = cos (x + -(π / 2)) := fun x => by rw [← sub_eq_add_neg, cos_sub_pi_div_two]
  have lo := fun β => demodAngle_sum (f := f) n0 dlo β
  have hi := fun β => demodAngle_sum (f := f) n0 dhi β
  constructor
  · have e : ∀ x : ℝ, cos (((m + 2 : ℕ) : ℝ) * x + α) * sin x =
        cos (((m + 3 : ℕ) : ℝ) * x + (α + -(π / 2))) * (1 / 2) - cos (((m + 1 : ℕ) : ℝ) * x + (α + -(π / 2))) * (1 / 2) := fun x => by
      rw [← add_assoc, ← add_assoc, ← sine, ← sine]
      have a1 : ((m + 3 : ℕ) : ℝ) * x + α = (((m + 2 : ℕ) : ℝ) * x + α) + x := by push_cast; ring
      have a2 : ((m + 1 : ℕ) : ℝ) * x + α = (((m + 2 : ℕ) : ℝ) * x + α) - x := by push_cast; ring
      rw [a1, a2, sin_add _ x, sin_sub _ x]; ring
    rw [Finset.sum_congr rfl fun k _ => e _, Finset.sum_sub_distrib, ← Finset.sum_mul, ← Finset.sum_mul, hi, lo]; ring
  · have e : ∀ x : ℝ, cos (((m + 2 : ℕ) : ℝ) * x + α) * cos x =
        cos (((m + 3 : ℕ) : ℝ) * x + α) * (1 / 2) + cos (((m + 1 : ℕ) : ℝ) * x + α) * (1 / 2) := fun x => by
      have a1 : ((m + 3 : ℕ) : ℝ) * x + α = (((m + 2 : ℕ) : ℝ) * x + α) + x := by push_cast; ring
      have a2 : ((m + 1 : ℕ) : ℝ) * x + α = (((m + 2 : ℕ) : ℝ) * x + α) - x := by push_cast; ring
      rw [a1, a2, cos_add _ x, cos_sub _ x]; ring
    rw [Finset.sum_congr rfl fun k _ => e _, Finset.sum_add_distrib, ← Finset.sum_mul, ← Finset.sum_mul, hi, lo]; ring

end Sys2Proof.Machine
end

