-- ==== Sys2Proof/Laws/State.lean ====
section
/-! SUPPORT. One lemma per field per update of a lane and of the state, so that no later proof unfolds a record update. -/

namespace Sys2Proof.Machine

/-! ### The two lanes -/

@[simp] theorem otherLane_otherLane (l : LaneId) : otherLane (otherLane l) = l := by cases l <;> rfl

theorem otherLane_ne (l : LaneId) : otherLane l ≠ l := by cases l <;> decide

theorem eq_or_eq_otherLane (l k : LaneId) : k = l ∨ k = otherLane l := by cases l <;> cases k <;> simp [otherLane]

@[simp] theorem State.lane_a (s : State) : s.lane .a = s.laneA := rfl
@[simp] theorem State.lane_b (s : State) : s.lane .b = s.laneB := rfl

@[simp] theorem State.lane_setLane (s : State) (l : LaneId) (x : Lane) : (s.setLane l x).lane l = x := by cases l <;> rfl

@[simp] theorem State.lane_setLane_other (s : State) (l : LaneId) (x : Lane) :
    (s.setLane l x).lane (otherLane l) = s.lane (otherLane l) := by cases l <;> rfl

@[simp] theorem State.lane_upd (s : State) (l : LaneId) (f : Lane → Lane) : (s.upd l f).lane l = f (s.lane l) :=
  s.lane_setLane l _

@[simp] theorem State.lane_upd_other (s : State) (l : LaneId) (f : Lane → Lane) :
    (s.upd l f).lane (otherLane l) = s.lane (otherLane l) := s.lane_setLane_other l _

@[simp] theorem State.setLane_setLane (s : State) (l : LaneId) (x y : Lane) : (s.setLane l x).setLane l y = s.setLane l y := by
  cases l <;> rfl

@[simp] theorem State.setLane_lane (s : State) (l : LaneId) : s.setLane l (s.lane l) = s := by cases l <;> rfl

@[simp] theorem State.upd_upd (s : State) (l : LaneId) (f g : Lane → Lane) : (s.upd l f).upd l g = s.upd l fun x => g (f x) := by
  cases l <;> rfl

theorem State.upd_eq_setLane (s : State) (l : LaneId) (f : Lane → Lane) : s.upd l f = s.setLane l (f (s.lane l)) := rfl

/-- Two states with the same lane `l` and the same other lane have the same two lanes. -/
theorem State.lanes_ext {s t : State} (l : LaneId) (h : t.lane l = s.lane l) (h' : t.lane (otherLane l) = s.lane (otherLane l)) :
    s.sameLanes t := by
  cases l
  · exact ⟨h, h'⟩
  · exact ⟨h', h⟩

/-! ### Updates of the state -/

@[simp] theorem State.setLane_layouts (s : State) (l : LaneId) (x : Lane) : (s.setLane l x).layouts = s.layouts := by cases l <;> rfl
@[simp] theorem State.setLane_engine (s : State) (l : LaneId) (x : Lane) : (s.setLane l x).engine = s.engine := by cases l <;> rfl
@[simp] theorem State.setLane_pool (s : State) (l : LaneId) (x : Lane) : (s.setLane l x).pool = s.pool := by cases l <;> rfl
@[simp] theorem State.setLane_link (s : State) (l : LaneId) (x : Lane) : (s.setLane l x).link = s.link := by cases l <;> rfl
@[simp] theorem State.setLane_clock (s : State) (l : LaneId) (x : Lane) : (s.setLane l x).clock = s.clock := by cases l <;> rfl
@[simp] theorem State.setLane_pending (s : State) (l : LaneId) (x : Lane) : (s.setLane l x).pending = s.pending := by cases l <;> rfl
@[simp] theorem State.upd_layouts (s : State) (l : LaneId) (f : Lane → Lane) : (s.upd l f).layouts = s.layouts := s.setLane_layouts l _
@[simp] theorem State.upd_engine (s : State) (l : LaneId) (f : Lane → Lane) : (s.upd l f).engine = s.engine := s.setLane_engine l _
@[simp] theorem State.upd_pool (s : State) (l : LaneId) (f : Lane → Lane) : (s.upd l f).pool = s.pool := s.setLane_pool l _
@[simp] theorem State.upd_link (s : State) (l : LaneId) (f : Lane → Lane) : (s.upd l f).link = s.link := s.setLane_link l _
@[simp] theorem State.upd_clock (s : State) (l : LaneId) (f : Lane → Lane) : (s.upd l f).clock = s.clock := s.setLane_clock l _
@[simp] theorem State.upd_pending (s : State) (l : LaneId) (f : Lane → Lane) : (s.upd l f).pending = s.pending := s.setLane_pending l _
@[simp] theorem State.reach_laneA (s : State) (due : Nat) : (s.reach due).laneA = s.laneA := rfl
@[simp] theorem State.reach_laneB (s : State) (due : Nat) : (s.reach due).laneB = s.laneB := rfl
@[simp] theorem State.reach_layouts (s : State) (due : Nat) : (s.reach due).layouts = s.layouts := rfl
@[simp] theorem State.reach_engine (s : State) (due : Nat) : (s.reach due).engine = s.engine := rfl
@[simp] theorem State.reach_pool (s : State) (due : Nat) : (s.reach due).pool = s.pool := rfl
@[simp] theorem State.reach_link (s : State) (due : Nat) : (s.reach due).link = s.link := rfl
@[simp] theorem State.reach_pending (s : State) (due : Nat) : (s.reach due).pending = s.pending := rfl
@[simp] theorem State.reach_clock (s : State) (due : Nat) : (s.reach due).clock = max s.clock due := rfl
@[simp] theorem State.withPending_laneA (s : State) (q : List Instr) : (s.withPending q).laneA = s.laneA := rfl
@[simp] theorem State.withPending_laneB (s : State) (q : List Instr) : (s.withPending q).laneB = s.laneB := rfl
@[simp] theorem State.withPending_layouts (s : State) (q : List Instr) : (s.withPending q).layouts = s.layouts := rfl
@[simp] theorem State.withPending_engine (s : State) (q : List Instr) : (s.withPending q).engine = s.engine := rfl
@[simp] theorem State.withPending_pool (s : State) (q : List Instr) : (s.withPending q).pool = s.pool := rfl
@[simp] theorem State.withPending_link (s : State) (q : List Instr) : (s.withPending q).link = s.link := rfl
@[simp] theorem State.withPending_clock (s : State) (q : List Instr) : (s.withPending q).clock = s.clock := rfl
@[simp] theorem State.withPending_pending (s : State) (q : List Instr) : (s.withPending q).pending = q := rfl
@[simp] theorem State.idle_laneA (s : State) : (s.idle).laneA = s.laneA := rfl
@[simp] theorem State.idle_laneB (s : State) : (s.idle).laneB = s.laneB := rfl
@[simp] theorem State.idle_layouts (s : State) : (s.idle).layouts = s.layouts := rfl
@[simp] theorem State.idle_engine (s : State) : (s.idle).engine = s.engine := rfl
@[simp] theorem State.idle_pool (s : State) : (s.idle).pool = s.pool := rfl
@[simp] theorem State.idle_link (s : State) : (s.idle).link = s.link := rfl
@[simp] theorem State.idle_pending (s : State) : (s.idle).pending = s.pending := rfl
@[simp] theorem State.idle_clock (s : State) : s.idle.clock = s.clock + 1 := rfl
@[simp] theorem State.popRequest_laneA (s : State) : (s.popRequest).laneA = s.laneA := rfl
@[simp] theorem State.popRequest_laneB (s : State) : (s.popRequest).laneB = s.laneB := rfl
@[simp] theorem State.popRequest_layouts (s : State) : (s.popRequest).layouts = s.layouts := rfl
@[simp] theorem State.popRequest_engine (s : State) : (s.popRequest).engine = s.engine := rfl
@[simp] theorem State.popRequest_pool (s : State) : (s.popRequest).pool = s.pool := rfl
@[simp] theorem State.popRequest_clock (s : State) : (s.popRequest).clock = s.clock := rfl
@[simp] theorem State.popRequest_pending (s : State) : (s.popRequest).pending = s.pending := rfl
@[simp] theorem State.popRequest_link (s : State) : s.popRequest.link = { s.link with requests := s.link.requests.drop 1 } := rfl
@[simp] theorem State.working_laneA (s : State) (hdr : Header) : (s.working hdr).laneA = s.laneA := rfl
@[simp] theorem State.working_laneB (s : State) (hdr : Header) : (s.working hdr).laneB = s.laneB := rfl
@[simp] theorem State.working_layouts (s : State) (hdr : Header) : (s.working hdr).layouts = s.layouts := rfl
@[simp] theorem State.working_engine (s : State) (hdr : Header) : (s.working hdr).engine = s.engine := rfl
@[simp] theorem State.working_pool (s : State) (hdr : Header) : (s.working hdr).pool = s.pool := rfl
@[simp] theorem State.working_clock (s : State) (hdr : Header) : (s.working hdr).clock = s.clock := rfl
@[simp] theorem State.working_pending (s : State) (hdr : Header) : (s.working hdr).pending = s.pending := rfl
@[simp] theorem State.working_link (s : State) (hdr : Header) : (s.working hdr).link = { s.link with handler := .working hdr } := rfl
@[simp] theorem State.loseLink_laneA (s : State) : (s.loseLink).laneA = s.laneA := rfl
@[simp] theorem State.loseLink_laneB (s : State) : (s.loseLink).laneB = s.laneB := rfl
@[simp] theorem State.loseLink_layouts (s : State) : (s.loseLink).layouts = s.layouts := rfl
@[simp] theorem State.loseLink_engine (s : State) : (s.loseLink).engine = s.engine := rfl
@[simp] theorem State.loseLink_pool (s : State) : (s.loseLink).pool = s.pool := rfl
@[simp] theorem State.loseLink_clock (s : State) : (s.loseLink).clock = s.clock := rfl
@[simp] theorem State.loseLink_pending (s : State) : (s.loseLink).pending = s.pending := rfl
@[simp] theorem State.loseLink_link (s : State) : s.loseLink.link = { s.link with up := false, silenceDue := none } := rfl
@[simp] theorem State.badFrame_laneA (s : State) : (s.badFrame).laneA = s.laneA := rfl
@[simp] theorem State.badFrame_laneB (s : State) : (s.badFrame).laneB = s.laneB := rfl
@[simp] theorem State.badFrame_layouts (s : State) : (s.badFrame).layouts = s.layouts := rfl
@[simp] theorem State.badFrame_engine (s : State) : (s.badFrame).engine = s.engine := rfl
@[simp] theorem State.badFrame_pool (s : State) : (s.badFrame).pool = s.pool := rfl
@[simp] theorem State.badFrame_clock (s : State) : (s.badFrame).clock = s.clock := rfl
@[simp] theorem State.badFrame_pending (s : State) : (s.badFrame).pending = s.pending := rfl
@[simp] theorem State.reach_lane (s : State) (due : Nat) (l : LaneId) : (s.reach due).lane l = s.lane l := by cases l <;> rfl
@[simp] theorem State.withPending_lane (s : State) (q : List Instr) (l : LaneId) : (s.withPending q).lane l = s.lane l := by cases l <;> rfl
@[simp] theorem State.working_lane (s : State) (hdr : Header) (l : LaneId) : (s.working hdr).lane l = s.lane l := by cases l <;> rfl
@[simp] theorem State.idle_lane (s : State) (l : LaneId) : s.idle.lane l = s.lane l := by cases l <;> rfl
@[simp] theorem State.popRequest_lane (s : State) (l : LaneId) : s.popRequest.lane l = s.lane l := by cases l <;> rfl
@[simp] theorem State.loseLink_lane (s : State) (l : LaneId) : s.loseLink.lane l = s.lane l := by cases l <;> rfl
@[simp] theorem State.badFrame_lane (s : State) (l : LaneId) : s.badFrame.lane l = s.lane l := by cases l <;> rfl

/-- The lanes of a state do not depend on its other fields. -/
theorem State.lane_congr {s t : State} (ha : t.laneA = s.laneA) (hb : t.laneB = s.laneB) (l : LaneId) : t.lane l = s.lane l := by
  cases l
  · exact ha
  · exact hb

/-! ### Updates of a lane -/

@[simp] theorem Lane.updCtl_exc (x : Lane) (f : Control → Control) : (x.updCtl f).exc = x.exc := rfl
@[simp] theorem Lane.updCtl_pos (x : Lane) (f : Control → Control) : (x.updCtl f).pos = x.pos := rfl
@[simp] theorem Lane.updCtl_capture (x : Lane) (f : Control → Control) : (x.updCtl f).capture = x.capture := rfl
@[simp] theorem Lane.updCtl_bases (x : Lane) (f : Control → Control) : (x.updCtl f).bases = x.bases := rfl
@[simp] theorem Lane.updCtl_mixes (x : Lane) (f : Control → Control) : (x.updCtl f).mixes = x.mixes := rfl
@[simp] theorem Lane.updCtl_store (x : Lane) (f : Control → Control) : (x.updCtl f).store = x.store := rfl
@[simp] theorem Lane.updCtl_screens (x : Lane) (f : Control → Control) : (x.updCtl f).screens = x.screens := rfl
@[simp] theorem Lane.updCtl_roi (x : Lane) (f : Control → Control) : (x.updCtl f).roi = x.roi := rfl
@[simp] theorem Lane.updCtl_landmark (x : Lane) (f : Control → Control) : (x.updCtl f).landmark = x.landmark := rfl
@[simp] theorem Lane.updCtl_detector (x : Lane) (f : Control → Control) : (x.updCtl f).detector = x.detector := rfl
@[simp] theorem Lane.updCtl_motion (x : Lane) (f : Control → Control) : (x.updCtl f).motion = x.motion := rfl
@[simp] theorem Lane.updCtl_drive (x : Lane) (f : Control → Control) : (x.updCtl f).drive = x.drive := rfl
@[simp] theorem Lane.updCtl_jobs (x : Lane) (f : Control → Control) : (x.updCtl f).jobs = x.jobs := rfl
@[simp] theorem Lane.updCtl_lineBlock (x : Lane) (f : Control → Control) : (x.updCtl f).lineBlock = x.lineBlock := rfl
@[simp] theorem Lane.updCtl_regionBlock (x : Lane) (f : Control → Control) : (x.updCtl f).regionBlock = x.regionBlock := rfl
@[simp] theorem Lane.updCtl_ring (x : Lane) (f : Control → Control) : (x.updCtl f).ring = x.ring := rfl
@[simp] theorem Lane.updCtl_ctl (x : Lane) (f : Control → Control) : (x.updCtl f).ctl = f x.ctl := rfl
@[simp] theorem Lane.updTube_exc (x : Lane) (f : Tube → Tube) : (x.updTube f).exc = x.exc := rfl
@[simp] theorem Lane.updTube_pos (x : Lane) (f : Tube → Tube) : (x.updTube f).pos = x.pos := rfl
@[simp] theorem Lane.updTube_capture (x : Lane) (f : Tube → Tube) : (x.updTube f).capture = x.capture := rfl
@[simp] theorem Lane.updTube_bases (x : Lane) (f : Tube → Tube) : (x.updTube f).bases = x.bases := rfl
@[simp] theorem Lane.updTube_mixes (x : Lane) (f : Tube → Tube) : (x.updTube f).mixes = x.mixes := rfl
@[simp] theorem Lane.updTube_store (x : Lane) (f : Tube → Tube) : (x.updTube f).store = x.store := rfl
@[simp] theorem Lane.updTube_screens (x : Lane) (f : Tube → Tube) : (x.updTube f).screens = x.screens := rfl
@[simp] theorem Lane.updTube_roi (x : Lane) (f : Tube → Tube) : (x.updTube f).roi = x.roi := rfl
@[simp] theorem Lane.updTube_landmark (x : Lane) (f : Tube → Tube) : (x.updTube f).landmark = x.landmark := rfl
@[simp] theorem Lane.updTube_detector (x : Lane) (f : Tube → Tube) : (x.updTube f).detector = x.detector := rfl
@[simp] theorem Lane.updTube_motion (x : Lane) (f : Tube → Tube) : (x.updTube f).motion = x.motion := rfl
@[simp] theorem Lane.updTube_drive (x : Lane) (f : Tube → Tube) : (x.updTube f).drive = x.drive := rfl
@[simp] theorem Lane.updTube_jobs (x : Lane) (f : Tube → Tube) : (x.updTube f).jobs = x.jobs := rfl
@[simp] theorem Lane.updTube_lineBlock (x : Lane) (f : Tube → Tube) : (x.updTube f).lineBlock = x.lineBlock := rfl
@[simp] theorem Lane.updTube_regionBlock (x : Lane) (f : Tube → Tube) : (x.updTube f).regionBlock = x.regionBlock := rfl
@[simp] theorem Lane.updTube_ring (x : Lane) (f : Tube → Tube) : (x.updTube f).ring = x.ring := rfl
@[simp] theorem Lane.updTube_tube (x : Lane) (f : Tube → Tube) : (x.updTube f).ctl.tube = x.ctl.tube.map f := rfl
@[simp] theorem Lane.updTube_ctl_state (x : Lane) (f : Tube → Tube) : (x.updTube f).ctl.state = x.ctl.state := rfl
@[simp] theorem Lane.updTube_ctl_heldPhase (x : Lane) (f : Tube → Tube) : (x.updTube f).ctl.heldPhase = x.ctl.heldPhase := rfl
@[simp] theorem Lane.updTube_ctl_returnTo (x : Lane) (f : Tube → Tube) : (x.updTube f).ctl.returnTo = x.ctl.returnTo := rfl
@[simp] theorem Lane.updTube_ctl_worklist (x : Lane) (f : Tube → Tube) : (x.updTube f).ctl.worklist = x.ctl.worklist := rfl
@[simp] theorem Lane.updTube_ctl_rearm (x : Lane) (f : Tube → Tube) : (x.updTube f).ctl.rearm = x.ctl.rearm := rfl
@[simp] theorem Lane.updTube_ctl_poll (x : Lane) (f : Tube → Tube) : (x.updTube f).ctl.poll = x.ctl.poll := rfl
@[simp] theorem Lane.updTube_ctl_attempts (x : Lane) (f : Tube → Tube) : (x.updTube f).ctl.attempts = x.ctl.attempts := rfl
@[simp] theorem Lane.updTube_ctl_dwell (x : Lane) (f : Tube → Tube) : (x.updTube f).ctl.dwell = x.ctl.dwell := rfl
@[simp] theorem Lane.updFlags_exc (x : Lane) (f : TubeFlags → TubeFlags) : (x.updFlags f).exc = x.exc := rfl
@[simp] theorem Lane.updFlags_pos (x : Lane) (f : TubeFlags → TubeFlags) : (x.updFlags f).pos = x.pos := rfl
@[simp] theorem Lane.updFlags_capture (x : Lane) (f : TubeFlags → TubeFlags) : (x.updFlags f).capture = x.capture := rfl
@[simp] theorem Lane.updFlags_bases (x : Lane) (f : TubeFlags → TubeFlags) : (x.updFlags f).bases = x.bases := rfl
@[simp] theorem Lane.updFlags_mixes (x : Lane) (f : TubeFlags → TubeFlags) : (x.updFlags f).mixes = x.mixes := rfl
@[simp] theorem Lane.updFlags_store (x : Lane) (f : TubeFlags → TubeFlags) : (x.updFlags f).store = x.store := rfl
@[simp] theorem Lane.updFlags_screens (x : Lane) (f : TubeFlags → TubeFlags) : (x.updFlags f).screens = x.screens := rfl
@[simp] theorem Lane.updFlags_roi (x : Lane) (f : TubeFlags → TubeFlags) : (x.updFlags f).roi = x.roi := rfl
@[simp] theorem Lane.updFlags_landmark (x : Lane) (f : TubeFlags → TubeFlags) : (x.updFlags f).landmark = x.landmark := rfl
@[simp] theorem Lane.updFlags_detector (x : Lane) (f : TubeFlags → TubeFlags) : (x.updFlags f).detector = x.detector := rfl
@[simp] theorem Lane.updFlags_motion (x : Lane) (f : TubeFlags → TubeFlags) : (x.updFlags f).motion = x.motion := rfl
@[simp] theorem Lane.updFlags_drive (x : Lane) (f : TubeFlags → TubeFlags) : (x.updFlags f).drive = x.drive := rfl
@[simp] theorem Lane.updFlags_jobs (x : Lane) (f : TubeFlags → TubeFlags) : (x.updFlags f).jobs = x.jobs := rfl
@[simp] theorem Lane.updFlags_lineBlock (x : Lane) (f : TubeFlags → TubeFlags) : (x.updFlags f).lineBlock = x.lineBlock := rfl
@[simp] theorem Lane.updFlags_regionBlock (x : Lane) (f : TubeFlags → TubeFlags) : (x.updFlags f).regionBlock = x.regionBlock := rfl
@[simp] theorem Lane.updFlags_ring (x : Lane) (f : TubeFlags → TubeFlags) : (x.updFlags f).ring = x.ring := rfl
@[simp] theorem Lane.updFlags_tube (x : Lane) (f : TubeFlags → TubeFlags) :
    (x.updFlags f).ctl.tube = x.ctl.tube.map fun t => { t with flags := f t.flags } := rfl
@[simp] theorem Lane.updFlags_ctl_state (x : Lane) (f : TubeFlags → TubeFlags) : (x.updFlags f).ctl.state = x.ctl.state := rfl
@[simp] theorem Lane.updFlags_ctl_heldPhase (x : Lane) (f : TubeFlags → TubeFlags) : (x.updFlags f).ctl.heldPhase = x.ctl.heldPhase := rfl
@[simp] theorem Lane.updFlags_ctl_returnTo (x : Lane) (f : TubeFlags → TubeFlags) : (x.updFlags f).ctl.returnTo = x.ctl.returnTo := rfl
@[simp] theorem Lane.updFlags_ctl_worklist (x : Lane) (f : TubeFlags → TubeFlags) : (x.updFlags f).ctl.worklist = x.ctl.worklist := rfl
@[simp] theorem Lane.updFlags_ctl_rearm (x : Lane) (f : TubeFlags → TubeFlags) : (x.updFlags f).ctl.rearm = x.ctl.rearm := rfl
@[simp] theorem Lane.updFlags_ctl_poll (x : Lane) (f : TubeFlags → TubeFlags) : (x.updFlags f).ctl.poll = x.ctl.poll := rfl
@[simp] theorem Lane.updFlags_ctl_attempts (x : Lane) (f : TubeFlags → TubeFlags) : (x.updFlags f).ctl.attempts = x.ctl.attempts := rfl
@[simp] theorem Lane.updFlags_ctl_dwell (x : Lane) (f : TubeFlags → TubeFlags) : (x.updFlags f).ctl.dwell = x.ctl.dwell := rfl
@[simp] theorem Lane.enter_exc (x : Lane) (st : LaneState) : (x.enter st).exc = x.exc := rfl
@[simp] theorem Lane.enter_capture (x : Lane) (st : LaneState) : (x.enter st).capture = x.capture := rfl
@[simp] theorem Lane.enter_bases (x : Lane) (st : LaneState) : (x.enter st).bases = x.bases := rfl
@[simp] theorem Lane.enter_mixes (x : Lane) (st : LaneState) : (x.enter st).mixes = x.mixes := rfl
@[simp] theorem Lane.enter_store (x : Lane) (st : LaneState) : (x.enter st).store = x.store := rfl
@[simp] theorem Lane.enter_screens (x : Lane) (st : LaneState) : (x.enter st).screens = x.screens := rfl
@[simp] theorem Lane.enter_roi (x : Lane) (st : LaneState) : (x.enter st).roi = x.roi := rfl
@[simp] theorem Lane.enter_landmark (x : Lane) (st : LaneState) : (x.enter st).landmark = x.landmark := rfl
@[simp] theorem Lane.enter_detector (x : Lane) (st : LaneState) : (x.enter st).detector = x.detector := rfl
@[simp] theorem Lane.enter_motion (x : Lane) (st : LaneState) : (x.enter st).motion = x.motion := rfl
@[simp] theorem Lane.enter_drive (x : Lane) (st : LaneState) : (x.enter st).drive = x.drive := rfl
@[simp] theorem Lane.enter_jobs (x : Lane) (st : LaneState) : (x.enter st).jobs = x.jobs := rfl
@[simp] theorem Lane.enter_lineBlock (x : Lane) (st : LaneState) : (x.enter st).lineBlock = x.lineBlock := rfl
@[simp] theorem Lane.enter_regionBlock (x : Lane) (st : LaneState) : (x.enter st).regionBlock = x.regionBlock := rfl
@[simp] theorem Lane.enter_ring (x : Lane) (st : LaneState) : (x.enter st).ring = x.ring := rfl
@[simp] theorem Lane.enter_ctl (x : Lane) (st : LaneState) : (x.enter st).ctl = { x.ctl with state := st } := rfl
@[simp] theorem Lane.enter_pos (x : Lane) (st : LaneState) : (x.enter st).pos = { x.pos with wholePull := false } := rfl
@[simp] theorem Lane.stopDrive_exc (x : Lane) : (x.stopDrive).exc = x.exc := rfl
@[simp] theorem Lane.stopDrive_pos (x : Lane) : (x.stopDrive).pos = x.pos := rfl
@[simp] theorem Lane.stopDrive_capture (x : Lane) : (x.stopDrive).capture = x.capture := rfl
@[simp] theorem Lane.stopDrive_bases (x : Lane) : (x.stopDrive).bases = x.bases := rfl
@[simp] theorem Lane.stopDrive_mixes (x : Lane) : (x.stopDrive).mixes = x.mixes := rfl
@[simp] theorem Lane.stopDrive_store (x : Lane) : (x.stopDrive).store = x.store := rfl
@[simp] theorem Lane.stopDrive_screens (x : Lane) : (x.stopDrive).screens = x.screens := rfl
@[simp] theorem Lane.stopDrive_roi (x : Lane) : (x.stopDrive).roi = x.roi := rfl
@[simp] theorem Lane.stopDrive_landmark (x : Lane) : (x.stopDrive).landmark = x.landmark := rfl
@[simp] theorem Lane.stopDrive_detector (x : Lane) : (x.stopDrive).detector = x.detector := rfl
@[simp] theorem Lane.stopDrive_motion (x : Lane) : (x.stopDrive).motion = x.motion := rfl
@[simp] theorem Lane.stopDrive_ctl (x : Lane) : (x.stopDrive).ctl = x.ctl := rfl
@[simp] theorem Lane.stopDrive_jobs (x : Lane) : (x.stopDrive).jobs = x.jobs := rfl
@[simp] theorem Lane.stopDrive_lineBlock (x : Lane) : (x.stopDrive).lineBlock = x.lineBlock := rfl
@[simp] theorem Lane.stopDrive_regionBlock (x : Lane) : (x.stopDrive).regionBlock = x.regionBlock := rfl
@[simp] theorem Lane.stopDrive_ring (x : Lane) : (x.stopDrive).ring = x.ring := rfl
@[simp] theorem Lane.stopDrive_drive (x : Lane) : x.stopDrive.drive = x.drive.stop := rfl
@[simp] theorem Lane.disarmStops_exc (x : Lane) : (x.disarmStops).exc = x.exc := rfl
@[simp] theorem Lane.disarmStops_capture (x : Lane) : (x.disarmStops).capture = x.capture := rfl
@[simp] theorem Lane.disarmStops_bases (x : Lane) : (x.disarmStops).bases = x.bases := rfl
@[simp] theorem Lane.disarmStops_mixes (x : Lane) : (x.disarmStops).mixes = x.mixes := rfl
@[simp] theorem Lane.disarmStops_store (x : Lane) : (x.disarmStops).store = x.store := rfl
@[simp] theorem Lane.disarmStops_screens (x : Lane) : (x.disarmStops).screens = x.screens := rfl
@[simp] theorem Lane.disarmStops_roi (x : Lane) : (x.disarmStops).roi = x.roi := rfl
@[simp] theorem Lane.disarmStops_landmark (x : Lane) : (x.disarmStops).landmark = x.landmark := rfl
@[simp] theorem Lane.disarmStops_detector (x : Lane) : (x.disarmStops).detector = x.detector := rfl
@[simp] theorem Lane.disarmStops_motion (x : Lane) : (x.disarmStops).motion = x.motion := rfl
@[simp] theorem Lane.disarmStops_drive (x : Lane) : (x.disarmStops).drive = x.drive := rfl
@[simp] theorem Lane.disarmStops_ctl (x : Lane) : (x.disarmStops).ctl = x.ctl := rfl
@[simp] theorem Lane.disarmStops_jobs (x : Lane) : (x.disarmStops).jobs = x.jobs := rfl
@[simp] theorem Lane.disarmStops_lineBlock (x : Lane) : (x.disarmStops).lineBlock = x.lineBlock := rfl
@[simp] theorem Lane.disarmStops_regionBlock (x : Lane) : (x.disarmStops).regionBlock = x.regionBlock := rfl
@[simp] theorem Lane.disarmStops_ring (x : Lane) : (x.disarmStops).ring = x.ring := rfl
@[simp] theorem Lane.disarmStops_pos (x : Lane) : x.disarmStops.pos = { x.pos with armedA := false, armedB := false } := rfl
@[simp] theorem Lane.disarmCapture_exc (x : Lane) : (x.disarmCapture).exc = x.exc := rfl
@[simp] theorem Lane.disarmCapture_pos (x : Lane) : (x.disarmCapture).pos = x.pos := rfl
@[simp] theorem Lane.disarmCapture_bases (x : Lane) : (x.disarmCapture).bases = x.bases := rfl
@[simp] theorem Lane.disarmCapture_mixes (x : Lane) : (x.disarmCapture).mixes = x.mixes := rfl
@[simp] theorem Lane.disarmCapture_store (x : Lane) : (x.disarmCapture).store = x.store := rfl
@[simp] theorem Lane.disarmCapture_screens (x : Lane) : (x.disarmCapture).screens = x.screens := rfl
@[simp] theorem Lane.disarmCapture_roi (x : Lane) : (x.disarmCapture).roi = x.roi := rfl
@[simp] theorem Lane.disarmCapture_landmark (x : Lane) : (x.disarmCapture).landmark = x.landmark := rfl
@[simp] theorem Lane.disarmCapture_detector (x : Lane) : (x.disarmCapture).detector = x.detector := rfl
@[simp] theorem Lane.disarmCapture_motion (x : Lane) : (x.disarmCapture).motion = x.motion := rfl
@[simp] theorem Lane.disarmCapture_drive (x : Lane) : (x.disarmCapture).drive = x.drive := rfl
@[simp] theorem Lane.disarmCapture_ctl (x : Lane) : (x.disarmCapture).ctl = x.ctl := rfl
@[simp] theorem Lane.disarmCapture_jobs (x : Lane) : (x.disarmCapture).jobs = x.jobs := rfl
@[simp] theorem Lane.disarmCapture_lineBlock (x : Lane) : (x.disarmCapture).lineBlock = x.lineBlock := rfl
@[simp] theorem Lane.disarmCapture_regionBlock (x : Lane) : (x.disarmCapture).regionBlock = x.regionBlock := rfl
@[simp] theorem Lane.disarmCapture_ring (x : Lane) : (x.disarmCapture).ring = x.ring := rfl
@[simp] theorem Lane.disarmCapture_capture (x : Lane) : x.disarmCapture.capture = { armed := false, window := [] } := rfl
@[simp] theorem Lane.run_exc (x : Lane) (p : MotionPhase) (d : Nat) : (x.run p d).exc = x.exc := rfl
@[simp] theorem Lane.run_pos (x : Lane) (p : MotionPhase) (d : Nat) : (x.run p d).pos = x.pos := rfl
@[simp] theorem Lane.run_capture (x : Lane) (p : MotionPhase) (d : Nat) : (x.run p d).capture = x.capture := rfl
@[simp] theorem Lane.run_bases (x : Lane) (p : MotionPhase) (d : Nat) : (x.run p d).bases = x.bases := rfl
@[simp] theorem Lane.run_mixes (x : Lane) (p : MotionPhase) (d : Nat) : (x.run p d).mixes = x.mixes := rfl
@[simp] theorem Lane.run_store (x : Lane) (p : MotionPhase) (d : Nat) : (x.run p d).store = x.store := rfl
@[simp] theorem Lane.run_screens (x : Lane) (p : MotionPhase) (d : Nat) : (x.run p d).screens = x.screens := rfl
@[simp] theorem Lane.run_roi (x : Lane) (p : MotionPhase) (d : Nat) : (x.run p d).roi = x.roi := rfl
@[simp] theorem Lane.run_landmark (x : Lane) (p : MotionPhase) (d : Nat) : (x.run p d).landmark = x.landmark := rfl
@[simp] theorem Lane.run_detector (x : Lane) (p : MotionPhase) (d : Nat) : (x.run p d).detector = x.detector := rfl
@[simp] theorem Lane.run_motion (x : Lane) (p : MotionPhase) (d : Nat) : (x.run p d).motion = x.motion := rfl
@[simp] theorem Lane.run_ctl (x : Lane) (p : MotionPhase) (d : Nat) : (x.run p d).ctl = x.ctl := rfl
@[simp] theorem Lane.run_jobs (x : Lane) (p : MotionPhase) (d : Nat) : (x.run p d).jobs = x.jobs := rfl
@[simp] theorem Lane.run_lineBlock (x : Lane) (p : MotionPhase) (d : Nat) : (x.run p d).lineBlock = x.lineBlock := rfl
@[simp] theorem Lane.run_regionBlock (x : Lane) (p : MotionPhase) (d : Nat) : (x.run p d).regionBlock = x.regionBlock := rfl
@[simp] theorem Lane.run_ring (x : Lane) (p : MotionPhase) (d : Nat) : (x.run p d).ring = x.ring := rfl
@[simp] theorem Lane.resetScreens_exc (x : Lane) : (x.resetScreens).exc = x.exc := rfl
@[simp] theorem Lane.resetScreens_pos (x : Lane) : (x.resetScreens).pos = x.pos := rfl
@[simp] theorem Lane.resetScreens_capture (x : Lane) : (x.resetScreens).capture = x.capture := rfl
@[simp] theorem Lane.resetScreens_bases (x : Lane) : (x.resetScreens).bases = x.bases := rfl
@[simp] theorem Lane.resetScreens_mixes (x : Lane) : (x.resetScreens).mixes = x.mixes := rfl
@[simp] theorem Lane.resetScreens_store (x : Lane) : (x.resetScreens).store = x.store := rfl
@[simp] theorem Lane.resetScreens_landmark (x : Lane) : (x.resetScreens).landmark = x.landmark := rfl
@[simp] theorem Lane.resetScreens_detector (x : Lane) : (x.resetScreens).detector = x.detector := rfl
@[simp] theorem Lane.resetScreens_motion (x : Lane) : (x.resetScreens).motion = x.motion := rfl
@[simp] theorem Lane.resetScreens_drive (x : Lane) : (x.resetScreens).drive = x.drive := rfl
@[simp] theorem Lane.resetScreens_ctl (x : Lane) : (x.resetScreens).ctl = x.ctl := rfl
@[simp] theorem Lane.resetScreens_jobs (x : Lane) : (x.resetScreens).jobs = x.jobs := rfl
@[simp] theorem Lane.resetScreens_lineBlock (x : Lane) : (x.resetScreens).lineBlock = x.lineBlock := rfl
@[simp] theorem Lane.resetScreens_regionBlock (x : Lane) : (x.resetScreens).regionBlock = x.regionBlock := rfl
@[simp] theorem Lane.resetScreens_ring (x : Lane) : (x.resetScreens).ring = x.ring := rfl
@[simp] theorem Lane.setScan_pos (x : Lane) (freqs : List Nat) (slots : List Slot) (now : Nat) : (x.setScan freqs slots now).pos = x.pos := rfl
@[simp] theorem Lane.setScan_capture (x : Lane) (freqs : List Nat) (slots : List Slot) (now : Nat) : (x.setScan freqs slots now).capture = x.capture := rfl
@[simp] theorem Lane.setScan_bases (x : Lane) (freqs : List Nat) (slots : List Slot) (now : Nat) : (x.setScan freqs slots now).bases = x.bases := rfl
@[simp] theorem Lane.setScan_mixes (x : Lane) (freqs : List Nat) (slots : List Slot) (now : Nat) : (x.setScan freqs slots now).mixes = x.mixes := rfl
@[simp] theorem Lane.setScan_screens (x : Lane) (freqs : List Nat) (slots : List Slot) (now : Nat) : (x.setScan freqs slots now).screens = x.screens := rfl
@[simp] theorem Lane.setScan_roi (x : Lane) (freqs : List Nat) (slots : List Slot) (now : Nat) : (x.setScan freqs slots now).roi = x.roi := rfl
@[simp] theorem Lane.setScan_landmark (x : Lane) (freqs : List Nat) (slots : List Slot) (now : Nat) : (x.setScan freqs slots now).landmark = x.landmark := rfl
@[simp] theorem Lane.setScan_detector (x : Lane) (freqs : List Nat) (slots : List Slot) (now : Nat) : (x.setScan freqs slots now).detector = x.detector := rfl
@[simp] theorem Lane.setScan_motion (x : Lane) (freqs : List Nat) (slots : List Slot) (now : Nat) : (x.setScan freqs slots now).motion = x.motion := rfl
@[simp] theorem Lane.setScan_drive (x : Lane) (freqs : List Nat) (slots : List Slot) (now : Nat) : (x.setScan freqs slots now).drive = x.drive := rfl
@[simp] theorem Lane.setScan_ctl (x : Lane) (freqs : List Nat) (slots : List Slot) (now : Nat) : (x.setScan freqs slots now).ctl = x.ctl := rfl
@[simp] theorem Lane.setScan_jobs (x : Lane) (freqs : List Nat) (slots : List Slot) (now : Nat) : (x.setScan freqs slots now).jobs = x.jobs := rfl
@[simp] theorem Lane.setScan_lineBlock (x : Lane) (freqs : List Nat) (slots : List Slot) (now : Nat) : (x.setScan freqs slots now).lineBlock = x.lineBlock := rfl
@[simp] theorem Lane.setScan_regionBlock (x : Lane) (freqs : List Nat) (slots : List Slot) (now : Nat) : (x.setScan freqs slots now).regionBlock = x.regionBlock := rfl
@[simp] theorem Lane.setScan_ring (x : Lane) (freqs : List Nat) (slots : List Slot) (now : Nat) : (x.setScan freqs slots now).ring = x.ring := rfl
@[simp] theorem Lane.setBase_exc (x : Lane) (ch : Nat) (b : BaseChannel) : (x.setBase ch b).exc = x.exc := rfl
@[simp] theorem Lane.setBase_pos (x : Lane) (ch : Nat) (b : BaseChannel) : (x.setBase ch b).pos = x.pos := rfl
@[simp] theorem Lane.setBase_capture (x : Lane) (ch : Nat) (b : BaseChannel) : (x.setBase ch b).capture = x.capture := rfl
@[simp] theorem Lane.setBase_mixes (x : Lane) (ch : Nat) (b : BaseChannel) : (x.setBase ch b).mixes = x.mixes := rfl
@[simp] theorem Lane.setBase_store (x : Lane) (ch : Nat) (b : BaseChannel) : (x.setBase ch b).store = x.store := rfl
@[simp] theorem Lane.setBase_screens (x : Lane) (ch : Nat) (b : BaseChannel) : (x.setBase ch b).screens = x.screens := rfl
@[simp] theorem Lane.setBase_roi (x : Lane) (ch : Nat) (b : BaseChannel) : (x.setBase ch b).roi = x.roi := rfl
@[simp] theorem Lane.setBase_landmark (x : Lane) (ch : Nat) (b : BaseChannel) : (x.setBase ch b).landmark = x.landmark := rfl
@[simp] theorem Lane.setBase_detector (x : Lane) (ch : Nat) (b : BaseChannel) : (x.setBase ch b).detector = x.detector := rfl
@[simp] theorem Lane.setBase_motion (x : Lane) (ch : Nat) (b : BaseChannel) : (x.setBase ch b).motion = x.motion := rfl
@[simp] theorem Lane.setBase_drive (x : Lane) (ch : Nat) (b : BaseChannel) : (x.setBase ch b).drive = x.drive := rfl
@[simp] theorem Lane.setBase_ctl (x : Lane) (ch : Nat) (b : BaseChannel) : (x.setBase ch b).ctl = x.ctl := rfl
@[simp] theorem Lane.setBase_jobs (x : Lane) (ch : Nat) (b : BaseChannel) : (x.setBase ch b).jobs = x.jobs := rfl
@[simp] theorem Lane.setBase_lineBlock (x : Lane) (ch : Nat) (b : BaseChannel) : (x.setBase ch b).lineBlock = x.lineBlock := rfl
@[simp] theorem Lane.setBase_regionBlock (x : Lane) (ch : Nat) (b : BaseChannel) : (x.setBase ch b).regionBlock = x.regionBlock := rfl
@[simp] theorem Lane.setBase_ring (x : Lane) (ch : Nat) (b : BaseChannel) : (x.setBase ch b).ring = x.ring := rfl
@[simp] theorem Lane.setMix_exc (x : Lane) (ch : Nat) (m : MixChannel) : (x.setMix ch m).exc = x.exc := rfl
@[simp] theorem Lane.setMix_pos (x : Lane) (ch : Nat) (m : MixChannel) : (x.setMix ch m).pos = x.pos := rfl
@[simp] theorem Lane.setMix_capture (x : Lane) (ch : Nat) (m : MixChannel) : (x.setMix ch m).capture = x.capture := rfl
@[simp] theorem Lane.setMix_bases (x : Lane) (ch : Nat) (m : MixChannel) : (x.setMix ch m).bases = x.bases := rfl
@[simp] theorem Lane.setMix_store (x : Lane) (ch : Nat) (m : MixChannel) : (x.setMix ch m).store = x.store := rfl
@[simp] theorem Lane.setMix_screens (x : Lane) (ch : Nat) (m : MixChannel) : (x.setMix ch m).screens = x.screens := rfl
@[simp] theorem Lane.setMix_roi (x : Lane) (ch : Nat) (m : MixChannel) : (x.setMix ch m).roi = x.roi := rfl
@[simp] theorem Lane.setMix_landmark (x : Lane) (ch : Nat) (m : MixChannel) : (x.setMix ch m).landmark = x.landmark := rfl
@[simp] theorem Lane.setMix_detector (x : Lane) (ch : Nat) (m : MixChannel) : (x.setMix ch m).detector = x.detector := rfl
@[simp] theorem Lane.setMix_motion (x : Lane) (ch : Nat) (m : MixChannel) : (x.setMix ch m).motion = x.motion := rfl
@[simp] theorem Lane.setMix_drive (x : Lane) (ch : Nat) (m : MixChannel) : (x.setMix ch m).drive = x.drive := rfl
@[simp] theorem Lane.setMix_ctl (x : Lane) (ch : Nat) (m : MixChannel) : (x.setMix ch m).ctl = x.ctl := rfl
@[simp] theorem Lane.setMix_jobs (x : Lane) (ch : Nat) (m : MixChannel) : (x.setMix ch m).jobs = x.jobs := rfl
@[simp] theorem Lane.setMix_lineBlock (x : Lane) (ch : Nat) (m : MixChannel) : (x.setMix ch m).lineBlock = x.lineBlock := rfl
@[simp] theorem Lane.setMix_regionBlock (x : Lane) (ch : Nat) (m : MixChannel) : (x.setMix ch m).regionBlock = x.regionBlock := rfl
@[simp] theorem Lane.setMix_ring (x : Lane) (ch : Nat) (m : MixChannel) : (x.setMix ch m).ring = x.ring := rfl
@[simp] theorem Lane.setMotion_exc (x : Lane) (scale : Nat) (m : Motion) : (x.setMotion scale m).exc = x.exc := rfl
@[simp] theorem Lane.setMotion_capture (x : Lane) (scale : Nat) (m : Motion) : (x.setMotion scale m).capture = x.capture := rfl
@[simp] theorem Lane.setMotion_bases (x : Lane) (scale : Nat) (m : Motion) : (x.setMotion scale m).bases = x.bases := rfl
@[simp] theorem Lane.setMotion_mixes (x : Lane) (scale : Nat) (m : Motion) : (x.setMotion scale m).mixes = x.mixes := rfl
@[simp] theorem Lane.setMotion_store (x : Lane) (scale : Nat) (m : Motion) : (x.setMotion scale m).store = x.store := rfl
@[simp] theorem Lane.setMotion_screens (x : Lane) (scale : Nat) (m : Motion) : (x.setMotion scale m).screens = x.screens := rfl
@[simp] theorem Lane.setMotion_roi (x : Lane) (scale : Nat) (m : Motion) : (x.setMotion scale m).roi = x.roi := rfl
@[simp] theorem Lane.setMotion_landmark (x : Lane) (scale : Nat) (m : Motion) : (x.setMotion scale m).landmark = x.landmark := rfl
@[simp] theorem Lane.setMotion_detector (x : Lane) (scale : Nat) (m : Motion) : (x.setMotion scale m).detector = x.detector := rfl
@[simp] theorem Lane.setMotion_drive (x : Lane) (scale : Nat) (m : Motion) : (x.setMotion scale m).drive = x.drive := rfl
@[simp] theorem Lane.setMotion_ctl (x : Lane) (scale : Nat) (m : Motion) : (x.setMotion scale m).ctl = x.ctl := rfl
@[simp] theorem Lane.setMotion_jobs (x : Lane) (scale : Nat) (m : Motion) : (x.setMotion scale m).jobs = x.jobs := rfl
@[simp] theorem Lane.setMotion_lineBlock (x : Lane) (scale : Nat) (m : Motion) : (x.setMotion scale m).lineBlock = x.lineBlock := rfl
@[simp] theorem Lane.setMotion_regionBlock (x : Lane) (scale : Nat) (m : Motion) : (x.setMotion scale m).regionBlock = x.regionBlock := rfl
@[simp] theorem Lane.setMotion_ring (x : Lane) (scale : Nat) (m : Motion) : (x.setMotion scale m).ring = x.ring := rfl
@[simp] theorem Lane.accept_exc (x : Lane) (phase : EncPhase) : (x.accept phase).exc = x.exc := rfl
@[simp] theorem Lane.accept_capture (x : Lane) (phase : EncPhase) : (x.accept phase).capture = x.capture := rfl
@[simp] theorem Lane.accept_bases (x : Lane) (phase : EncPhase) : (x.accept phase).bases = x.bases := rfl
@[simp] theorem Lane.accept_mixes (x : Lane) (phase : EncPhase) : (x.accept phase).mixes = x.mixes := rfl
@[simp] theorem Lane.accept_store (x : Lane) (phase : EncPhase) : (x.accept phase).store = x.store := rfl
@[simp] theorem Lane.accept_screens (x : Lane) (phase : EncPhase) : (x.accept phase).screens = x.screens := rfl
@[simp] theorem Lane.accept_roi (x : Lane) (phase : EncPhase) : (x.accept phase).roi = x.roi := rfl
@[simp] theorem Lane.accept_landmark (x : Lane) (phase : EncPhase) : (x.accept phase).landmark = x.landmark := rfl
@[simp] theorem Lane.accept_detector (x : Lane) (phase : EncPhase) : (x.accept phase).detector = x.detector := rfl
@[simp] theorem Lane.accept_motion (x : Lane) (phase : EncPhase) : (x.accept phase).motion = x.motion := rfl
@[simp] theorem Lane.accept_drive (x : Lane) (phase : EncPhase) : (x.accept phase).drive = x.drive := rfl
@[simp] theorem Lane.accept_ctl (x : Lane) (phase : EncPhase) : (x.accept phase).ctl = x.ctl := rfl
@[simp] theorem Lane.accept_jobs (x : Lane) (phase : EncPhase) : (x.accept phase).jobs = x.jobs := rfl
@[simp] theorem Lane.accept_lineBlock (x : Lane) (phase : EncPhase) : (x.accept phase).lineBlock = x.lineBlock := rfl
@[simp] theorem Lane.accept_regionBlock (x : Lane) (phase : EncPhase) : (x.accept phase).regionBlock = x.regionBlock := rfl
@[simp] theorem Lane.accept_ring (x : Lane) (phase : EncPhase) : (x.accept phase).ring = x.ring := rfl
@[simp] theorem Lane.encoderError_exc (x : Lane) : (x.encoderError).exc = x.exc := rfl
@[simp] theorem Lane.encoderError_capture (x : Lane) : (x.encoderError).capture = x.capture := rfl
@[simp] theorem Lane.encoderError_bases (x : Lane) : (x.encoderError).bases = x.bases := rfl
@[simp] theorem Lane.encoderError_mixes (x : Lane) : (x.encoderError).mixes = x.mixes := rfl
@[simp] theorem Lane.encoderError_store (x : Lane) : (x.encoderError).store = x.store := rfl
@[simp] theorem Lane.encoderError_screens (x : Lane) : (x.encoderError).screens = x.screens := rfl
@[simp] theorem Lane.encoderError_roi (x : Lane) : (x.encoderError).roi = x.roi := rfl
@[simp] theorem Lane.encoderError_landmark (x : Lane) : (x.encoderError).landmark = x.landmark := rfl
@[simp] theorem Lane.encoderError_detector (x : Lane) : (x.encoderError).detector = x.detector := rfl
@[simp] theorem Lane.encoderError_motion (x : Lane) : (x.encoderError).motion = x.motion := rfl
@[simp] theorem Lane.encoderError_drive (x : Lane) : (x.encoderError).drive = x.drive := rfl
@[simp] theorem Lane.encoderError_ctl (x : Lane) : (x.encoderError).ctl = x.ctl := rfl
@[simp] theorem Lane.encoderError_jobs (x : Lane) : (x.encoderError).jobs = x.jobs := rfl
@[simp] theorem Lane.encoderError_lineBlock (x : Lane) : (x.encoderError).lineBlock = x.lineBlock := rfl
@[simp] theorem Lane.encoderError_regionBlock (x : Lane) : (x.encoderError).regionBlock = x.regionBlock := rfl
@[simp] theorem Lane.encoderError_ring (x : Lane) : (x.encoderError).ring = x.ring := rfl
@[simp] theorem Lane.beginSlot_pos (x : Lane) (slot start : Nat) (part : List Sample) : (x.beginSlot slot start part).pos = x.pos := rfl
@[simp] theorem Lane.beginSlot_capture (x : Lane) (slot start : Nat) (part : List Sample) : (x.beginSlot slot start part).capture = x.capture := rfl
@[simp] theorem Lane.beginSlot_bases (x : Lane) (slot start : Nat) (part : List Sample) : (x.beginSlot slot start part).bases = x.bases := rfl
@[simp] theorem Lane.beginSlot_mixes (x : Lane) (slot start : Nat) (part : List Sample) : (x.beginSlot slot start part).mixes = x.mixes := rfl
@[simp] theorem Lane.beginSlot_store (x : Lane) (slot start : Nat) (part : List Sample) : (x.beginSlot slot start part).store = x.store := rfl
@[simp] theorem Lane.beginSlot_screens (x : Lane) (slot start : Nat) (part : List Sample) : (x.beginSlot slot start part).screens = x.screens := rfl
@[simp] theorem Lane.beginSlot_roi (x : Lane) (slot start : Nat) (part : List Sample) : (x.beginSlot slot start part).roi = x.roi := rfl
@[simp] theorem Lane.beginSlot_landmark (x : Lane) (slot start : Nat) (part : List Sample) : (x.beginSlot slot start part).landmark = x.landmark := rfl
@[simp] theorem Lane.beginSlot_detector (x : Lane) (slot start : Nat) (part : List Sample) : (x.beginSlot slot start part).detector = x.detector := rfl
@[simp] theorem Lane.beginSlot_motion (x : Lane) (slot start : Nat) (part : List Sample) : (x.beginSlot slot start part).motion = x.motion := rfl
@[simp] theorem Lane.beginSlot_drive (x : Lane) (slot start : Nat) (part : List Sample) : (x.beginSlot slot start part).drive = x.drive := rfl
@[simp] theorem Lane.beginSlot_ctl (x : Lane) (slot start : Nat) (part : List Sample) : (x.beginSlot slot start part).ctl = x.ctl := rfl
@[simp] theorem Lane.beginSlot_jobs (x : Lane) (slot start : Nat) (part : List Sample) : (x.beginSlot slot start part).jobs = x.jobs := rfl
@[simp] theorem Lane.beginSlot_lineBlock (x : Lane) (slot start : Nat) (part : List Sample) : (x.beginSlot slot start part).lineBlock = x.lineBlock := rfl
@[simp] theorem Lane.beginSlot_regionBlock (x : Lane) (slot start : Nat) (part : List Sample) : (x.beginSlot slot start part).regionBlock = x.regionBlock := rfl
@[simp] theorem Lane.beginSlot_ring (x : Lane) (slot start : Nat) (part : List Sample) : (x.beginSlot slot start part).ring = x.ring := rfl
@[simp] theorem Lane.toPhase_pos (x : Lane) (r : Running) (p : SlotPhase) : (x.toPhase r p).pos = x.pos := rfl
@[simp] theorem Lane.toPhase_capture (x : Lane) (r : Running) (p : SlotPhase) : (x.toPhase r p).capture = x.capture := rfl
@[simp] theorem Lane.toPhase_bases (x : Lane) (r : Running) (p : SlotPhase) : (x.toPhase r p).bases = x.bases := rfl
@[simp] theorem Lane.toPhase_mixes (x : Lane) (r : Running) (p : SlotPhase) : (x.toPhase r p).mixes = x.mixes := rfl
@[simp] theorem Lane.toPhase_store (x : Lane) (r : Running) (p : SlotPhase) : (x.toPhase r p).store = x.store := rfl
@[simp] theorem Lane.toPhase_screens (x : Lane) (r : Running) (p : SlotPhase) : (x.toPhase r p).screens = x.screens := rfl
@[simp] theorem Lane.toPhase_roi (x : Lane) (r : Running) (p : SlotPhase) : (x.toPhase r p).roi = x.roi := rfl
@[simp] theorem Lane.toPhase_landmark (x : Lane) (r : Running) (p : SlotPhase) : (x.toPhase r p).landmark = x.landmark := rfl
@[simp] theorem Lane.toPhase_detector (x : Lane) (r : Running) (p : SlotPhase) : (x.toPhase r p).detector = x.detector := rfl
@[simp] theorem Lane.toPhase_motion (x : Lane) (r : Running) (p : SlotPhase) : (x.toPhase r p).motion = x.motion := rfl
@[simp] theorem Lane.toPhase_drive (x : Lane) (r : Running) (p : SlotPhase) : (x.toPhase r p).drive = x.drive := rfl
@[simp] theorem Lane.toPhase_ctl (x : Lane) (r : Running) (p : SlotPhase) : (x.toPhase r p).ctl = x.ctl := rfl
@[simp] theorem Lane.toPhase_jobs (x : Lane) (r : Running) (p : SlotPhase) : (x.toPhase r p).jobs = x.jobs := rfl
@[simp] theorem Lane.toPhase_lineBlock (x : Lane) (r : Running) (p : SlotPhase) : (x.toPhase r p).lineBlock = x.lineBlock := rfl
@[simp] theorem Lane.toPhase_regionBlock (x : Lane) (r : Running) (p : SlotPhase) : (x.toPhase r p).regionBlock = x.regionBlock := rfl
@[simp] theorem Lane.toPhase_ring (x : Lane) (r : Running) (p : SlotPhase) : (x.toPhase r p).ring = x.ring := rfl

/-! ### The drive -/

@[simp] theorem Drive.stop_guide (d : Drive) : d.stop.guide = d.guide := rfl
@[simp] theorem Drive.stop_home (d : Drive) : d.stop.home = d.home := rfl
@[simp] theorem Drive.stop_fault (d : Drive) : d.stop.fault = d.fault := rfl
@[simp] theorem Drive.stop_dir (d : Drive) : d.stop.dir = d.dir := rfl

theorem Drive.stop_stopped (d : Drive) : d.stop.stopped := ⟨rfl, rfl, rfl, rfl, rfl⟩

@[simp] theorem Drive.input_setInput (d : Drive) (i : InputId) (v : Input) : (d.setInput i v).input i = v := by cases i <;> rfl

theorem Drive.input_setInput_ne (d : Drive) {i j : InputId} (h : j ≠ i) (v : Input) : (d.setInput i v).input j = d.input j := by
  cases i <;> cases j <;> first | rfl | exact absurd rfl h

@[simp] theorem Drive.setInput_enabled (d : Drive) (i : InputId) (v : Input) : (d.setInput i v).enabled = d.enabled := by cases i <;> rfl
@[simp] theorem Drive.setInput_brake (d : Drive) (i : InputId) (v : Input) : (d.setInput i v).brake = d.brake := by cases i <;> rfl
@[simp] theorem Drive.setInput_duty (d : Drive) (i : InputId) (v : Input) : (d.setInput i v).duty = d.duty := by cases i <;> rfl
@[simp] theorem Drive.setInput_dir (d : Drive) (i : InputId) (v : Input) : (d.setInput i v).dir = d.dir := by cases i <;> rfl
@[simp] theorem Drive.setInput_phase (d : Drive) (i : InputId) (v : Input) : (d.setInput i v).phase = d.phase := by cases i <;> rfl
@[simp] theorem Drive.setInput_window (d : Drive) (i : InputId) (v : Input) : (d.setInput i v).window = d.window := by cases i <;> rfl

end Sys2Proof.Machine
end

