-- ==== Sys2Proof/Laws/Ops.lean ====
section
/-! SUPPORT. One lemma for each operation over the transmitter, record memory and the engine that says what it can do. -/

namespace Sys2Proof.Machine

/-! ### What the transmitter and record memory can change -/

/-- From `s` to `t` only record memory, the reply slot and the transmitter may differ. -/
structure State.Reports (s t : State) : Prop where
  laneA : t.laneA = s.laneA
  laneB : t.laneB = s.laneB
  layouts : t.layouts = s.layouts
  engine : t.engine = s.engine
  clock : t.clock = s.clock
  pending : t.pending = s.pending
  link : t.link = { s.link with slot := t.link.slot, tx := t.link.tx }

theorem State.Reports.refl (s : State) : s.Reports s := ⟨rfl, rfl, rfl, rfl, rfl, rfl, rfl⟩

theorem State.Reports.trans {s t u : State} (h : s.Reports t) (k : t.Reports u) : s.Reports u :=
  ⟨k.laneA.trans h.laneA, k.laneB.trans h.laneB, k.layouts.trans h.layouts, k.engine.trans h.engine, k.clock.trans h.clock,
    k.pending.trans h.pending, by rw [k.link, h.link]⟩

theorem State.Reports.lane {s t : State} (h : s.Reports t) (l : LaneId) : t.lane l = s.lane l := State.lane_congr h.laneA h.laneB l

theorem State.Reports.pool (s : State) (p : Pool) : s.Reports { s with pool := p } := ⟨rfl, rfl, rfl, rfl, rfl, rfl, rfl⟩

theorem State.Reports.line (s : State) (slot : Option Reply) (tx : Transmitter) :
    s.Reports { s with link := { s.link with slot := slot, tx := tx } } := ⟨rfl, rfl, rfl, rfl, rfl, rfl, rfl⟩

/-! ### The transmitter (R179, R180) -/

/-- What the transmitter can choose: the reply in the slot, the front record, or nothing. -/
theorem State.choose_cases (s : State) :
    (∃ r, s.link.up = true ∧ s.link.slot = some r ∧
      s.choose = { s with link := { s.link with
        slot := none, tx := .sending .reply (frameOf r.payload) (s.clock + 1000 * (r.payload.length + 8)) } }) ∨
    (∃ k rest, s.link.up = true ∧ s.link.slot = none ∧ s.pool.queue = k :: rest ∧
      s.choose = { s with link := { s.link with
        tx := .sending .record (frameOf k.payload) (s.clock + 1000 * (k.payload.length + 8)) } }) ∨
    ((s.link.up = false ∨ (s.link.slot = none ∧ s.pool.queue = [])) ∧
      s.choose = { s with link := { s.link with tx := .idle } }) := by
  unfold State.choose State.send
  cases hu : s.link.up
  · exact .inr (.inr ⟨.inl rfl, by simp⟩)
  · cases hs : s.link.slot with
    | some r => exact .inl ⟨r, rfl, rfl, by simp [Config.byteNs]⟩
    | none =>
      cases hq : s.pool.queue with
      | nil => exact .inr (.inr ⟨.inr ⟨rfl, rfl⟩, by simp [hs]⟩)
      | cons k rest => exact .inr (.inl ⟨k, rest, rfl, rfl, rfl, by simp [Config.byteNs, hs]⟩)

theorem State.choose_pool (s : State) : s.choose.pool = s.pool := by
  obtain ⟨_, _, _, h⟩ | ⟨_, _, _, _, _, h⟩ | ⟨_, h⟩ := s.choose_cases <;> rw [h]

theorem State.choose_reports (s : State) : s.Reports s.choose := by
  obtain ⟨_, _, _, h⟩ | ⟨_, _, _, _, _, h⟩ | ⟨_, h⟩ := s.choose_cases <;> rw [h] <;> exact ⟨rfl, rfl, rfl, rfl, rfl, rfl, rfl⟩

/-- An IDLE transmitter chooses; a SENDING one goes on. -/
theorem State.kick_cases (s : State) :
    (s.link.tx = .idle ∧ s.kick = s.choose) ∨ (∃ w f d, s.link.tx = .sending w f d ∧ s.kick = s) := by
  unfold State.kick
  cases h : s.link.tx with
  | idle => exact .inl ⟨rfl, rfl⟩
  | sending w f d => exact .inr ⟨w, f, d, rfl, rfl⟩

theorem State.kick_pool (s : State) : s.kick.pool = s.pool := by
  obtain ⟨_, h⟩ | ⟨_, _, _, _, h⟩ := s.kick_cases
  · rw [h, s.choose_pool]
  · rw [h]

theorem State.kick_reports (s : State) : s.Reports s.kick := by
  obtain ⟨_, h⟩ | ⟨_, _, _, _, h⟩ := s.kick_cases <;> rw [h]
  · exact s.choose_reports
  · exact .refl s

theorem State.placeReply_pool (s : State) (r : Reply) : (s.placeReply r).pool = s.pool := State.kick_pool _

theorem State.placeReply_reports (s : State) (r : Reply) : s.Reports (s.placeReply r) :=
  (State.Reports.line s (some r) s.link.tx).trans (State.kick_reports _)

/-- A reply is on the line at once where the transmitter is IDLE and the link UP, and otherwise waits in the slot. -/
theorem State.placeReply_link (s : State) (r : Reply) :
    s.placeReply r = { s with link :=
      if s.link.up = true ∧ s.link.tx = .idle then
        { s.link with slot := none, tx := .sending .reply (frameOf r.payload) (s.clock + 1000 * (r.payload.length + 8)) }
      else { s.link with slot := some r } } := by
  unfold State.placeReply State.kick State.choose State.send
  cases ht : s.link.tx with
  | idle =>
    cases hu : s.link.up
    · simp [ht]
    · simp [Config.byteNs]
  | sending w f d => simp

/-! ### Record memory (R157 to R161, R170) -/

theorem State.enqueue_pool (s : State) (r : Record) : (s.enqueue r).pool = { s.pool with queue := s.pool.queue ++ [r] } :=
  State.kick_pool _

theorem State.enqueue_reports (s : State) (r : Record) : s.Reports (s.enqueue r) :=
  (State.Reports.pool s _).trans (State.kick_reports _)

/-- A notice is dropped and counted without a free buffer, and joins the queue with one. -/
theorem State.rawNotice_pool (s : State) (n : Notice) :
    (s.rawNotice n).pool =
      if s.pool.free = 0 then { s.pool with dropped := countUp Config.count32Max s.pool.dropped }
      else { s.pool with free := s.pool.free - 1, queue := s.pool.queue ++ [.notice n] } := by
  unfold State.rawNotice
  split
  · rfl
  · rw [State.enqueue_pool]

theorem State.rawNotice_reports (s : State) (n : Notice) : s.Reports (s.rawNotice n) := by
  unfold State.rawNotice
  split
  · exact .pool s _
  · exact (State.Reports.pool s _).trans (State.enqueue_reports _ _)

theorem State.becomeTight_reports (s : State) : s.Reports s.becomeTight :=
  (State.Reports.pool s _).trans (State.rawNotice_reports _ _)

theorem State.becomeEasy_reports (s : State) : s.Reports s.becomeEasy :=
  (State.Reports.pool s _).trans (State.rawNotice_reports _ _)

/-- What the test of the pool can come to. -/
theorem State.testPool_cases (s : State) :
    (s.pool.tight = true ∧ s.pool.free < s.pool.resume ∧ s.testPool = s) ∨
    (s.pool.tight = true ∧ s.pool.resume ≤ s.pool.free ∧
      (s.testPool = s.becomeEasy ∨ s.testPool = s.becomeEasy.becomeTight)) ∨
    (s.pool.tight = false ∧ s.pool.low < s.pool.free ∧ s.testPool = s) ∨
    (s.pool.tight = false ∧ s.pool.free ≤ s.pool.low ∧ s.testPool = s.becomeTight) := by
  unfold State.testPool
  cases s.pool.tight
  · by_cases h : s.pool.free ≤ s.pool.low
    · simp [h]
    · simp [h, Nat.lt_of_not_le h]
  · by_cases h : s.pool.resume ≤ s.pool.free
    · simp only [if_true, if_pos h]
      by_cases k : s.becomeEasy.pool.free ≤ s.becomeEasy.pool.low <;> simp [h, k]
    · simp [h, Nat.lt_of_not_le h]

theorem State.testPool_reports (s : State) : s.Reports s.testPool := by
  obtain ⟨_, _, h⟩ | ⟨_, _, h | h⟩ | ⟨_, _, h⟩ | ⟨_, _, h⟩ := s.testPool_cases <;> rw [h]
  · exact .refl s
  · exact s.becomeEasy_reports
  · exact s.becomeEasy_reports.trans (State.becomeTight_reports _)
  · exact .refl s
  · exact s.becomeTight_reports

/-- A notice adds to the outbound queue at its back, at most itself. -/
theorem State.rawNotice_queue (s : State) (n : Notice) : ∃ more, (s.rawNotice n).pool.queue = s.pool.queue ++ more := by
  rw [State.rawNotice_pool]
  split
  · exact ⟨[], by simp⟩
  · exact ⟨[.notice n], rfl⟩

/-- The test of the pool adds to the outbound queue at its back. -/
theorem State.testPool_queue (s : State) : ∃ more, s.testPool.pool.queue = s.pool.queue ++ more := by
  have easy : ∃ more, s.becomeEasy.pool.queue = s.pool.queue ++ more := by
    obtain ⟨m, h⟩ := State.rawNotice_queue { s with pool := { s.pool with tight := false } } (unitNotice .poolEasy)
    exact ⟨m, h⟩
  have tight : ∀ t : State, ∃ more, t.becomeTight.pool.queue = t.pool.queue ++ more := fun t => by
    obtain ⟨m, h⟩ := State.rawNotice_queue { t with pool := { t.pool with tight := true } } (unitNotice .poolTight)
    exact ⟨m, h⟩
  obtain ⟨_, _, h⟩ | ⟨_, _, h | h⟩ | ⟨_, _, h⟩ | ⟨_, _, h⟩ := s.testPool_cases <;> rw [h]
  · exact ⟨[], by simp⟩
  · exact easy
  · obtain ⟨m, hm⟩ := easy
    obtain ⟨k, hk⟩ := tight s.becomeEasy
    exact ⟨m ++ k, by rw [hk, hm, List.append_assoc]⟩
  · exact ⟨[], by simp⟩
  · exact tight s

theorem State.takeBuffer_reports (s : State) : s.Reports s.takeBuffer :=
  (State.Reports.pool s _).trans (State.testPool_reports _)

theorem State.returnBuffer_reports (s : State) : s.Reports s.returnBuffer :=
  (State.Reports.pool s _).trans (State.testPool_reports _)

theorem State.queueRecord_reports (s : State) (r : Record) : s.Reports (s.queueRecord r) :=
  ((State.Reports.pool s _).trans (State.enqueue_reports _ _)).trans (State.testPool_reports _)

/-- A record that is queued stands behind every record that was there, before the pool's own notices. -/
theorem State.queueRecord_queue (s : State) (r : Record) : ∃ more, (s.queueRecord r).pool.queue = s.pool.queue ++ r :: more := by
  obtain ⟨more, h⟩ := State.testPool_queue (({ s with pool := { s.pool with free := s.pool.free - 1 } } : State).enqueue r)
  exact ⟨more, by rw [State.queueRecord, h, State.enqueue_pool]; simp⟩

theorem State.formNotice_reports (s : State) (n : Notice) : s.Reports (s.formNotice n) := by
  unfold State.formNotice
  split
  · exact s.rawNotice_reports n
  · exact s.queueRecord_reports _

/-- A notice is formed or dropped (R170). -/
theorem State.formNotice_formed (s : State) (n : Notice) : s.formed (s.formNotice n) n := by
  unfold State.formNotice State.formed
  split
  · rename_i h
    rw [State.rawNotice_pool, if_pos h]
    rfl
  · exact s.queueRecord_queue _

theorem State.emit_reports (s : State) (l : LaneId) (kind : NoticeKind) (cause : Option FaultCause) :
    s.Reports (s.emit l kind cause) := by
  unfold State.emit
  split
  · exact s.formNotice_reports _
  · exact .refl s

/-- An emitted notice is formed where the event mask has its bit set (R182). -/
theorem State.emit_noticed (s : State) (l : LaneId) (kind : NoticeKind) (bit : Nat) (cause : Option FaultCause)
    (h : kind.maskBit = some bit) : s.noticed (s.emit l kind cause) l kind bit (s.lane l).tag cause := by
  unfold State.emit State.noticed Link.enables
  rw [h]
  split
  · exact s.formNotice_formed _
  · rfl

/-! ### The engine (R77 to R79) -/

/-- What the engine takes from a lane's queue. -/
theorem State.engineTake_cases (s : State) (l : LaneId) :
    ((s.lane l).jobs = [] ∧ s.engineTake l = s) ∨
    (∃ j rest, (s.lane l).jobs = j :: rest ∧
      s.engineTake l =
        { s.setLane l { s.lane l with jobs := rest } with
          engine :=
            { busy := some { lane := l, job := j, discarded := false, doneAt := s.clock + j.runningTime }, servedLast := l } }) := by
  unfold State.engineTake
  cases h : (s.lane l).jobs with
  | nil => exact .inl ⟨rfl, rfl⟩
  | cons j rest => exact .inr ⟨j, rest, rfl, rfl⟩

/-- A job goes to an idle engine whose lane has no other, or to the back of the lane's queue. -/
theorem State.appendJob_busy (s : State) (l : LaneId) (j : Job) (h : s.engine.busy.isNone = false) :
    s.appendJob l j = s.setLane l { s.lane l with jobs := (s.lane l).jobs ++ [j] } := by
  unfold State.appendJob
  rw [h]
  rfl

/-- An idle engine takes the job of a lane that has no other at once. -/
theorem State.appendJob_idle (s : State) (l : LaneId) (j : Job) (h : s.engine.busy = none) (hj : (s.lane l).jobs = []) :
    s.appendJob l j =
      { s with engine :=
        { busy := some { lane := l, job := j, discarded := false, doneAt := s.clock + j.runningTime }, servedLast := l } } := by
  unfold State.appendJob State.engineTake
  cases l <;> simp_all [State.upd, State.setLane, State.lane] <;> rw [← hj]

/-! ### The request handler (R177, R178) -/

/-- A request row has no effect, or takes the front frame and concludes it. -/
theorem State.handle_cases (s : State) (kind : Nat → Bool) (f : List Byte → State → Handled) :
    s.handle kind f = s ∨
    ∃ p, s.takes p ∧ kind (u8At p 0) = true ∧ s.handle kind f = s.popRequest.conclude p (f p s.popRequest) := by
  unfold State.handle Link.front
  cases hh : s.link.handler with
  | working hdr => simp
  | free =>
    cases hs : s.link.slot with
    | some r => simp
    | none =>
      cases hr : s.link.requests with
      | nil => simp
      | cons p rest =>
        by_cases hk : kind (u8At p 0) = true
        · exact .inr ⟨p, ⟨hh, hs, by rw [hr]; rfl⟩, hk, by simp [hk]⟩
        · exact .inl (by simp [hk])

/-- The handler takes the front frame of the row's kind. -/
theorem State.handle_takes (s : State) (kind : Nat → Bool) (f : List Byte → State → Handled) (p : List Byte)
    (h : s.takes p) (hk : kind (u8At p 0) = true) : s.handle kind f = s.popRequest.conclude p (f p s.popRequest) := by
  obtain ⟨hh, hs, hr⟩ := h
  cases hq : s.link.requests with
  | nil => rw [hq] at hr; cases hr
  | cons q rest =>
    rw [hq] at hr
    cases hr
    simp [State.handle, Link.front, hh, hs, hq, hk]

/-- The frame taken and answered with nothing else said. -/
theorem State.popRequest_placeReply (s : State) (r : Reply) : s.popRequest.placeReply r = s.afterReply r := by
  rw [State.placeReply_link]
  simp only [State.popRequest, State.afterReply, Link.afterReply, List.drop_one]

/-- A refused request changes nothing but the link (R185). -/
theorem State.conclude_refused (s : State) (p : List Byte) (code : ReplyCode) :
    s.popRequest.conclude p (.refused code) = s.afterReply (replyTo p code .empty) := s.popRequest_placeReply _

/-- A reply is in the slot or on the line, and the handler is FREE. -/
theorem State.placeReply_answered (s t : State) (r : Reply) (hr : t.link.requests = s.link.requests.tail)
    (hh : t.link.handler = .free) : s.answered (t.placeReply r) r := by
  rw [State.placeReply_link]
  by_cases h : t.link.up = true ∧ t.link.tx = .idle
  · simp [State.answered, h, hr, hh]
  · simp [State.answered, h, hr, hh]

end Sys2Proof.Machine
end

