-- ==== Sys2Proof/Laws/Lanes.lean ====
section
/-! SUPPORT. One lemma for each operation of a lane: it leaves the other lane, the layouts, the clock, the waiting commands, and
the link but its reply slot and transmitter. -/

namespace Sys2Proof.Machine

/-- From `s` to `t` nothing differs but lane `l`, the engine, record memory, the reply slot and the transmitter. -/
structure State.KeepsTo (l : LaneId) (s t : State) : Prop where
  other : t.lane (otherLane l) = s.lane (otherLane l)
  layouts : t.layouts = s.layouts
  clock : t.clock = s.clock
  pending : t.pending = s.pending
  link : t.link = { s.link with slot := t.link.slot, tx := t.link.tx }

namespace State.KeepsTo

theorem refl (l : LaneId) (s : State) : KeepsTo l s s := ⟨rfl, rfl, rfl, rfl, rfl⟩

theorem trans {l : LaneId} {s t u : State} (h : KeepsTo l s t) (k : KeepsTo l t u) : KeepsTo l s u :=
  ⟨k.other.trans h.other, k.layouts.trans h.layouts, k.clock.trans h.clock, k.pending.trans h.pending, by rw [k.link, h.link]⟩

theorem of_reports {s t : State} (l : LaneId) (h : s.Reports t) : KeepsTo l s t :=
  ⟨h.lane _, h.layouts, h.clock, h.pending, h.link⟩

theorem setLane (l : LaneId) (s : State) (x : Lane) : KeepsTo l s (s.setLane l x) :=
  ⟨s.lane_setLane_other l x, by simp, by simp, by simp, by simp⟩

theorem upd (l : LaneId) (s : State) (f : Lane → Lane) : KeepsTo l s (s.upd l f) := setLane l s _

theorem engine (l : LaneId) (s : State) (e : Engine) : KeepsTo l s { s with engine := e } := by
  cases l <;> exact ⟨rfl, rfl, rfl, rfl, rfl⟩

/-- A change of the lane before an operation that keeps to the lane. -/
theorem upd_trans {l : LaneId} {s t : State} {f : Lane → Lane} (h : KeepsTo l (s.upd l f) t) : KeepsTo l s t :=
  (upd l s f).trans h

/-- A change of the lane after one. -/
theorem trans_upd {l : LaneId} {s t : State} (h : KeepsTo l s t) (f : Lane → Lane) : KeepsTo l s (t.upd l f) :=
  h.trans (upd l t f)

/-- A list of operations that each keep to the lane. -/
theorem foldl {α : Type} {l : LaneId} {f : State → α → State} (h : ∀ s a, KeepsTo l s (f s a)) (as : List α) :
    ∀ s, KeepsTo l s (as.foldl f s) := by
  induction as with
  | nil => exact fun s => .refl l s
  | cons a as ih => exact fun s => (h s a).trans (ih (f s a))

end State.KeepsTo

/-! ### Notices and jobs -/

theorem State.emit_keeps (s : State) (l k : LaneId) (kind : NoticeKind) (cause : Option FaultCause) :
    KeepsTo l s (s.emit k kind cause) := .of_reports l (s.emit_reports k kind cause)

theorem State.enqueue_keeps (s : State) (l : LaneId) (r : Record) : KeepsTo l s (s.enqueue r) := .of_reports l (s.enqueue_reports r)

theorem State.queueRecord_keeps (s : State) (l : LaneId) (r : Record) : KeepsTo l s (s.queueRecord r) :=
  .of_reports l (s.queueRecord_reports r)

theorem State.engineTake_keeps (s : State) (l : LaneId) : KeepsTo l s (s.engineTake l) := by
  obtain ⟨_, h⟩ | ⟨j, rest, _, h⟩ := s.engineTake_cases l <;> rw [h]
  · exact .refl l s
  · exact (KeepsTo.setLane l s _).trans (.engine l _ _)

theorem State.appendJob_keeps (s : State) (l : LaneId) (j : Job) : KeepsTo l s (s.appendJob l j) := by
  unfold State.appendJob
  dsimp only
  split
  · exact .upd_trans (State.engineTake_keeps _ l)
  · exact .upd l s _

/-! ### Screening (chapter 4) -/

theorem State.handOn_keeps (s : State) (l : LaneId) (ind : Indication) : KeepsTo l s (s.handOn l ind) := by
  unfold State.handOn
  dsimp only
  split
  · exact s.appendJob_keeps l _
  · exact .upd l s _

theorem State.closeSpan_keeps (s : State) (l : LaneId) (ch : Nat) (span : List SpanEntry) (long truncated : Bool) :
    KeepsTo l s (s.closeSpan l ch span long truncated) := by
  unfold State.closeSpan
  dsimp only
  split
  · exact s.handOn_keeps l _
  · exact .refl l s

theorem State.screenChannel_keeps (line : ChanLine) (l : LaneId) (s : State) (ch : Nat) :
    KeepsTo l s (s.screenChannel line l ch) := by
  unfold State.screenChannel
  dsimp only
  split
  · split
    · exact .upd_trans (State.closeSpan_keeps _ l _ _ _ _)
    · exact .upd l s _
  · exact .refl l s

theorem State.screenLine_keeps (s : State) (l : LaneId) (line : ChanLine) : KeepsTo l s (s.screenLine l line).1 := by
  unfold State.screenLine
  dsimp only
  exact (KeepsTo.foldl (State.screenChannel_keeps line l) channelNumbers s).trans_upd _

theorem State.screenEndChannel_keeps (l : LaneId) (s : State) (ch : Nat) : KeepsTo l s (s.screenEndChannel l ch) := by
  unfold State.screenEndChannel
  dsimp only
  split
  · split
    · exact .refl l s
    · exact .upd l s _
    · exact .upd_trans (.upd_trans (State.closeSpan_keeps _ l _ _ _ _))
    · exact .upd_trans (.upd_trans (State.closeSpan_keeps _ l _ _ _ _))
  · exact .refl l s

theorem State.screenEnd_keeps (s : State) (l : LaneId) : KeepsTo l s (s.screenEnd l) :=
  (KeepsTo.foldl (State.screenEndChannel_keeps l) channelNumbers s).trans_upd _

/-! ### The assemblers (chapter 9) -/

@[simp] theorem Lane.block_setBlock (x : Lane) (kind : BlockKind) (b : Option Block) : (x.setBlock kind b).block kind = b := by
  cases kind <;> rfl

/-- A close puts the open block into the outbound queue, if there is one. -/
theorem State.closeBlock_cases (s : State) (l : LaneId) (kind : BlockKind) :
    ((s.lane l).block kind = none ∧ s.closeBlock l kind = s) ∨
    (∃ b, (s.lane l).block kind = some b ∧
      s.closeBlock l kind = (s.upd l fun x => x.setBlock kind none).enqueue (.lineBlock l b)) := by
  unfold State.closeBlock
  cases h : (s.lane l).block kind with
  | none => exact .inl ⟨rfl, rfl⟩
  | some b => exact .inr ⟨b, rfl, rfl⟩

theorem State.closeBlock_keeps (s : State) (l : LaneId) (kind : BlockKind) : KeepsTo l s (s.closeBlock l kind) := by
  obtain ⟨_, h⟩ | ⟨b, _, h⟩ := s.closeBlock_cases l kind <;> rw [h]
  · exact .refl l s
  · exact .upd_trans (State.enqueue_keeps _ l _)

theorem State.openBlock_keeps (s : State) (l : LaneId) (kind : BlockKind) (line : RingLine) :
    KeepsTo l s (s.openBlock l kind line) := by
  unfold State.openBlock
  split
  · exact .upd_trans (.of_reports l (State.takeBuffer_reports _))
  · exact .refl l s

theorem State.appendLine_keeps (s : State) (l : LaneId) (kind : BlockKind) (line : RingLine) :
    KeepsTo l s (s.appendLine l kind line) := by
  unfold State.appendLine
  split
  · exact .upd l s _
  · dsimp only
    split
    · exact .upd_trans (State.closeBlock_keeps _ l kind)
    · exact .upd l s _

theorem State.placeLine_keeps (s : State) (l : LaneId) (kind : BlockKind) (line : RingLine) :
    KeepsTo l s (s.placeLine l kind line) := by
  have opened : ∀ t : State, KeepsTo l t (if ((t.lane l).block kind).isNone then t.openBlock l kind line else t) := by
    intro t
    split
    · exact t.openBlock_keeps l kind line
    · exact .refl l t
  have closed : KeepsTo l s (if (s.lane l).correctionMoved kind line then s.closeBlock l kind else s) := by
    split
    · exact s.closeBlock_keeps l kind
    · exact .refl l s
  exact (closed.trans (opened _)).trans (State.appendLine_keeps _ l kind line)

theorem State.lineAssembler_keeps (s : State) (l : LaneId) (line : ChanLine) (m : RegionMarks) :
    KeepsTo l s (s.lineAssembler l line m) := by
  unfold State.lineAssembler
  dsimp only
  split
  · exact .refl l s
  · exact s.placeLine_keeps l _ _

theorem State.regionAssembler_keeps (s : State) (l : LaneId) (line : ChanLine) (m : RegionMarks) :
    KeepsTo l s (s.regionAssembler l line m) := by
  unfold State.regionAssembler
  dsimp only
  split
  · exact .refl l s
  · split
    · exact .upd l s _
    · have history : KeepsTo l s
          (if m.first then
            ((s.lane l).ring.map RingLine.asHistory).foldl (fun t h => t.placeLine l .region h)
              (s.upd l fun y => { y with ring := [] })
          else s) := by
        split
        · exact .upd_trans (KeepsTo.foldl (fun t h => t.placeLine_keeps l .region h) _ _)
        · exact .refl l s
      have placed := history.trans (State.placeLine_keeps _ l .region ((s.lane l).assemblyLine .region line m))
      split
      · exact placed.trans (State.closeBlock_keeps _ l .region)
      · exact placed

theorem State.assemblersEnd_keeps (s : State) (l : LaneId) : KeepsTo l s (s.assemblersEnd l) :=
  ((s.closeBlock_keeps l .full).trans (State.closeBlock_keeps _ l .region)).trans_upd _

theorem State.giveUpBlock_keeps (s : State) (l : LaneId) (kind : BlockKind) : KeepsTo l s (s.giveUpBlock l kind) := by
  unfold State.giveUpBlock
  split
  · exact .upd_trans (.of_reports l (State.returnBuffer_reports _))
  · exact .refl l s

/-! ### Line capture (chapter 2) -/

theorem State.commitLine_keeps (l : LaneId) (s : State) (c : CapLine) : KeepsTo l s (s.commitLine l c) := by
  unfold State.commitLine
  exact .upd_trans (((State.screenLine_keeps _ l _).trans (State.lineAssembler_keeps _ l _ _)).trans
    (State.regionAssembler_keeps _ l _ _))

theorem State.captureCycle_keeps (s : State) (l : LaneId) (c : Cycle) : KeepsTo l s (s.captureCycle l c) := by
  unfold State.captureCycle
  dsimp only
  split
  · exact .upd_trans (KeepsTo.foldl (State.commitLine_keeps l) _ _)
  · exact .refl l s

theorem State.flush_keeps (s : State) (l : LaneId) : KeepsTo l s (s.flush l) := by
  unfold State.flush
  dsimp only
  exact .upd_trans ((KeepsTo.foldl (State.commitLine_keeps l) _ _).trans_upd _)

/-! ### The lane controller (chapter 8) -/

theorem State.finishWait_keeps (s : State) (l : LaneId) : KeepsTo l s (s.finishWait l) := by
  unfold State.finishWait
  dsimp only
  split
  · split
    · exact .refl l s
    · exact .upd l s _
  · exact .refl l s

theorem State.enterFinish_keeps (s : State) (l : LaneId) : KeepsTo l s (s.enterFinish l) :=
  .upd_trans (State.finishWait_keeps _ l)

theorem State.enterFaulted_keeps (s : State) (l : LaneId) (cause : FaultCause) : KeepsTo l s (s.enterFaulted l cause) :=
  .upd_trans (State.emit_keeps _ l l _ _)

theorem State.withdrawResult_keeps (s : State) (l : LaneId) (r : StartResult) : KeepsTo l s (s.withdrawResult l r) := by
  unfold State.withdrawResult
  cases r
  · exact .refl l s
  · exact .upd_trans (State.enterFinish_keeps _ l)
  · exact s.enterFinish_keeps l
  · exact .upd_trans (State.enterFinish_keeps _ l)

theorem State.startWithdraw_keeps (s : State) (l : LaneId) : KeepsTo l s (s.startWithdraw l) :=
  (KeepsTo.setLane l s _).trans (State.withdrawResult_keeps _ l _)

theorem State.retargetWithdraw_keeps (s : State) (l : LaneId) : KeepsTo l s (s.retargetWithdraw l) :=
  (KeepsTo.setLane l s _).trans (State.withdrawResult_keeps _ l _)

theorem State.pullEnding_keeps (s : State) (l : LaneId) : KeepsTo l s (s.pullEnding l) :=
  (((s.flush_keeps l).trans (KeepsTo.setLane l _ _)).trans (State.screenEnd_keeps _ l)).trans (State.assemblersEnd_keeps _ l)

/-- The end of a pull is its blocks' ends, then the notice, then the outcome (R146). -/
theorem State.endPull_eq (s : State) (l : LaneId) (o : TubeOutcome) :
    s.endPull l o =
      ((s.pullEnding l).emit l .pullEnded none).upd l fun x => x.disarmStops.updTube fun t => t.decideOutcome o :=
  rfl

theorem State.endPull_keeps (s : State) (l : LaneId) (o : TubeOutcome) : KeepsTo l s (s.endPull l o) := by
  rw [State.endPull_eq]
  exact ((s.pullEnding_keeps l).trans (State.emit_keeps _ l l _ _)).trans_upd _

theorem State.testStopB_keeps (s : State) (l : LaneId) : KeepsTo l s (s.testStopB l) := by
  unfold State.testStopB
  dsimp only
  split
  · split
    · exact .upd_trans ((State.endPull_keeps _ l _).trans (State.retargetWithdraw_keeps _ l))
    · exact .refl l s
  · exact .refl l s

theorem State.motorFaultEvent_keeps (s : State) (l : LaneId) : KeepsTo l s (s.motorFaultEvent l) := by
  unfold State.motorFaultEvent
  dsimp only
  split
  · exact .upd_trans (State.enterFinish_keeps _ l)
  · exact .upd_trans (State.enterFinish_keeps _ l)
  · exact .upd_trans (State.enterFinish_keeps _ l)
  · exact ((s.endPull_keeps l _).trans_upd _).trans (State.enterFinish_keeps _ l)
  · exact .upd_trans (State.enterFinish_keeps _ l)
  · exact s.enterFaulted_keeps l _
  all_goals exact .refl l s

theorem State.stallEvent_keeps (s : State) (l : LaneId) (position : Int) : KeepsTo l s (s.stallEvent l position) := by
  unfold State.stallEvent
  split
  · exact .upd_trans (State.startWithdraw_keeps _ l)
  · exact ((s.endPull_keeps l _).trans_upd _).trans (State.enterFinish_keeps _ l)
  · exact .upd_trans (State.enterFinish_keeps _ l)
  · exact s.enterFaulted_keeps l _
  all_goals exact .refl l s

theorem State.enterPull_keeps (s : State) (l : LaneId) : KeepsTo l s (s.enterPull l) := by
  unfold State.enterPull
  dsimp only
  split
  · exact ((KeepsTo.setLane l s _).trans (State.emit_keeps _ l l _ _)).trans (State.motorFaultEvent_keeps _ l)
  · exact ((KeepsTo.setLane l s _).trans (State.emit_keeps _ l l _ _)).trans (State.testStopB_keeps _ l)
  all_goals exact (KeepsTo.setLane l s _).trans (State.emit_keeps _ l l _ _)

theorem State.enterTurn_keeps (s : State) (l : LaneId) : KeepsTo l s (s.enterTurn l) := by
  unfold State.enterTurn
  dsimp only
  split
  · exact .upd_trans (State.enterPull_keeps _ l)
  · exact .upd l s _

theorem State.testStopA_keeps (s : State) (l : LaneId) : KeepsTo l s (s.testStopA l) := by
  unfold State.testStopA
  dsimp only
  split
  · split
    · exact s.enterTurn_keeps l
    · exact .refl l s
  · exact .refl l s

theorem State.testStops_keeps (s : State) (l : LaneId) : KeepsTo l s (s.testStops l) :=
  (s.testStopA_keeps l).trans (State.testStopB_keeps _ l)

theorem State.guideTest_keeps (s : State) (l : LaneId) : KeepsTo l s (s.guideTest l) := by
  unfold State.guideTest
  dsimp only
  split
  · split
    · exact (KeepsTo.setLane l s _).trans (State.motorFaultEvent_keeps _ l)
    · exact (KeepsTo.setLane l s _).trans (State.testStopA_keeps _ l)
    all_goals exact .setLane l s _
  · split
    · exact (KeepsTo.setLane l s _).trans (State.enterFinish_keeps _ l)
    · exact .setLane l s _

theorem State.openTube_keeps (s : State) (l : LaneId) (o : Order) (rest : List Order) : KeepsTo l s (s.openTube l o rest) := by
  unfold State.openTube
  dsimp only
  split
  · exact .upd_trans ((State.emit_keeps _ l l _ _).trans (.upd_trans (State.guideTest_keeps _ l)))
  · exact .upd_trans ((State.emit_keeps _ l l _ _).trans (.upd_trans (State.enterFinish_keeps _ l)))

theorem State.takeFrontOrder_keeps (s : State) (l : LaneId) : KeepsTo l s (s.takeFrontOrder l) := by
  unfold State.takeFrontOrder
  split
  · exact s.openTube_keeps l _ _
  · exact .refl l s

theorem State.homeArrivalEvent_keeps (s : State) (l : LaneId) : KeepsTo l s (s.homeArrivalEvent l) := by
  unfold State.homeArrivalEvent
  split
  · exact s.enterFinish_keeps l
  · exact .upd l s _
  all_goals exact .refl l s

theorem State.inputChange_keeps (s : State) (l : LaneId) (i : InputId) : KeepsTo l s (s.inputChange l i) := by
  unfold State.inputChange
  dsimp only
  split
  · split
    · exact .upd l s _
    · exact (KeepsTo.upd l s _).trans_upd _
  · split
    · exact .upd_trans (.upd_trans (State.homeArrivalEvent_keeps _ l))
    · exact .upd l s _
  · split
    · exact .upd_trans (.upd_trans (State.motorFaultEvent_keeps _ l))
    · exact .upd l s _

theorem State.settleInput_keeps (l : LaneId) (s : State) (i : InputId) : KeepsTo l s (s.settleInput l i) := by
  unfold State.settleInput
  dsimp only
  split
  · exact s.inputChange_keeps l i
  · exact .refl l s

theorem State.enterHeld_keeps (s : State) (l : LaneId) : KeepsTo l s (s.enterHeld l) := .upd_trans (State.emit_keeps _ l l _ _)

theorem State.holdIf_keeps (s : State) (l : LaneId) : KeepsTo l s (s.holdIf l) := by
  unfold State.holdIf
  split
  · exact s.enterHeld_keeps l
  · exact .refl l s

theorem State.holdIfLost_keeps (s : State) (l : LaneId) : KeepsTo l s (s.holdIfLost l) := by
  unfold State.holdIfLost
  split
  · exact .refl l s
  · exact s.holdIf_keeps l

theorem State.resumeMotion_keeps (s : State) (l : LaneId) (p : MotionPhase) : KeepsTo l s (s.resumeMotion l p) := by
  unfold State.resumeMotion
  dsimp only
  split
  · exact (KeepsTo.setLane l s _).trans (State.testStops_keeps _ l)
  · exact (KeepsTo.setLane l s _).trans (State.motorFaultEvent_keeps _ l)
  · exact (KeepsTo.setLane l s _).trans (State.homeArrivalEvent_keeps _ l)
  · exact (KeepsTo.setLane l s _).trans (State.withdrawResult_keeps _ l _)

theorem State.resumeLane_keeps (s : State) (l : LaneId) : KeepsTo l s (s.resumeLane l) := by
  unfold State.resumeLane
  split
  · exact .refl l s
  · rename_i st _
    have start : KeepsTo l s ((s.upd l fun x => x.unhold st s.clock).emit l .resumed none) := .upd_trans (State.emit_keeps _ l l _ _)
    dsimp only
    split
    · exact start.trans (State.resumeMotion_keeps _ l _)
    · exact start.trans (State.resumeMotion_keeps _ l _)
    · exact start.trans (State.resumeMotion_keeps _ l _)
    · split
      · exact start.trans_upd _
      · exact start.trans (State.resumeMotion_keeps _ l _)
    all_goals exact start

theorem State.abortLane_keeps (s t : State) (l : LaneId) (h : s.abortLane l = some t) : KeepsTo l s t := by
  unfold State.abortLane at h
  dsimp only at h
  split at h <;> cases h
  · exact .upd_trans (State.enterFinish_keeps _ l)
  · exact .upd_trans (State.startWithdraw_keeps _ l)
  · exact .upd_trans (State.startWithdraw_keeps _ l)
  · exact (s.endPull_keeps l _).trans (State.retargetWithdraw_keeps _ l)
  all_goals exact .refl l _

theorem State.startRetract_keeps (s : State) (l : LaneId) : KeepsTo l s (s.startRetract l) := by
  unfold State.startRetract
  dsimp only
  split
  · exact (KeepsTo.setLane l s _).trans (State.motorFaultEvent_keeps _ l)
  all_goals exact .setLane l s _

theorem State.resetLane_keeps (s : State) (l : LaneId) : KeepsTo l s (s.resetLane l) :=
  .upd_trans ((KeepsTo.engine l _ _).trans (((State.giveUpBlock_keeps _ l .full).trans (State.giveUpBlock_keeps _ l .region)).trans
    (State.emit_keeps _ l l _ _)))

end Sys2Proof.Machine
end

