-- ==== Sys2Proof/Laws/PerInstr.lean ====
section
/-! SUPPORT. A fact of every command as syntax, one lemma per constructor. -/

namespace Sys2Proof.Laws

open Sys2Proof.Machine

/-- A command is an event of one lane, an event of the unit or a request, never two of these; a request row stands for one kind
byte of 0x01 to 0x11 and carries no operands, so that every request is well formed. -/
def Covered.Statement (i : Instr) : Prop :=
  (eventLane i = none ∨ requestKind i = none) ∧ ∀ k, requestKind i = some k → 1 ≤ k ∧ k ≤ 17 ∧ i.wf = true

theorem Covered.powerOn : Covered.Statement .powerOn := ⟨.inr rfl, nofun⟩

theorem Covered.rawLevelChange (lane : LaneId) (input : InputId) (level : Bool) : Covered.Statement (.rawLevelChange lane input level) := ⟨.inr rfl, nofun⟩

theorem Covered.debouncedStateChange (lane : LaneId) (input : InputId) : Covered.Statement (.debouncedStateChange lane input) := ⟨.inr rfl, nofun⟩

theorem Covered.edge (lane : LaneId) (phase : EncPhase) : Covered.Statement (.edge lane phase) := ⟨.inr rfl, nofun⟩

theorem Covered.controlPeriodEnd (lane : LaneId) : Covered.Statement (.controlPeriodEnd lane) := ⟨.inr rfl, nofun⟩

theorem Covered.stall (lane : LaneId) : Covered.Statement (.stall lane) := ⟨.inr rfl, nofun⟩

theorem Covered.switchEnd (lane : LaneId) : Covered.Statement (.switchEnd lane) := ⟨.inr rfl, nofun⟩

theorem Covered.settleEnd (lane : LaneId) : Covered.Statement (.settleEnd lane) := ⟨.inr rfl, nofun⟩

theorem Covered.slotEnd (lane : LaneId) (demod : Demod) : Covered.Statement (.slotEnd lane demod) := ⟨.inr rfl, nofun⟩

theorem Covered.guidePoll (lane : LaneId) : Covered.Statement (.guidePoll lane) := ⟨.inr rfl, nofun⟩

theorem Covered.turnDwellEnd (lane : LaneId) : Covered.Statement (.turnDwellEnd lane) := ⟨.inr rfl, nofun⟩

theorem Covered.takeOrder (lane : LaneId) : Covered.Statement (.takeOrder lane) := ⟨.inr rfl, nofun⟩

theorem Covered.jobCompletion : Covered.Statement .jobCompletion := ⟨.inr rfl, nofun⟩

theorem Covered.reportRecord (lane : LaneId) : Covered.Statement (.reportRecord lane) := ⟨.inr rfl, nofun⟩

theorem Covered.frameReceived (bytes : List Byte) : Covered.Statement (.frameReceived bytes) := ⟨.inr rfl, nofun⟩

theorem Covered.frameTimeout : Covered.Statement .frameTimeout := ⟨.inr rfl, nofun⟩

theorem Covered.silenceTimeout : Covered.Statement .silenceTimeout := ⟨.inr rfl, nofun⟩

theorem Covered.transmissionEnd : Covered.Statement .transmissionEnd := ⟨.inr rfl, nofun⟩

theorem Covered.badKind : Covered.Statement .badKind := ⟨.inr rfl, nofun⟩

theorem Covered.status : Covered.Statement .status := ⟨.inl rfl, fun _ h => by cases h; decide⟩

theorem Covered.setLink : Covered.Statement .setLink := ⟨.inl rfl, fun _ h => by cases h; decide⟩

theorem Covered.setLayout : Covered.Statement .setLayout := ⟨.inl rfl, fun _ h => by cases h; decide⟩

theorem Covered.setScan : Covered.Statement .setScan := ⟨.inl rfl, fun _ h => by cases h; decide⟩

theorem Covered.setChannel : Covered.Statement .setChannel := ⟨.inl rfl, fun _ h => by cases h; decide⟩

theorem Covered.setMix : Covered.Statement .setMix := ⟨.inl rfl, fun _ h => by cases h; decide⟩

theorem Covered.setLandmark : Covered.Statement .setLandmark := ⟨.inl rfl, fun _ h => by cases h; decide⟩

theorem Covered.setMotion : Covered.Statement .setMotion := ⟨.inl rfl, fun _ h => by cases h; decide⟩

theorem Covered.queueTube : Covered.Statement .queueTube := ⟨.inl rfl, fun _ h => by cases h; decide⟩

theorem Covered.cancelTube : Covered.Statement .cancelTube := ⟨.inl rfl, fun _ h => by cases h; decide⟩

theorem Covered.abort : Covered.Statement .abort := ⟨.inl rfl, fun _ h => by cases h; decide⟩

theorem Covered.hold : Covered.Statement .hold := ⟨.inl rfl, fun _ h => by cases h; decide⟩

theorem Covered.resume : Covered.Statement .resume := ⟨.inl rfl, fun _ h => by cases h; decide⟩

theorem Covered.retract : Covered.Statement .retract := ⟨.inl rfl, fun _ h => by cases h; decide⟩

theorem Covered.laneReset : Covered.Statement .laneReset := ⟨.inl rfl, fun _ h => by cases h; decide⟩

theorem Covered.spanCal : Covered.Statement .spanCal := ⟨.inl rfl, fun _ h => by cases h; decide⟩

theorem Covered.solveMix : Covered.Statement .solveMix := ⟨.inl rfl, fun _ h => by cases h; decide⟩

theorem Covered.syncWordFound (bytes : List Byte) : Covered.Statement (.syncWordFound bytes) := ⟨.inr rfl, nofun⟩

theorem Covered.frameLengthOutOfRange (bytes : List Byte) : Covered.Statement (.frameLengthOutOfRange bytes) := ⟨.inr rfl, nofun⟩

end Sys2Proof.Laws
end

