-- ==== Sys2Proof/Laws/Values.lean ====
section
/-! SUPPORT. The ranges of samples and counts, the frame of the record being sent, and what the landmark detector and the engine do in
the words of the statements. -/

namespace Sys2Proof.Machine

@[simp] theorem Transmitter.recordFrame_idle : Transmitter.idle.recordFrame = none := rfl
@[simp] theorem Transmitter.recordFrame_reply (frame : List Byte) (due : Nat) :
    (Transmitter.sending .reply frame due).recordFrame = none := rfl
@[simp] theorem Transmitter.recordFrame_record (frame : List Byte) (due : Nat) :
    (Transmitter.sending .record frame due).recordFrame = some frame := rfl

/-- Saturation gives a value of −32767 to 32767 (00_scope, 5). -/
theorem sat_range (v : Int) : -32767 ≤ sat v ∧ sat v ≤ 32767 := by unfold sat; omega

/-- Saturation changes nothing within the range. -/
theorem sat_eq (v : Int) (h : v.natAbs ≤ 32767) : sat v = v := by unfold sat; omega

/-- A raw sample lies in its range; one whose averages were saturated carries the overload mark (R6, R7). -/
theorem sampleOf_range (now f cycles : Nat) (d : Demod) :
    (-32767 ≤ (sampleOf now f cycles d).value.x ∧ (sampleOf now f cycles d).value.x ≤ 32767) ∧
    (-32767 ≤ (sampleOf now f cycles d).value.y ∧ (sampleOf now f cycles d).value.y ≤ 32767) ∧
    ((sampleOf now f cycles d).overload = false → (sampleOf now f cycles d).value = demodValue now f cycles d) := by
  refine ⟨sat_range _, sat_range _, fun h => ?_⟩
  simp only [sampleOf, Bool.or_eq_false_iff, decide_eq_false_iff_not, not_lt] at h
  simp only [sampleOf, sat_eq _ h.1.2, sat_eq _ h.2]

/-- A count of a tube goes up by one below its greatest value (R39, R164). -/
theorem countTube_below (now n : Nat) (h : n < 4294967295) : countTube now n = n + 1 := if_pos h

/-- A count of a tube stays an unsigned 32-bit value (R39, R164). -/
theorem countTube_fits (now n : Nat) : countTube now n ≤ 4294967295 := by
  unfold countTube
  split
  · assumption
  · exact Nat.le_of_lt_succ (Config.countPast now).isLt

/-- A run's end decides what the statements say (R92, R93). -/
theorem LandmarkRun.endCandidate_ending (k : LandmarkSettings) (r : LandmarkRun) :
    (r.endCandidate k).map (fun c => (c.kind, c.line)) = r.ending k := by
  have e1 : r.first - ((r.len : Int) - 1) = r.first - (r.len : Int) + 1 := by omega
  have e2 : r.first + (r.first - ((r.len : Int) - 1)) = 2 * r.first - (r.len : Int) + 1 := by omega
  unfold LandmarkRun.endCandidate LandmarkRun.ending LandmarkRun.last
  rw [e2, e1]
  split <;> [rfl; split <;> [rfl; split <;> rfl]]

/-- A candidate taken is a candidate decided (R96, R97). -/
theorem Lane.takeCandidate_decided (x : Lane) (c : Option Candidate) :
    x.takeCandidate c = x.decided (c.map fun c => (c.kind, c.line)) := by cases c <;> rfl

/-- The engine, free after a completion, takes the next job (R78). -/
theorem State.engineChoose_tookNext (s : State) : s.tookNext s.engineChoose := by
  have take : ∀ (t : State) (l : LaneId) (j : Job) (rest : List Job), (t.lane l).jobs = j :: rest →
      ((t.engineTake l).lane l).jobs = rest ∧
      ((t.engineTake l).lane (otherLane l)).jobs = (t.lane (otherLane l)).jobs ∧
      (t.engineTake l).engine =
        { busy := some { lane := l, job := j, discarded := false, doneAt := (t.engineTake l).clock + j.runningTime },
          servedLast := l } := fun t l j rest h => by
    unfold State.engineTake
    rw [h]
    cases l <;> exact ⟨rfl, rfl, rfl⟩
  refine ⟨fun ha hb => ?_, fun l hne hor => ?_⟩
  · simp [State.engineChoose, ha, hb]
  · obtain ⟨j, rest, hj⟩ := List.exists_cons_of_ne_nil hne
    have e : s.engineChoose = State.engineTake { s with engine := { s.engine with busy := none } } l := by
      cases l
      · rcases hb : s.laneB.jobs with _ | ⟨k, r⟩ <;> simp_all [State.engineChoose, State.lane, otherLane]
      · rcases ha : s.laneA.jobs with _ | ⟨k, r⟩ <;> simp_all [State.engineChoose, State.lane, otherLane]
    have h := take { s with engine := { s.engine with busy := none } } l j rest hj
    rw [e]
    exact ⟨j, rest, hj, h⟩

end Sys2Proof.Machine
end

