-- ==== Sys2Proof/Tests/Slice0.lean ====
section
/-! SUPPORT. Tests: what `wf` refuses, the spec's worked figures, and for every statement with hypotheses a state that meets them. -/

namespace Sys2Proof.Tests

open Sys2Proof.Machine

set_option Elab.async false

/-! ### Ill-formed commands are refused -/

/-- A converter output without a code. -/
theorem test_wf_refuses_no_code : (Instr.slotEnd .a ⟨[], 100⟩).wf = false := by decide

/-- Two codes to a cycle of the shortest slot. -/
theorem test_wf_refuses_few_codes : (Instr.slotEnd .a ⟨[50, 50, 50, 50, 50, 50, 50, 50], 100⟩).wf = false := by decide

/-- A code beyond the converter's full-scale range (R7). -/
theorem test_wf_refuses_overrange : (Instr.slotEnd .a ⟨[0, 0, 0, 0, 0, 0, 0, 0, 101], 100⟩).wf = false := by decide

/-- A frame shorter than its length field says. -/
theorem test_wf_refuses_short_frame : (Instr.frameReceived [0x5A, 0xC3, 4, 0, 1, 2, 3, 4, 0, 0, 0]).wf = false := by decide

/-- A frame whose length is out of range (R173). -/
theorem test_wf_refuses_frame_length : (Instr.frameReceived [3, 0, 1, 2, 3, 0, 0, 0, 0]).wf = false := by decide

/-- A second sync word before the last. -/
theorem test_wf_refuses_early_sync : (Instr.syncWordFound [0x5A, 0xC3, 0x5A, 0xC3]).wf = false := by decide

/-- Bytes that do not end in the sync word. -/
theorem test_wf_refuses_no_sync : (Instr.syncWordFound [0x5A, 0x5A]).wf = false := by decide

/-- A length in range is no FRAME_LENGTH_OUT_OF_RANGE. -/
theorem test_wf_refuses_good_length : (Instr.frameLengthOutOfRange [4, 0]).wf = false := by decide

/-- The first length out of range, 2041, is one. -/
theorem test_wf_takes_bad_length : (Instr.frameLengthOutOfRange [0xF9, 0x07]).wf = true := by decide

/-- No word spells a command: the table gives no row bits. -/
theorem test_no_word_decodes : decodeTableWord 8 0x5A = none := by decide

/-! ### Worked figures of the spec -/

/-- 00_scope 5: 2.5 rounds to 3 and −2.5 to −3. -/
theorem test_round_halves : roundDiv 5 2 = 3 ∧ roundDiv (-5) 2 = -3 := by decide

/-- R174: the check value of "123456789". -/
theorem test_crc_check_value : crc32 [0x31, 0x32, 0x33, 0x34, 0x35, 0x36, 0x37, 0x38, 0x39] = 0xCBF43926 := by decide +kernel

/-- R4, R6: at 250 kHz SWITCH takes half a period, so that INTEGRATE begins at half a turn; a sinusoid of full-scale amplitude in phase
with the reference gives X = 32767 and Y = 0, here over four integrate cycles. -/
theorem test_sample_of_full_scale :
    sampleOf 0 250000 4 ⟨[0, -100, 0, 100, 0, -100, 0, 100, 0, -100, 0, 100, 0, -100, 0, 100], 100⟩ =
      { value := ⟨32767, 0⟩, overload := true } := by decide +kernel

/-- R4, R6: at 125 kHz INTEGRATE begins at a quarter of a turn. Half of full scale, leading the reference by a quarter period, beside a
constant part: Y = 16383.5 rounds to 16384. -/
theorem test_sample_of_leading_signal :
    sampleOf 0 125000 4 ⟨[3, -47, 3, 53, 3, -47, 3, 53, 3, -47, 3, 53, 3, -47, 3, 53], 100⟩ =
      { value := ⟨0, 16384⟩, overload := false } := by decide +kernel

/-- R6: a constant output contributes nothing, at a frequency that no part of the rule divides, with no whole number of codes to a cycle. -/
theorem test_sample_of_constant :
    sampleOf 0 99991 4 ⟨[50, 50, 50, 50, 50, 50, 50, 50, 50], 100⟩ = { value := ⟨0, 0⟩, overload := false } := by decide +kernel

/-- R28: a travel of 6,917 µm measures as 691 mm/s. -/
theorem test_speed_measured :
    ({ Position.reset with scale := some 1, count := 6917 }.measure).speed = 691 := by decide

/-- R178: a 256-line SPAN job holds the handler for 1,309,600 ns. -/
theorem test_span_running_time : (Job.span 2 3000 900 (List.replicate 256 ⟨0, 0⟩)).runningTime = 1309600 := by decide +kernel

/-- R12: the shortest cycle is 7000 ns and the longest 640,032,000 ns. -/
theorem test_cycle_bounds :
    ({ freqs := [1000000], slots := [⟨0, 0, 1, 0, 1, 4⟩], run := none : Excitation }.cycleTime) = 7000 ∧
    ({ freqs := [2000], slots := List.replicate 16 ⟨0, 0, 1, 0, 16, 64⟩, run := none : Excitation }.cycleTime) = 640032000 := by
  decide +kernel

/-- 8.12: class 3 of 5.8 has L = 12,000,000; with the defaults stop A is 11,975,000 and stop B 10,000. -/
theorem test_stops_of_worked_tube : stopsOf Motion.reset 12000000 none = (11975000, 10000) := by decide

/-- R54: an exact tie keeps the pair found first. -/
theorem test_max_chord_tie : maxChord [⟨0, 0⟩, ⟨3, 4⟩, ⟨0, 0⟩] = some { d := 25, c := ⟨3, 4⟩ } := by decide

/-! ### Small states -/

/-- A lane with two slots, scale 20 and pitch 1000, and no motor fault. -/
def lane0 : Lane :=
  { Lane.reset with
    exc :=
      { freqs := [100000], slots := [⟨0, 0, 4, 1, 2, 8⟩, ⟨1, 0, 4, 1, 2, 8⟩],
        run := some { slot := 0, phase := .switch, start := 0, partialCycle := [] } },
    pos := { Position.reset with scale := some 20 },
    motion := { Motion.reset with pitch := some 1000 },
    drive := { Drive.reset with fault := { raw := false, active := false, since := 0 } } }

/-- An order of class 0 with length 1,000,000. -/
def order0 : Order := { tag := 7001, row := 112, column := 45, cls := 0, cal := false, length := some 1000000, segment := none }

/-- A tube of that order. -/
def tube0 : Tube := Tube.open order0 (975000, 10000)

/-- The unit with Lane A as given, Lane B idle, the link UP and a request waiting. -/
def unit (x : Lane) (requests : List (List Byte)) : State :=
  { State.reset with
    laneA := x, laneB := lane0,
    link := { Link.reset with up := true, silenceDue := some 2000000000, requests := requests } }

/-- Lane A in a state with a tube, the motor as the state drives it. -/
def laneIn (st : LaneState) : Lane :=
  { lane0 with
    ctl := { Control.reset with state := st, tube := some tube0 },
    drive :=
      { lane0.drive with
        enabled := st.motion != .none, brake := if st.motion != .none then .released else .engaged, phase := st.motion,
        dir := st.motion.dir .forward, duty := if st.motion != .none then 200 else 0,
        window := if st.motion != .none then some { start := some 0, periods := 0 } else none } }

/-- Lane A HELD from a phase. -/
def laneHeld (st : LaneState) : Lane :=
  { laneIn .held with ctl := { (laneIn .held).ctl with heldPhase := some st, dwell := .frozen 5, poll := .frozen 7 } }

/-- A lane at a count. -/
def laneAt (count : Int) (x : Lane) : Lane := { x with pos := { x.pos with count := count } }

/-- A lane with its stops armed or not. -/
def armed (a b : Bool) (x : Lane) : Lane := { x with pos := { x.pos with armedA := a, armedB := b } }

/-- A lane with its inputs' debounced states and raw levels as given. -/
def inputs (guide home : Bool) (x : Lane) : Lane :=
  { x with drive :=
      { x.drive with
        guide := { raw := guide, active := guide, since := 0 }, home := { raw := home, active := home, since := 0 } } }

/-- A lane with its slot in a phase. -/
def scanIn (slot : Nat) (p : SlotPhase) (x : Lane) : Lane :=
  { x with exc := { x.exc with run := some { slot := slot, phase := p, start := 0, partialCycle := [] } } }

/-- A lane whose calibration store holds lines 11 and 10. -/
def stored (x : Lane) : Lane :=
  { x with store := [{ index := 11, samples := [⟨0, 0⟩, ⟨5, 5⟩] }, { index := 10, samples := [⟨300, 400⟩, ⟨7, 7⟩] }] }

/-- A lane with mix 16 of channels 0 and 1. -/
def mixed (x : Lane) : Lane :=
  { x with mixes := x.mixes.set 0 { MixChannel.reset with defn := some { p := 0, q := 1, mc := 4096, ms := 0 } } }

/-- A request without fields, of the given kind, to Lane A. -/
def plain (kind : Byte) : List Byte := [kind, 0, 7, 9]

/-- SET_LINK: 2000 ms, all enables, levels 48 and 96. -/
def linkBytes : List Byte := [2, 255, 7, 9, 0xD0, 0x07, 0x7F, 48, 96, 0]

/-- SET_LAYOUT of class 1 with one support. -/
def layoutBytes : List Byte :=
  [3, 255, 7, 9, 1, 1, 0, 0, 0x40, 0x42, 0x0F, 0, 0x20, 0x4E, 0, 0, 0x20, 0x4E, 0, 0, 0xE0, 0x93, 4, 0]

/-- SET_SCAN with one frequency and one slot. -/
def scanBytes : List Byte := [4, 0, 7, 9, 1, 1, 0, 0, 0xA0, 0x86, 1, 0, 0, 0, 4, 1, 2, 8]

/-- SET_CHANNEL of channel 0 with a CALIBRATION part. -/
def channelBytes : List Byte := [5, 0, 7, 9, 0, 1, 0, 0, 1, 0, 2, 0, 0, 0x20, 0, 0]

/-- SET_MIX defining mix 16 from channels 0 and 1. -/
def mixBytes : List Byte := [6, 0, 7, 9, 16, 1, 0, 0, 0, 1, 0, 0, 0, 0x10, 0, 0]

/-- SET_MIX removing mix 19. -/
def unmixBytes : List Byte := [6, 0, 7, 9, 19, 0, 0, 0]

/-- SET_LANDMARK with channel 0. -/
def landmarkBytes : List Byte :=
  [7, 0, 7, 9, 0, 0, 10, 0, 60, 0, 80, 0, 0, 0, 0, 0, 0xB8, 0x0B, 0, 0, 0xA8, 0x61, 0, 0]

/-- SET_MOTION with scale 10, pitch 1000 and the other settings at their power-on values. -/
def motionBytes : List Byte :=
  [8, 0, 7, 9] ++ leBytes 2 10 ++ leBytes 2 1000 ++ leBytes 2 1000 ++ leBytes 2 500 ++ leBytes 2 1500 ++ leBytes 2 200 ++
  leBytes 2 900 ++ [24, 0] ++ leBytes 2 2000 ++ leBytes 2 500 ++ [10, 0] ++ leBytes 4 500000 ++ leBytes 4 25000 ++
  leBytes 4 10000 ++ leBytes 2 100 ++ leBytes 2 600 ++ leBytes 2 200 ++ [0, 0]

/-- QUEUE_TUBE of tag 7002, class 0, length 1,000,000. -/
def queueBytes : List Byte :=
  [9, 0, 7, 9, 2, 0, 112, 0, 45, 0, 0, 0, 0x5A, 0x1B, 0, 0, 0x40, 0x42, 0x0F, 0]

/-- CANCEL_TUBE of tag 7001. -/
def cancelBytes : List Byte := [0x0A, 0, 7, 9, 0x59, 0x1B, 0, 0]

/-- SPAN_CAL of channel 0, lines 11 to 10, amplitude 3000 at 90.0 degrees. -/
def spanBytes : List Byte := [0x10, 0, 7, 9, 0, 0, 0xB8, 0x0B, 0x84, 3, 0, 0, 11, 0, 0, 0, 10, 0, 0, 0]

/-- SOLVE_MIX of mix 16, lines 11 to 10. -/
def solveBytes : List Byte := [0x11, 0, 7, 9, 16, 0, 0, 0, 11, 0, 0, 0, 10, 0, 0, 0]

/-- The state after a command, if it answers one. -/
def after (c : Instr) (s : State) : Option State :=
  match exec c s with
  | .next t => some t
  | .fault _ => none
  | .refused _ => none

/-! ### Commands on the small states -/

/-- R153: an ABORT of a running PULL retargets: the duty stays, the motor runs on in WITHDRAW. -/
theorem test_abort_retargets :
    (after .abort (unit (laneAt 100 (laneIn .pull)) [plain 0x0B])).map
      (fun t => (t.laneA.ctl.state, t.laneA.drive.duty, t.laneA.drive.phase)) = some (.withdraw, 200, .withdraw) := by
  decide +kernel

/-- R122: an ABORT of INSERT with probe-home ACTIVE is a home arrival at once. -/
theorem test_abort_home_arrival :
    (after .abort (unit (inputs false true (laneIn .insert)) [plain 0x0B])).map
      (fun t => (t.laneA.ctl.state, t.laneA.drive.enabled)) = some (.finish, false) := by
  decide +kernel

/-- R151: HOLD freezes the dwell with the time left. -/
theorem test_hold_freezes :
    (after .hold
      { unit { laneIn .turn with ctl := { (laneIn .turn).ctl with dwell := .running 50 } } [plain 0x0C] with clock := 20 }).map
      (fun t => (t.laneA.ctl.state, t.laneA.ctl.heldPhase, t.laneA.ctl.dwell)) = some (.held, some .turn, .frozen 30) := by
  decide +kernel

/-- R144: the probe stalls in INSERT: RESTRICTED, and the lane withdraws. -/
theorem test_stall_in_insert :
    (after (.stall .a)
      (unit { laneIn .insert with
              drive := { (laneIn .insert).drive with window := some { start := some 0, periods := 50 } } } [])).map
      (fun t => (t.laneA.ctl.state, t.laneA.ctl.tube.bind fun u => u.outcome)) = some (.withdraw, some .restricted) := by
  decide +kernel

/-- R146: the edge that reaches stop B ends the pull EXAMINED. -/
theorem test_stop_b :
    (after (.edge .a ⟨false, true⟩) (unit (armed false true (laneAt 501 (laneIn .pull))) [])).map
      (fun t => (t.laneA.ctl.state, t.laneA.ctl.tube.bind fun u => u.outcome, t.laneA.pos.count)) =
      some (.withdraw, some .examined, 500) := by
  decide +kernel

/-- R57, by hand: the chord (300, 400) taken to 3000 du at 90.0 degrees has Kc = round(4096·3000·400/250000) and
Ks = round(4096·3000·300/250000); the handler is FREE again. -/
theorem test_span_solved :
    ((after .spanCal (unit (stored lane0) [spanBytes])).bind (after .jobCompletion)).map
      (fun t => ((t.laneA.base 0).kc, (t.laneA.base 0).ks, t.link.handler)) = some (19661, 14746, .free) := by
  decide +kernel

/-- R175, R170: the first good frame after power-on makes the link UP, and LINK_UP is the first record sent. -/
theorem test_first_frame :
    (after (.frameReceived (frameOf [1, 255, 7, 9])) State.reset).map
      (fun t => (t.link.up, t.link.requests.length, t.pool.queue, t.link.tx.recordFrame.isSome)) =
      some (true, 1, [.notice (unitNotice .linkUp)], true) := by
  decide +kernel

/-- R34: a cycle within the window replaces its line alone. -/
theorem test_collapse :
    (captureBin [⟨5, [], true, true⟩, ⟨4, [], true, true⟩] [] 5).window = [⟨5, [], false, false⟩, ⟨4, [], true, true⟩] := by
  decide

/-- R155: LANE_RESET leaves the lane IDLE and the encoder count as it is. -/
theorem test_lane_reset :
    (after .laneReset (unit (laneAt 100 (laneIn .pull)) [plain 0x0F])).map
      (fun t => (t.laneA.ctl.state, t.laneA.pos.count, t.laneA.drive.enabled)) = some (.idle, 100, false) := by
  decide +kernel

/-! ### Witnesses: states and operands that meet the hypotheses of the statements -/

/-- A state with commands waiting. -/
theorem witness_StepTakesTheFrontCommand :
    ({ State.reset with pending := [.status, .badKind] } : State).pending = .status :: [.badKind] :=
  rfl

/-- The motor law in a running PULL, for the statement that every step keeps it. -/
theorem witness_motorLaw :
    (unit (laneIn .pull) []).motorLaw :=
  by
  have held : ∀ st : LaneState, (none : Option LaneState) = some st → st.holdable = true := by simp
  have ret : ∀ st : LaneState, (none : Option LaneState) = some st → st = .idle ∨ st = .faulted := by simp
  exact ⟨⟨by decide +kernel, ⟨by decide +kernel, held, ret, by decide +kernel, by decide +kernel⟩, by decide +kernel, by decide +kernel⟩,
    ⟨by decide +kernel, ⟨by decide +kernel, held, ret, by decide +kernel, by decide +kernel⟩, by decide +kernel, by decide +kernel⟩⟩

/-- The invariants of record memory, the handler and engine, the queues, the windows and the sizes, in a running PULL. -/
theorem witness_decidable_invariants :
    (unit (laneIn .pull) []).buffersKept ∧ (unit (laneIn .pull) []).poolSettled ∧ (unit (laneIn .pull) []).flightKept ∧
    (unit (laneIn .pull) []).engineWorks ∧ (unit (laneIn .pull) []).queuesLegal ∧ (unit (laneIn .pull) []).windowsLegal ∧
    (unit (laneIn .pull) []).sized :=
  by decide +kernel

/-- The job queues in a running PULL. -/
theorem witness_jobsLegal : (unit (laneIn .pull) []).jobsLegal := by
  refine ⟨⟨by decide +kernel, by decide +kernel, by decide +kernel, ?_⟩, ⟨by decide +kernel, by decide +kernel, by decide +kernel, ?_⟩⟩
  · intro t h
    obtain rfl : tube0 = t := by simpa [unit, laneIn] using h
    decide
  · intro t h
    simp [unit, lane0, Lane.reset, Control.reset] at h

/-- The invariants of catalogues, landmarks and positions, in a running PULL. -/
theorem witness_catalogues_landmarks_positions :
    (unit (laneIn .pull) []).cataloguesLegal ∧ (unit (laneIn .pull) []).landmarksLegal ∧ (unit (laneIn .pull) []).positionsFit :=
  by
  refine ⟨⟨?_, ?_⟩, ⟨⟨by simp [unit, laneIn, lane0, Lane.reset, Detector.reset], by simp [unit, laneIn, lane0, Lane.reset, Detector.reset],
    by decide +kernel⟩, ⟨by simp [unit, lane0, Lane.reset, Detector.reset], by simp [unit, lane0, Lane.reset, Detector.reset],
    by decide +kernel⟩⟩, ?_, ?_⟩
  · intro t h
    obtain rfl : tube0 = t := by simpa [unit, laneIn] using h
    simp [Tube.catalogueLegal, tube0, Tube.open]
  · intro t h
    simp [unit, lane0, Lane.reset, Control.reset] at h
  · intro r h
    obtain rfl : (0 : Int) = r := by simpa [unit, laneIn, lane0, Position.raw, Position.reset] using h
    decide
  · intro r h
    obtain rfl : (0 : Int) = r := by simpa [unit, laneIn, lane0, Position.raw, Position.reset] using h
    decide

/-- An event of Lane B. -/
theorem witness_EventsKeepToTheirLane :
    eventLane (.stall .b) = some .b ∧ (after (.stall .b) State.reset).isSome = true :=
  by decide +kernel

/-- A request to Lane A. -/
theorem witness_RequestsKeepToTheirLane :
    (unit lane0 [scanBytes]).takes scanBytes ∧ asks .setScan scanBytes .a ∧ 4 ≤ u8At scanBytes 0 ∧
    (after .setScan (unit lane0 [scanBytes])).isSome = true :=
  by decide +kernel

/-- The shortest payload at a receiver that hunts, the link UP. -/
theorem witness_FramesSentAreFramesReceived :
    (unit lane0 []).link.rx = .hunting false ∧
    ({ unit lane0 [] with link := { (unit lane0 []).link with rx := .hunting true } } : State).link.rx = .hunting true ∧
    (unit lane0 []).link.up = true ∧ 4 ≤ (plain 1).length ∧ (plain 1).length ≤ 2040 :=
  by decide +kernel

/-- A full request queue, and a payload of the greatest length. -/
theorem witness_FramesSentAreFramesReceived_full :
    (unit lane0 [plain 1, plain 1, plain 1, plain 1]).link.requests.length = 4 ∧ (List.replicate 2040 (0 : Byte)).length = 2040 :=
  by decide +kernel

/-- Each clause of the receiver's statement: a sync word after a first sync byte, lengths 3 and 2041, a wrong CRC. -/
theorem witness_TheReceiverHuntsAndJudges :
    endsInSync [0x5A, 0x5A, 0xC3] = true ∧ lengthField 3 0 < 4 ∧ 2040 < lengthField 0xF9 0x07 ∧
    ({ unit lane0 [] with link := { (unit lane0 []).link with rx := .inFrame [] } } : State).link.rx = .inFrame [] ∧
    ([0, 0, 0, 0] : List Byte) ≠ leBytes 4 (crc32 (leBytes 2 (plain 1).length ++ plain 1)).toNat :=
  by decide +kernel

/-- The unit after power-on. -/
theorem witness_AGoodFrameBringsTheLinkUp :
    State.reset.link.rx = .hunting false ∧ State.reset.link.up = false ∧ State.reset.link.requests.length < 4 ∧
    State.reset.link.tx = .idle ∧ State.reset.link.slot = none ∧ State.reset.pool.queue = [] ∧ 0 < State.reset.pool.free :=
  by decide +kernel

/-- Lane A in PULL, Lane B in TURN, and Lane B IDLE. -/
theorem witness_SilenceHoldsBothLanes :
    (unit (laneIn .pull) []).link.up = true ∧ (unit (laneIn .pull) []).link.silenceDue = some 2000000000 ∧
    (unit (laneIn .pull) []).laneA.ctl.state.holdable = true ∧ (unit (laneIn .pull) []).laneB.ctl.state.holdable = false ∧
    ({ unit (laneIn .pull) [] with laneB := laneIn .turn } : State).laneB.ctl.state.holdable = true :=
  by decide +kernel

/-- R176, R151: the silence holds both lanes, Lane A's HELD before Lane B's. -/
theorem test_silence_holds_both :
    (after .silenceTimeout { unit (laneIn .pull) [] with laneB := laneIn .turn }).map
      (fun t => (t.laneA.ctl.heldPhase, t.laneB.ctl.heldPhase, t.pool.queue)) =
      some (some .pull, some .turn,
        [.notice { kind := .held, lane := some .a, tag := some 7001, cause := none },
          .notice { kind := .held, lane := some .b, tag := some 7001, cause := none }]) := by
  decide +kernel

/-- The unit while it sends. -/
def sendingUnit (what : Sending) (slot : Option Reply) (up : Bool) (tight : Bool) (free : Nat) : State :=
  { unit lane0 [] with
    link := { (unit lane0 []).link with tx := .sending what [] 5, slot := slot, up := up },
    pool := { Pool.reset with queue := [.notice (unitNotice .linkUp), .notice (unitNotice .poolTight)], tight := tight, free := free } }

/-- A refusal. -/
def refusal : Reply := { hdr := headerOf (plain 1), code := .badLength, body := .empty }

/-- Each clause of the transmitter's statement, the free count at the ends of its ranges, over an UP and a LOST link. -/
theorem witness_TransmissionsEndAndFollow :
    (sendingUnit .reply (some refusal) true false 254).link.tx = .sending .reply [] 5 ∧
    (sendingUnit .record none false true 94).pool.tight = true ∧ (94 : Nat) + 1 < (sendingUnit .record none false true 94).pool.resume ∧
    (sendingUnit .record (some refusal) true true 95).pool.resume ≤ 95 + 1 ∧ (sendingUnit .record none true true 95).pool.low < 95 ∧
    (sendingUnit .record none true false 48).pool.tight = false ∧ (sendingUnit .record none true false 48).pool.low ≤ 48 ∧
    47 < (sendingUnit .record none true false 47).pool.low ∧ (sendingUnit .reply none true false 254).pool.queue ≠ [] :=
  by decide +kernel

/-- A TIGHT pool whose resume level is one above its low-water level: the return makes it EASY, and the notice TIGHT again (R159). -/
theorem test_pool_easy_then_tight :
    (after .transmissionEnd
      { sendingUnit .record none true true 48 with
        pool := { (sendingUnit .record none true true 48).pool with resume := 49 } }).map
      (fun t => (t.pool.tight, t.pool.free, t.pool.queue)) =
      some (true, 47, [.notice (unitNotice .poolTight), .notice (unitNotice .poolEasy), .notice (unitNotice .poolTight)]) := by
  decide +kernel

/-- The clauses of kind, lane byte and state: kinds 0 and 0x12, lane bytes 2 and 0, a lane in PULL, and the four commands in a state that
does not allow them. -/
theorem witness_RefusedRequestsChangeNothing :
    (unit lane0 [[0, 0, 7, 9]]).takes [0, 0, 7, 9] ∧ 0x11 < u8At [0x12, 0, 7, 9] 0 ∧ 1 < u8At [4, 2, 7, 9] 1 ∧
    requestKind .setScan = some (u8At [4, 2, 7, 9] 0) ∧ u8At [1, 0, 7, 9] 1 ≠ 255 ∧ requestKind .status = some (u8At [1, 0, 7, 9] 0) ∧
    (unit (laneIn .pull) [scanBytes]).laneA.ctl.state ≠ .idle ∧ asks .setScan scanBytes .a ∧
    plainRequest .abort (plain 0x0B) .a ∧
    (unit lane0 [plain 0x0B]).laneA.phaseOrHeld = .idle ∧ plainRequest .hold (plain 0x0C) .a ∧
    plainRequest .resume (plain 0x0D) .a ∧ (unit lane0 []).laneA.ctl.state ≠ .held ∧ plainRequest .retract (plain 0x0E) .a ∧
    (unit (inputs false true lane0) [plain 0x0E]).laneA.drive.home.active = true :=
  by decide +kernel

/-- The clauses of length: STATUS of 5 bytes, SET_SCAN of one slot without its bytes, QUEUE_TUBE without its length field, ABORT of 5
bytes; each other request's bytes have the length called for. -/
theorem witness_RefusedRequestsChangeNothing_lengths :
    requestKind .status = some (u8At [1, 255, 7, 9, 0] 0) ∧ [1, 255, 7, 9, 0].length ≠ lengthCalledFor [1, 255, 7, 9, 0] ∧
    asks .setScan (scanBytes.take 12) .a ∧ (scanBytes.take 12).length ≠ lengthCalledFor (scanBytes.take 12) ∧
    asks .queueTube (queueBytes.take 16) .a ∧ (queueBytes.take 16).length ≠ lengthCalledFor (queueBytes.take 16) ∧
    asks .abort [0x0B, 0, 7, 9, 0] .a ∧ [0x0B, 0, 7, 9, 0].length ≠ lengthCalledFor [0x0B, 0, 7, 9, 0] ∧
    ∀ p ∈ [linkBytes, layoutBytes, scanBytes, channelBytes, mixBytes, unmixBytes, landmarkBytes, motionBytes, queueBytes, cancelBytes,
      spanBytes, solveBytes], p.length = lengthCalledFor p :=
  by decide +kernel

/-- The clauses of fields, each value one beyond its range: SET_CHANNEL of channel 16, SET_LINK of 199 ms, SET_LAYOUT of class 17 and of
L = 999,999, QUEUE_TUBE of row 1000. -/
theorem witness_RefusedRequestsChangeNothing_fields :
    ¬ fieldsGood [5, 0, 7, 9, 16, 0, 0, 0] ∧ [5, 0, 7, 9, 16, 0, 0, 0].length = lengthCalledFor [5, 0, 7, 9, 16, 0, 0, 0] ∧
    ¬ fieldsGood [2, 255, 7, 9, 199, 0, 0, 17, 18, 0] ∧ 16 < u8At (layoutBytes.set 4 17) 4 ∧
    ¬ fieldsGood (layoutBytes.set 8 0x3F) ∧ u32At (layoutBytes.set 8 0x3F) 8 = 999999 ∧
    ¬ fieldsGood ((queueBytes.set 6 0xE8).set 7 3) ∧ u16At ((queueBytes.set 6 0xE8).set 7 3) 6 = 1000 := by
  refine ⟨fun h => absurd h.1 (by decide), by decide, fun h => absurd h.1 (by decide), by decide, fun h => absurd h.1 (by decide),
    by decide, fun h => absurd h.2.2.1 (by decide), by decide⟩

/-- SET_LAYOUT of a class in use; QUEUE_TUBE to a lane with no pitch, of an undefined class, with stops exactly a pitch apart, to a full
worklist, and of a tag that waits. -/
theorem witness_RefusedRequestsChangeNothing_orders :
    ({ tube0 with order := { order0 with cls := 1 } } : Tube).order.cls = u8At layoutBytes 4 ∧ State.reset.laneA.motion.pitch = none ∧
    (unit lane0 []).layout 2 = none ∧ (unit lane0 [queueBytes]).stops .a (orderAt queueBytes) = (975000, 10000) ∧
    (975000 : Int) ≤ 10000 + ((965000 : Nat) : Int) ∧ fieldsGood queueBytes ∧ u8At queueBytes 5 = 0 ∧ (10000 : Int) + 1000 < 975000 ∧
    32 ≤ (List.replicate 32 order0).length ∧
    u32At queueBytes 12 ∈ ({ lane0 with ctl := { lane0.ctl with worklist := [{ order0 with tag := 7002 }] } } : Lane).tags := by
  exact ⟨by decide, by decide, by decide, by decide, by decide,
    ⟨by decide, by decide, by decide, by decide, by decide, by decide, fun _ => by decide, fun h => absurd h (by decide)⟩, by decide,
    by decide, by decide, by decide⟩

/-- SPAN_CAL and SOLVE_MIX of an inactive channel, and of an active one with line 12 or 9, which the store does not hold. -/
theorem witness_RefusedRequestsChangeNothing_spans :
    ¬ lane0.solves (spanBytes.set 4 2) ∧ ¬ lane0.solves solveBytes ∧ lane0.solves spanBytes ∧ (mixed lane0).solves solveBytes ∧
    fieldsGood (spanBytes.set 12 12) ∧ s32At (spanBytes.set 12 12) 12 = 12 ∧ fieldsGood (solveBytes.set 12 9) ∧
    s32At (solveBytes.set 12 9) 12 = 9 ∧ (∀ k ∈ (stored lane0).store, k.index ≠ 12) ∧ ∀ k ∈ (stored lane0).store, k.index ≠ 9 := by
  refine ⟨fun h => absurd (h : _ ∧ _).2 (by decide), ?_, ⟨by decide, by decide⟩, ⟨by decide, by decide, ⟨_, rfl, by decide⟩⟩,
    ⟨by decide, by decide, by decide, by decide⟩, by decide, ⟨by decide, by decide⟩, by decide, by decide, by decide⟩
  rintro ⟨-, -, d, h, -⟩
  cases h

/-- A STATUS request. -/
theorem witness_StatusReportsAndChangesNothing :
    (unit lane0 [[1, 255, 7, 9]]).takes [1, 255, 7, 9] ∧ u8At [1, 255, 7, 9] 0 = 1 ∧ u8At [1, 255, 7, 9] 1 = 255 :=
  by decide +kernel

/-- A SET_LINK request. -/
theorem witness_SetLinkReplacesTheFourItems :
    (unit lane0 [linkBytes]).takes linkBytes ∧ u8At linkBytes 0 = 2 ∧ u8At linkBytes 1 = 255 ∧ linkBytes.length = 10 ∧
    200 ≤ u16At linkBytes 4 ∧ u16At linkBytes 4 ≤ 10000 ∧ 17 ≤ u8At linkBytes 7 ∧ u8At linkBytes 7 ≤ 200 ∧
    u8At linkBytes 7 < u8At linkBytes 8 ∧ u8At linkBytes 8 ≤ 255 :=
  by decide +kernel

/-- The ends of SET_LINK's ranges. -/
theorem witness_SetLinkReplacesTheFourItems_edges :
    200 ≤ u16At [2, 255, 7, 9, 200, 0, 0, 17, 18, 0] 4 ∧ 17 ≤ u8At [2, 255, 7, 9, 200, 0, 0, 17, 18, 0] 7 ∧
    u8At [2, 255, 7, 9, 0x10, 0x27, 0, 200, 255, 0] 7 ≤ 200 ∧ u16At [2, 255, 7, 9, 0x10, 0x27, 0, 200, 255, 0] 4 ≤ 10000 :=
  by decide +kernel

/-- A SET_LAYOUT request, no lane with a tube. -/
theorem witness_SetLayoutReplacesTheClass :
    (unit lane0 [layoutBytes]).takes layoutBytes ∧ layoutBytes.length = 20 + 4 * u8At layoutBytes 5 ∧ 1 ≤ u8At layoutBytes 4 ∧
    u8At layoutBytes 4 ≤ 16 ∧ (unit lane0 [layoutBytes]).laneA.ctl.tube = none ∧
    layoutAt layoutBytes = some { length := 1000000, tn := 20000, tf := 20000, supports := [300000] } :=
  by decide +kernel

/-- A SET_SCAN request. -/
theorem witness_SetScanReplacesTheTables :
    (unit lane0 [scanBytes]).takes scanBytes ∧ asks .setScan scanBytes .a ∧ (unit lane0 [scanBytes]).laneA.ctl.state = .idle ∧
    scanBytes.length = 8 + 4 * u8At scanBytes 4 + 6 * u8At scanBytes 5 ∧
    scanTables scanBytes = ([100000], [⟨0, 0, 4, 1, 2, 8⟩]) :=
  by decide +kernel

/-- A SET_CHANNEL request with a CALIBRATION part. -/
theorem witness_SetChannelReplacesThePresentParts :
    (unit lane0 [channelBytes]).takes channelBytes ∧ asks .setChannel channelBytes .a ∧
    channelBytes.length = (channelPlaces channelBytes).total ∧ u8At channelBytes 4 ≤ 15 ∧
    optionalPart (bitAt channelBytes 5 0) (calPartAt channelBytes 8) = some (some { null := ⟨1, 2⟩, kc := 8192, ks := 0 }) ∧
    partsAt channelBytes 5 (channelPlaces channelBytes) = some { screening := none, disposition := none, curve := none } ∧
    (unit lane0 [channelBytes]).laneA.bases.length = 16 :=
  by decide +kernel

/-- A SET_MIX definition. -/
theorem witness_SetMixDefinesAMix :
    (unit lane0 [mixBytes]).takes mixBytes ∧ asks .setMix mixBytes .a ∧ u8At mixBytes 5 = 1 ∧
    mixBytes.length = (mixPlaces mixBytes).total ∧ 16 ≤ u8At mixBytes 4 ∧ u8At mixBytes 4 ≤ 19 ∧ u8At mixBytes 8 ≤ 15 ∧
    u8At mixBytes 9 ≤ 15 ∧ u8At mixBytes 8 ≠ u8At mixBytes 9 ∧
    partsAt mixBytes 6 (mixPlaces mixBytes) = some { screening := none, disposition := none, curve := none } ∧
    (unit lane0 [mixBytes]).laneA.mixes.length = 4 :=
  by decide +kernel

/-- A SET_MIX removal of the highest mix. -/
theorem witness_SetMixRemovesAMix :
    (unit lane0 [unmixBytes]).takes unmixBytes ∧ asks .setMix unmixBytes .a ∧ u8At unmixBytes 5 = 0 ∧ unmixBytes.length = 8 ∧
    16 ≤ u8At unmixBytes 4 ∧ u8At unmixBytes 4 ≤ 19 ∧ (unit lane0 [unmixBytes]).laneA.mixes.length = 4 :=
  by decide +kernel

/-- A SET_LANDMARK request. -/
theorem witness_SetLandmarkReplacesTheSettings :
    (unit lane0 [landmarkBytes]).takes landmarkBytes ∧ asks .setLandmark landmarkBytes .a ∧ landmarkBytes.length = 24 ∧
    landmarkAt landmarkBytes = some { LandmarkSettings.reset with channel := some 0 } :=
  by decide +kernel

/-- A SET_MOTION request that changes the scale, to a lane whose guide-latched change has stood long enough, at counts within and
beyond the new range. -/
theorem witness_SetMotionReplacesTheSettings :
    (unit lane0 [motionBytes]).takes motionBytes ∧ asks .setMotion motionBytes .a ∧ motionBytes.length = 46 ∧
    motionAt motionBytes = some (10, { Motion.reset with pitch := some 1000 }) ∧ lane0.drive.stopped ∧ lane0.ctl.state = .idle ∧
    lane0.pos.scale ≠ some 10 ∧ 2147483647 < (300000000 : Int) * 10 ∧ (-300000000 : Int) * 10 < -2147483648 ∧
    ({ raw := true, active := false, since := 3 } : Input).followed 10 10000003 = { raw := true, active := true, since := 3 } ∧
    ({ raw := true, active := false, since := 3 } : Input).followed 10 10000002 = { raw := true, active := false, since := 3 } :=
  by decide +kernel

/-- R22: a count beyond the range of the new scale is set to its nearer end. -/
theorem test_set_motion_clamps :
    (after .setMotion (unit (laneAt (-300000000) lane0) [motionBytes])).map
      (fun t => (t.laneA.pos.count, t.laneA.pos.refPos)) = some (-214748364, -2147483640) := by
  decide +kernel

/-- A QUEUE_TUBE request, to a lane in PULL and to an IDLE one. -/
theorem witness_QueueTubeAppendsTheOrder :
    (unit (laneIn .pull) [queueBytes]).takes queueBytes ∧ asks .queueTube queueBytes .a ∧ queueBytes.length = queueLength queueBytes ∧
    (orderAt queueBytes).fieldsOk = true ∧ (orderAt queueBytes).cls = 0 ∧
    (unit (laneIn .pull) [queueBytes]).stops .a (orderAt queueBytes) = (975000, 10000) ∧
    (orderAt queueBytes).tag ∉ (unit (laneIn .pull) [queueBytes]).laneA.tags ∧
    (unit lane0 [queueBytes]).laneA.ctl.state = .idle ∧ lane0.motion.pitch = some 1000 ∧ lane0.pos.scale.isSome = true ∧
    lane0.exc.slots ≠ [] :=
  by decide +kernel

/-- A CANCEL_TUBE of a waiting order, of the current tube's, and to lane 2. -/
theorem witness_CancelTubeRemovesAWaitingOrder :
    (unit { lane0 with ctl := { lane0.ctl with worklist := [order0] } } [cancelBytes]).takes cancelBytes ∧
    asks .cancelTube cancelBytes .a ∧ cancelBytes.length = 8 ∧ order0.tag = u32At cancelBytes 4 ∧
    ({ lane0 with ctl := { lane0.ctl with worklist := [order0] } } : Lane).tags.Nodup ∧
    (unit (laneIn .pull) [cancelBytes]).laneA.ctl.worklist = [] ∧ (unit lane0 [[0x0A, 2, 7, 9]]).takes [0x0A, 2, 7, 9] ∧
    u8At [0x0A, 2, 7, 9] 0 = 0x0A ∧ u8At [0x0A, 2, 7, 9] 1 = 2 :=
  by decide +kernel

/-- An ABORT in each state that the statement names. -/
theorem witness_AbortEndsTheTube :
    (unit (laneIn .insert) [plain 0x0B]).takes (plain 0x0B) ∧ plainRequest .abort (plain 0x0B) .a ∧
    (laneIn .insert).ctl.tube = some tube0 ∧ (laneIn .withdraw).ctl.state = .withdraw ∧ (laneIn .guideCheck).ctl.state = .guideCheck ∧
    (unit (laneIn .insert) []).link.up = true ∧ (laneIn .pull).drive.fault.active = false ∧
    (laneIn .pull).drive.home.active = false ∧ (laneIn .turn).atHomeLimit = false ∧ (laneHeld .pull).phaseOrHeld = .pull ∧
    (laneHeld .insert).phaseOrHeld = .insert ∧ (laneHeld .guideCheck).phaseOrHeld = .guideCheck ∧
    (laneHeld .withdraw).phaseOrHeld = .withdraw ∧ (laneHeld .pull).ctl.tube = some tube0 ∧ (laneHeld .pull).atHomeLimit = false :=
  by decide +kernel

/-- R153, R97: an ABORT of TURN decides the expected landmarks MISSED and flags the tube, and forms no notice. -/
theorem test_abort_turn :
    (after .abort
      (unit { laneIn .turn with detector := { Detector.reset with expected := [expectedEntry .support 1 300000] } } [plain 0x0B])).map
      (fun t => (t.laneA.detector.expected.map fun e => e.state, t.laneA.ctl.tube.map fun u => u.flags.lmMissed, t.pool.queue)) =
      some ([.missed], some true, []) := by
  decide +kernel

/-- R153: an ABORT of a held PULL begins the withdrawal with a motion start. -/
theorem test_abort_held_pull :
    (after .abort (unit (laneAt 100 (laneHeld .pull)) [plain 0x0B])).map
      (fun t => (t.laneA.ctl.state, t.laneA.drive.duty, t.laneA.drive.phase)) = some (.withdraw, 200, .withdraw) := by
  decide +kernel

/-- A HOLD in INSERT and in HELD. -/
theorem witness_HoldSuspendsTheLane :
    (unit (laneIn .insert) [plain 0x0C]).takes (plain 0x0C) ∧ plainRequest .hold (plain 0x0C) .a ∧
    (unit (laneIn .insert) []).laneA.ctl.state = .insert ∧ (unit (laneHeld .insert) []).laneA.ctl.state = .held :=
  by decide +kernel

/-- A RESUME of a held TURN and of a held PULL just above stop B. -/
theorem witness_ResumeReturnsToTheHeldPhase :
    (unit (laneHeld .turn) [plain 0x0D]).takes (plain 0x0D) ∧ plainRequest .resume (plain 0x0D) .a ∧
    (laneHeld .turn).ctl.heldPhase = some .turn ∧ (laneHeld .pull).ctl.heldPhase = some .pull ∧
    (laneHeld .pull).drive.fault.active = false ∧ (laneHeld .pull).drive.home.active = false ∧
    (laneHeld .pull).atHomeLimit = false ∧ (armed false true (laneAt 501 (laneHeld .pull))).pos.raw = some 10020 ∧
    tube0.stopB < 10020 :=
  by decide +kernel

/-- A RETRACT of an IDLE lane. -/
theorem witness_RetractBringsTheProbeHome :
    (unit lane0 [plain 0x0E]).takes (plain 0x0E) ∧ plainRequest .retract (plain 0x0E) .a ∧ lane0.ctl.state = .idle ∧
    lane0.drive.home.active = false ∧ (unit lane0 []).link.up = true ∧ lane0.drive.fault.active = false :=
  by decide +kernel

/-- A LANE_RESET in PULL. -/
theorem witness_LaneResetClearsTheLane :
    (unit (laneIn .pull) [plain 0x0F]).takes (plain 0x0F) ∧ plainRequest .laneReset (plain 0x0F) .a ∧
    (laneIn .pull).lineBlock = none ∧ (laneIn .pull).regionBlock = none :=
  by decide +kernel

/-- A SPAN_CAL request over the two stored lines. -/
theorem witness_SolvesGoInFlight :
    (unit (stored lane0) [spanBytes]).takes spanBytes ∧ asks .spanCal spanBytes .a ∧ spanBytes.length = 20 ∧
    u8At spanBytes 4 < lane0.exc.slots.length ∧ u16At spanBytes 6 = 3000 ∧ u16At spanBytes 8 = 900 ∧ s32At spanBytes 12 = 11 ∧
    s32At spanBytes 16 = 10 ∧ (stored lane0).storeHolds 11 = true ∧ (stored lane0).storeHolds 10 = true ∧
    (unit (stored lane0) []).engine.busy = none ∧ (stored lane0).jobs = [] :=
  by decide +kernel

/-- A SOLVE_MIX request over the two stored lines. -/
theorem witness_SolvesGoInFlight_mix :
    (unit (stored (mixed lane0)) [solveBytes]).takes solveBytes ∧ asks .solveMix solveBytes .a ∧ solveBytes.length = 16 ∧
    u8At solveBytes 4 = 16 ∧ ((mixed lane0).mix 16).defn = some { p := 0, q := 1, mc := 4096, ms := 0 } ∧
    s32At solveBytes 8 = 11 ∧ s32At solveBytes 12 = 10 :=
  by decide +kernel

/-- SPAN_CAL and SOLVE_MIX while the engine runs another lane's job (R77). -/
theorem witness_SolvesGoInFlight_busy :
    ({ unit (stored (mixed lane0)) [spanBytes] with
      engine :=
        { busy := some { lane := .b, job := .measure 1 ⟨0, 5, 5, 5, [⟨3, 4⟩], false, false, false, false, 0⟩, discarded := false, doneAt := 9 },
          servedLast := .b } } : State).engine.busy ≠ none :=
  by decide +kernel

/-- An input at its debounced state. -/
theorem witness_RawLevelsAreDebounced :
    ((unit lane0 []).laneA.drive.input .probeHome).raw = ((unit lane0 []).laneA.drive.input .probeHome).active :=
  by decide +kernel

/-- Guide-latched pending; probe-home pending in WITHDRAW and in RETRACT. -/
theorem witness_DebouncedStatesFollow :
    (unit { lane0 with drive := { lane0.drive with guide := { raw := true, active := false, since := 3 } } } []).laneA.drive.input .guideLatched =
    { raw := true, active := false, since := 3 } ∧ lane0.drive.enabled = false ∧
    (laneIn .withdraw).drive.enabled = true ∧ (laneIn .withdraw).ctl.state = .withdraw ∧ (laneIn .withdraw).drive.phase = .withdraw ∧
    (laneIn .retract).drive.enabled = true ∧ (laneIn .retract).ctl.state = .retract ∧ (laneIn .retract).drive.phase = .retract :=
  by decide +kernel

/-- R131, R154: probe-home becoming ACTIVE ends a retraction from FAULTED. -/
theorem test_retract_home :
    (after (.debouncedStateChange .a .probeHome)
      (unit { laneIn .retract with
              drive := { (laneIn .retract).drive with home := { raw := true, active := false, since := 0 } },
              ctl := { (laneIn .retract).ctl with returnTo := some .faulted } } [])).map
      (fun t => (t.laneA.ctl.state, t.laneA.drive.enabled, t.pool.queue)) = some (.faulted, false, []) := by
  decide +kernel

/-- A motor fault pending in PULL; the other clauses by the state. -/
theorem witness_MotorFaultsStopTheMotor :
    ({ laneIn .pull with drive := { (laneIn .pull).drive with fault := { raw := true, active := false, since := 0 } } } : Lane).drive.fault.raw = true ∧
    (laneIn .pull).ctl.state = .pull ∧ (laneIn .retract).ctl.state = .retract ∧ (laneIn .idle).ctl.state = .idle ∧
    (laneIn .turn).ctl.state = .turn ∧ (laneIn .guideCheck).ctl.state = .guideCheck ∧ (laneIn .withdraw).ctl.tube = some tube0 :=
  by decide +kernel

/-- Each clause of the encoder's statement, the count at both ends of its range. -/
theorem witness_EdgesMoveTheCount :
    lane0.pos.armedA = false ∧ lane0.pos.armedB = false ∧ lane0.drive.enabled = false ∧ lane0.pos.scale = some 20 ∧
    (⟨true, false⟩ : EncPhase) = forwardOf lane0.pos.phase ∧ forwardOf ⟨false, true⟩ = lane0.pos.phase ∧
    fitsS32 ((lane0.pos.count + 1) * 20) ∧ ¬ fitsS32 (((laneAt 107374182 lane0).pos.count + 1) * 20) ∧
    fitsS32 ((laneAt 107374182 lane0).pos.count * 20) ∧ ¬ fitsS32 (((laneAt (-107374182) lane0).pos.count + -1) * 20) ∧
    (⟨true, true⟩ : EncPhase) = forwardOf (forwardOf lane0.pos.phase) :=
  by decide +kernel

/-- The edge that stays one short of a stop or limit: stop A in INSERT, stop B in PULL, the home limit in WITHDRAW. -/
theorem witness_EdgesMoveTheCount_stops :
    (armed true false (laneAt 48748 (laneIn .insert))).pos.armedA = true ∧
    ((laneAt 48748 (laneIn .insert)).pos.count + 1) * 20 < tube0.stopA ∧ (armed false true (laneAt 502 (laneIn .pull))).pos.armedB = true ∧
    tube0.stopB < ((laneAt 502 (laneIn .pull)).pos.count + -1) * 20 ∧ (laneIn .withdraw).drive.enabled = true ∧
    (laneIn .withdraw).drive.phase = .withdraw ∧
    -((laneIn .withdraw).motion.homeLimit : Int) < ((laneAt (-24998) (laneIn .withdraw)).pos.count + -1) * 20 :=
  by decide +kernel

/-- R26: an armed stop of a HELD lane is passed. -/
theorem test_held_stop_passed :
    (after (.edge .a ⟨false, true⟩) (unit (armed false true (laneAt 501 (laneHeld .pull))) [])).map
      (fun t => (t.laneA.ctl.state, t.laneA.pos.armedB, t.laneA.pos.count)) = some (.held, true, 500) := by
  decide +kernel

/-- A lane in INSERT one edge below stop A. -/
theorem witness_StopATurnsTheLane :
    (armed true false (laneAt 48749 (laneIn .insert))).pos.armedA = true ∧ tube0.stopA ≤ ((laneAt 48749 (laneIn .insert)).pos.count + 1) * 20 ∧
    fitsS32 (((laneAt 48749 (laneIn .insert)).pos.count + 1) * 20) ∧ 0 < (laneIn .insert).motion.turnDwell ∧
    (laneIn .insert).ctl.tube = some tube0 ∧ (laneIn .insert).pos.scale = some 20 :=
  by decide +kernel

/-- A lane in PULL one edge above stop B. -/
theorem witness_StopBEndsThePull :
    (armed false true (laneAt 501 (laneIn .pull))).pos.armedB = true ∧ ((laneAt 501 (laneIn .pull)).pos.count - 1) * 20 ≤ tube0.stopB ∧
    (laneIn .pull).drive.enabled = true ∧ (laneIn .pull).ctl.tube = some tube0 ∧
    -((laneIn .pull).motion.homeLimit : Int) < ((laneAt 501 (laneIn .pull)).pos.count - 1) * 20 :=
  by decide +kernel

/-- R73, R146, R168: at the end of the pull an open indication closes TRUNCATED into a job and the tube is flagged; the line block of the
pull stands in the outbound queue before PULL_ENDED. -/
theorem test_stop_b_order :
    (after (.edge .a ⟨false, true⟩)
      (unit
        { armed false true (laneAt 501 (laneIn .pull)) with
          bases :=
            lane0.bases.set 0
              { lane0.base 0 with facets := { (lane0.base 0).facets with screening := { Facets.reset.screening with enable := true } } },
          screens :=
            lane0.screens.set 0
              { phase := .opened, baseline := some ⟨0, 0⟩, count := 0, span := [⟨9, ⟨0, 1000⟩, 1000, false, false⟩] },
          lineBlock := some { kind := .full, tag := 7001, first := 9, mask := [0], correction := 0, lines := [] } } [])).map
      (fun t =>
        (t.engine.busy.isSome, t.laneA.ctl.tube.map fun u => u.flags.truncated,
          t.pool.queue.map fun k => decide (k = .notice { kind := .pullEnded, lane := some .a, tag := some 7001, cause := none }))) =
      some (true, some true, [false, true]) := by
  decide +kernel

/-- A lane in WITHDRAW one edge above −home_limit. -/
theorem witness_TheHomeLimitStopsAWithdrawal :
    (laneAt (-24999) (laneIn .withdraw)).drive.enabled = true ∧ (laneAt (-24999) (laneIn .withdraw)).drive.phase = .withdraw ∧
    ((laneAt (-24999) (laneIn .withdraw)).pos.count - 1) * 20 ≤ -((laneIn .withdraw).motion.homeLimit : Int) ∧
    (laneIn .withdraw).pos.armedA = false ∧ (laneIn .withdraw).ctl.tube = some tube0 :=
  by decide +kernel

/-- A running PULL, a retracting lane without a scale, and a lane with its motor DISABLED. -/
theorem witness_ControlPeriodsMeasureAndDrive :
    (laneAt 700 (laneIn .pull)).pos.scale.map (fun k => (laneAt 700 (laneIn .pull)).pos.count * (k : Int)) = some 14000 ∧
    (laneIn .pull).drive.enabled = true ∧ (laneIn .pull).drive.window = some { start := some 0, periods := 0 } ∧
    (laneIn .retract).drive.enabled = true ∧
    ({ laneIn .retract with pos := { (laneIn .retract).pos with scale := none } } : Lane).pos.scale.map (fun k => (k : Int)) = none ∧
    lane0.drive.enabled = false :=
  by decide +kernel

/-- 49 and 50 periods of the default stall time, in INSERT. -/
theorem witness_StallsEndThePhase :
    (laneIn .insert).drive.enabled = true ∧ 49 * 10 < (laneIn .insert).motion.stallTime ∧
    (laneIn .insert).motion.stallTime ≤ 50 * 10 ∧ (laneIn .insert).drive.fault.active = false ∧
    (laneIn .insert).drive.home.active = false ∧ (laneIn .insert).atHomeLimit = false :=
  by decide +kernel

/-- A slot in SWITCH and one in SETTLE. -/
theorem witness_SlotsSwitchAndSettle :
    (scanIn 0 .switch lane0).exc.run = some { slot := 0, phase := .switch, start := 0, partialCycle := [] } ∧
    (scanIn 1 .settle lane0).exc.run = some { slot := 1, phase := .settle, start := 0, partialCycle := [] } ∧
    lane0.exc.slots[1]? = some ⟨1, 0, 4, 1, 2, 8⟩ ∧ lane0.exc.freqs[0]? = some 100000 :=
  by decide +kernel

/-- The first and the last slot in INTEGRATE, 10 cycles of 100 kHz, and armed line capture on a window of four lines. -/
theorem witness_SlotsEndAndFollow :
    (scanIn 0 .integrate lane0).exc.run = some { slot := 0, phase := .integrate, start := 0, partialCycle := [] } ∧
    0 + 1 < lane0.exc.slots.length ∧ lane0.exc.slots.length ≤ 1 + 1 ∧ lane0.exc.slots[1]? = some ⟨1, 0, 4, 1, 2, 8⟩ ∧
    lane0.exc.freqs[0]? = some 100000 ∧ (2 + 8) * 1000000000 ≤ 100000 * 100000 ∧ 100000 * 100000 < (2 + 8) * 1000000000 + 100000 ∧
    (scanIn 1 .integrate lane0).exc.run = some { slot := 1, phase := .integrate, start := 0, partialCycle := [] } ∧
    lane0.capture.armed = false ∧ ({ lane0 with capture := { armed := true, window := [] } } : Lane).capture.armed = true ∧
    lane0.pos.scale = some 20 ∧ lane0.motion.pitch = some 1000 ∧
    (captureBin [⟨5, [], false, false⟩, ⟨4, [], false, false⟩, ⟨3, [], false, false⟩, ⟨2, [], false, false⟩] [] 1).window.length - 4 = 1 :=
  by decide +kernel

/-- Half of full scale in phase at 250 kHz, beside a constant and a second harmonic at its highest number of codes. -/
theorem witness_SlotsEndAndFollow_sample :
    (⟨[13, -57, 13, 43, 13, -57, 13, 43, 13, -57, 13, 43, 13, -57, 13, 43], 100⟩ : Demod).consistent = true ∧ 2 * 4 < 16 ∧
    2 * 2 * 4 ≤ 16 ∧
    ∀ i < 16, ∀ θ : ℝ, θ = 2 * Real.pi * (((250000 : ℕ) : ℝ) * 2000 / 10 ^ 9 + ((4 : ℕ) : ℝ) * (i : ℕ) / ((16 : ℕ) : ℝ)) →
      |(([13, -57, 13, 43, 13, -57, 13, 43, 13, -57, 13, 43, 13, -57, 13, 43] : List Int).getD i 0 : ℝ) -
        (3 + 50 * Real.sin θ + 0 * Real.cos θ + ∑ h ∈ Finset.Icc 2 2, 10 * Real.cos ((h : ℕ) * θ + 0))| ≤ 0 := by
  refine ⟨by decide, by decide, by decide, fun i hi θ hθ => ?_⟩
  obtain ⟨q, r, hr, rfl⟩ : ∃ q r, r < 4 ∧ i = 4 * q + r := ⟨i / 4, i % 4, by omega, by omega⟩
  have hs : θ = (Real.pi + r * (Real.pi / 2)) + q * (2 * Real.pi) := by rw [hθ]; push_cast; ring
  have e1 : Real.sin θ = Real.sin (Real.pi + r * (Real.pi / 2)) := by rw [hs, Real.sin_add_nat_mul_two_pi]
  have e2 : Real.cos (2 * θ) = 1 - 2 * Real.sin θ ^ 2 := by rw [Real.cos_two_mul]; linarith [Real.sin_sq_add_cos_sq θ]
  have e3 : Real.sin (Real.pi + Real.pi / 2) = -1 := by rw [Real.sin_add_pi_div_two, Real.cos_pi]
  have e4 : Real.sin (Real.pi + 3 * (Real.pi / 2)) = 1 := by
    rw [show Real.pi + 3 * (Real.pi / 2) = Real.pi / 2 + 2 * Real.pi by ring, Real.sin_add_two_pi, Real.sin_pi_div_two]
  have e5 : Real.sin (Real.pi + 2 * (Real.pi / 2)) = 0 := by
    rw [show Real.pi + 2 * (Real.pi / 2) = 2 * Real.pi by ring, Real.sin_two_pi]
  have hq : q < 4 := by omega
  simp only [Finset.Icc_self, Finset.sum_singleton, Nat.cast_ofNat, add_zero, e2, e1]
  interval_cases r <;> interval_cases q <;> norm_num [e3, e4, e5]

/-- A window of lines 5 and 4, with bins 3, 2, 4, 5 and 6 in the clauses. -/
theorem witness_CyclesAreCapturedByBin :
    consecutive [⟨5, [], false, false⟩, ⟨4, [], false, false⟩] = true ∧ (4 : Int) = 5 - 1 ∧ (3 : Int) < 4 ∧ (2 : Int) < 4 - 1 :=
  by decide +kernel

/-- A test that passes, one that fails, and the last one. -/
theorem witness_GuidePollsTestTheGuide :
    ({ laneIn .guideCheck with ctl := { (laneIn .guideCheck).ctl with poll := .running 9 } } : Lane).ctl.poll = .running 9 ∧
    (inputs true true (laneIn .guideCheck)).drive.home.active = true ∧ (inputs true true (laneIn .guideCheck)).drive.guide.active = true ∧
    (laneIn .guideCheck).ctl.rearm = true ∧ 0 < tube0.stopA ∧ (laneIn .guideCheck).ctl.attempts + 1 < (laneIn .guideCheck).motion.attemptLimit ∧
    ¬ ({ (laneIn .guideCheck).ctl with attempts := 599 } : Control).attempts + 1 < (laneIn .guideCheck).motion.attemptLimit :=
  by decide +kernel

/-- A lane in TURN just above stop B. -/
theorem witness_TheDwellEndsInAPull :
    ({ laneAt 501 (laneIn .turn) with ctl := { (laneIn .turn).ctl with dwell := .running 9 } } : Lane).ctl.dwell = .running 9 ∧
    (laneAt 501 (laneIn .turn)).pos.raw = some 10020 ∧ tube0.stopB < 10020 ∧ (laneIn .turn).drive.fault.active = false :=
  by decide +kernel

/-- An IDLE lane with an order, its guide test failing, passing and failing at an attempt limit of 1, a LOST link, and stops that are
inconsistent at a pitch of 50,000. -/
theorem witness_OrdersAreTakenFromTheFront :
    ({ lane0 with ctl := { lane0.ctl with worklist := [order0] } } : Lane).ctl.worklist = order0 :: [] ∧
    (unit lane0 []).stops .a order0 = (975000, 10000) ∧ (unit lane0 []).link.up = true ∧ (unit lane0 []).hasJob .a Job.isSolve = false ∧
    lane0.drive.home.active = false ∧ (inputs true true lane0).drive.home.active = true ∧
    (inputs true true lane0).drive.guide.active = true ∧ lane0.ctl.rearm = true ∧ (0 : Int) < 975000 ∧
    1 < lane0.motion.attemptLimit ∧ ¬ 1 < ({ lane0.motion with attemptLimit := 1 } : Motion).attemptLimit ∧ State.reset.link.up = false ∧
    ¬ ((stopsOf Motion.reset 1000000 (some (20000, 10000))).2 + 50000 < (stopsOf Motion.reset 1000000 (some (20000, 10000))).1) :=
  by decide +kernel

/-- A tube in FINISH whose wait has ended, with and without a fault mark, and one with a CATALOGUE record to queue. -/
theorem witness_ReportsAreQueuedInFinish :
    ({ laneIn .finish with ctl := { (laneIn .finish).ctl with tube := some { tube0 with located := true } } } : Lane).ctl.state = .finish ∧
    ({ tube0 with located := true } : Tube).located = true ∧ (tube0.catalogue.length + 31) / 32 = 0 ∧ tube0.reported = 0 ∧
    (33 + 31) / 32 = 2 ∧ 1 ≤ (unit lane0 []).pool.free ∧ 4 ≤ (unit lane0 []).pool.free ∧
    (unit lane0 []).link.mask.getLsbD 5 = true ∧ ({ tube0 with fault := some .homeLimit } : Tube).fault.isSome = true ∧
    ({ Pool.reset with free := 0 } : Pool).free = 0 :=
  by decide +kernel

/-- R82, R148: a one-line span measured in FINISH joins with Vpp 0 and no phase, and the wait ends. -/
theorem witness_MeasurementsJoinTheCatalogue_finish :
    ((after .jobCompletion
        { unit (laneIn .finish) [] with
          engine :=
            { busy :=
                some
                  { lane := .a,
                    job :=
                      .measure 1
                        { channel := 0, first := 5, last := 5, peak := 5, values := [⟨3, 4⟩], ovr := false, rep := false,
                          long := false, truncated := false, correction := 0 },
                    discarded := false, doneAt := 9 },
              servedLast := .a } }).bind fun t =>
      t.laneA.ctl.tube.map fun u => (u.located, u.catalogue.map fun e => (e.centre, e.vpp, e.phase))) =
      some (true, [(5, some 0, none)]) :=
  by decide +kernel

/-- A tube in PULL with room in its catalogue, a span of two values, and a curve of two points with phases at, between and beyond
them. -/
theorem witness_MeasurementsJoinTheCatalogue :
    (laneIn .pull).ctl.tube = some tube0 ∧ tube0.catalogue.length < 64 ∧ (laneIn .pull).ctl.state ≠ .finish ∧
    maxChord [⟨0, 0⟩, ⟨3, 4⟩] = some { d := 25, c := ⟨3, 4⟩ } ∧
    ([⟨1500, 10⟩, ⟨300, 90⟩] : List CurvePoint).head? = some ⟨1500, 10⟩ ∧
    ([⟨1500, 10⟩, ⟨300, 90⟩] : List CurvePoint).getLast? = some ⟨300, 90⟩ ∧
    ([⟨1500, 10⟩, ⟨300, 90⟩] : List CurvePoint).Pairwise (fun a b => b.phase < a.phase) ∧
    depthOf [⟨1500, 10⟩, ⟨300, 90⟩] 900 = (some 50, false, false, false) :=
  by decide +kernel

/-- A full catalogue, each entry of amplitude 5. -/
def fullTube : Tube :=
  { tube0 with
    joins := 64,
    catalogue := (List.range 64).map fun (n : Nat) =>
      { channel := 0, first := (n : Int), last := (n : Int), centre := (n : Int), corrected := 0,
        flags :=
          { long := false, truncated := false, unmeasured := false, ovr := false, rep := false, clampedLow := false,
            clampedHigh := false, outside := false },
        vpp := some 5, phase := none, depth := none, location := none, join := n + 1 } }

/-- The full catalogue is legal, for the clause about eviction. -/
theorem witness_MeasurementsJoinTheCatalogue_full : fullTube.catalogueLegal ∧ fullTube.catalogue.length = 64 := by
  refine ⟨⟨by decide +kernel, ?_, by decide +kernel, by decide +kernel⟩, by decide +kernel⟩
  have h : fullTube.catalogue.Pairwise fun e k => e.centre < k.centre := by decide +kernel
  exact h.imp .inl

/-- The states that an accepted SPAN_CAL and SOLVE_MIX leave. -/
theorem witness_SolvesAreAnsweredAtCompletion :
    ((after .spanCal (unit (stored lane0) [spanBytes])).map fun t => (t.engine.busy.isSome, t.link.handler, t.link.slot, t.laneA.jobs, t.laneB.jobs)) =
      some (true, .working (headerOf spanBytes), none, [], []) ∧
    ((after .solveMix (unit (stored (mixed lane0)) [solveBytes])).map fun t => (t.engine.busy.isSome, t.link.handler)) =
      some (true, .working (headerOf solveBytes)) ∧
    2 ≤ ([⟨0, 0⟩, ⟨3, 4⟩] : List Vec).length :=
  by decide +kernel

/-- Each clause about the solves: a chord at each side of 64 counts, a whole-quarter phase, sums with Den 0 and above, and two
vectors. -/
theorem witness_SolvesAreAnsweredAtCompletion_values :
    ((3969 : Nat) : Int) = 63 * 63 + 0 * 0 ∧ (3969 : Nat) < 4096 ∧ ((4096 : Nat) : Int) = 64 * 64 + 0 * 0 ∧
    (solveSpan 1000 900 { d := 4096, c := ⟨64, 0⟩ }).toOption = none ∧
    (solveSpan 100 900 { d := 4096, c := ⟨64, 0⟩ }).toOption = some (0, 6400) ∧
    (solveMixCoefficient [⟨1, 2⟩] [⟨0, 0⟩]).toOption = none ∧ (solveMixCoefficient [⟨1, 2⟩] [⟨2, 0⟩]).toOption = some (2048, 4096) ∧
    angleTenths ⟨0, 0⟩ = none ∧ angleTenths ⟨0, -5⟩ = some 2700 :=
  by decide +kernel

/-- A half, and a length above 0. -/
theorem witness_RoundingIsNearest :
    0 < 2 ∧ 2 * ((5 : Int) - roundDiv 5 2 * 2).natAbs = 2 ∧ 0 < vppOf 25 :=
  by decide +kernel

/-- Each clause about committed lines: an active channel and a mix, the screen states, a span with a tail, the ROI at 31 quiet
lines, a block one line short of its capacity, and the free count at 16 and 17. -/
theorem witness_CommittedLinesAreScreenedAndPlaced :
    (mixed lane0).active 0 = true ∧ (mixed lane0).active 16 = true ∧ lane0.active 2 = false ∧
    ((mixed lane0).mix 16).defn = some { p := 0, q := 1, mc := 4096, ms := 0 } ∧
    (mixed lane0).channelValue [⟨5, 6⟩, ⟨1, 2⟩] 0 = some ⟨5, 6⟩ ∧ (mixed lane0).channelValue [⟨5, 6⟩, ⟨1, 2⟩] 16 = some ⟨4, 4⟩ ∧
    (stepScreen Facets.reset.screening Screen.reset 9 ⟨0, 0⟩ false false).screen.phase = .quiet ∧
    (stepScreen Facets.reset.screening { Screen.reset with baseline := some ⟨0, 0⟩ } 9 ⟨0, 1000⟩ false false).screen.phase = .confirming ∧
    (trimTail 500 [⟨9, ⟨0, 0⟩, 1000, false, false⟩, ⟨8, ⟨0, 0⟩, 499, false, false⟩]).length = 1 ∧
    (roiStep (some 31) false false).2.last = true ∧ capacity 1 = 32 ∧ capacity 20 = 23 ∧ (laneIn .pull).block .full = none ∧
    16 < (17 : Nat) ∧ (laneIn .pull).mask .full = [] ∧ (laneIn .pull).ring.length ≤ 32 ∧ (laneIn .pull).screens.length = 20 ∧
    (laneIn .pull).capture.window = [] :=
  by decide +kernel

/-- R37: the flush commits the lines of the window, here one of them. -/
theorem witness_CommittedLinesAreScreenedAndPlaced_flush :
    (((unit { laneIn .pull with capture := { armed := true, window := [lineOf [] 5 false] } } []).flush .a).laneA.ctl.tube.map
      fun u => u.committed) = some 1 :=
  by decide +kernel

/-- The channels that the end of the pull closes and the screens it leaves, as the statement describes them. -/
theorem witness_CommittedLinesAreScreenedAndPlaced_end :
    ∃ (closes : Nat → Bool) (after : List Screen),
      (∀ ch,
        closes ch = true ↔
          (laneIn .pull).screened ch = true ∧
            (((laneIn .pull).screens.getD ch Screen.reset).phase = .opened ∨
              ((laneIn .pull).screens.getD ch Screen.reset).phase = .releasing)) ∧
      after.length = 20 ∧
      ∀ (ch : Nat) (k : Screen), (laneIn .pull).screens[ch]? = some k →
        after[ch]? =
          some
            (if (laneIn .pull).screened ch = true ∧ k.phase ≠ .quiet then
              { phase := .quiet, baseline := k.baseline, count := 0, span := [] }
            else k) :=
  ⟨fun _ => decide (_ ∧ _),
    (laneIn .pull).screens.mapIdx fun ch k =>
      if (laneIn .pull).screened ch = true ∧ k.phase ≠ .quiet then { phase := .quiet, baseline := k.baseline, count := 0, span := [] }
      else k,
    fun _ => decide_eq_true_iff, by decide +kernel, fun ch k h => by rw [List.getElem?_mapIdx, h]; rfl⟩

/-- R76, R106: a lane with room for a job and an idle engine, and one with four jobs. -/
theorem witness_CommittedLinesAreScreenedAndPlaced_hand :
    (laneIn .pull).jobs = [] ∧ (unit (laneIn .pull) []).engine.busy = none ∧ (laneIn .pull).ctl.tube = some tube0 ∧
    4 ≤ (List.replicate 4 (Job.measure 1 ⟨0, 5, 5, 5, [⟨3, 4⟩], false, false, false, false, 0⟩)).length :=
  by decide +kernel

/-- R91 to R94: a run that reaches 80 lines, one that ends with 30, one that began on the pull's first line; a watch that is on, and a
tube in FINISH without jobs. -/
theorem witness_LandmarksAreExpectedMatchedAndLocated_runs :
    (runStep LandmarkSettings.reset (some ⟨100, 79, false, false⟩) 21 false true) =
      (some ⟨100, 80, false, true⟩, some ⟨.sheet, 100⟩) ∧
    (runStep LandmarkSettings.reset (some ⟨100, 30, false, false⟩) 70 false false) = (none, some ⟨.support, 85⟩) ∧
    (⟨100, 80, true, false⟩ : LandmarkRun).ending LandmarkSettings.reset = some (.sheet, 21) ∧
    (({ lane0 with landmark := { LandmarkSettings.reset with channel := some 0 } } : Lane).startDetector []).detector.watch = true ∧
    (laneIn .finish).ctl.tube = some tube0 ∧ tube0.located = false ∧ (laneIn .finish).jobs.any Job.isMeasure = false :=
  by decide +kernel

/-- A candidate that matches, one that passes an entry and meets another kind, one with nothing to match; two landmarks equally near. -/
theorem witness_LandmarksAreExpectedMatchedAndLocated :
    ({ Detector.reset with expected := [expectedEntry .support 1 300000] } : Detector).matchCandidate 25000 .support 290000 =
      ({ Detector.reset with
          expected := [{ kind := .support, ordinal := 1, state := .matched, nominal := some 300000, found := some 290000, raw := some 290000 }],
          pointer := 1, correction := 10000 }, false, false) ∧
    (({ Detector.reset with expected := [expectedEntry .tsf 0 900000, expectedEntry .support 1 300000] } : Detector).matchCandidate 25000
      .sheet 300000).2 = (true, true) ∧
    (Detector.reset.matchCandidate 25000 .support 290000).2.2 = true ∧
    locationOf
      [{ expectedEntry .tsf 0 300 with state := .matched }, { expectedEntry .tsn 0 100 with state := .matched }] 200 =
      some { kind := .tsn, ordinal := 0, offset := 100 } :=
  by decide +kernel

/-- A refusal, and a reply of 6 bytes. -/
theorem witness_PayloadsHaveTheirLengths :
    refusal.body = .empty ∧ refusal.payload.length = 5 ∧ ({ refusal with body := .active true } : Reply).payload.length = 6 :=
  by decide +kernel

end Sys2Proof.Tests
end

/-! The excitation unit (chapter 1): power-on, SET_SCAN, the phases of a slot, and what a slot's end delivers. -/

namespace Sys2Proof.Machine

/-! ### The five commands -/

theorem exec_powerOn (s : State) : exec .powerOn s = execPowerOn s := by rfl

theorem exec_setScan (s : State) : exec .setScan s = execSetScan s := by rfl

theorem exec_switchEnd (s : State) (l : LaneId) : exec (.switchEnd l) s = execSwitchEnd l s := by rfl

theorem exec_settleEnd (s : State) (l : LaneId) : exec (.settleEnd l) s = execSettleEnd l s := by rfl

theorem exec_slotEnd (s : State) (l : LaneId) (d : Demod) : exec (.slotEnd l d) s = execSlotEnd l d s := by rfl

/-! ### POWER_ON -/

/-- The state after POWER_ON. -/
def State.poweredOn (s : State) : State :=
  { State.reset with laneA := s.laneA.powerOn, laneB := s.laneB.powerOn, pending := s.pending }

@[simp] theorem State.poweredOn_lane (s : State) (l : LaneId) : s.poweredOn.lane l = (s.lane l).powerOn := by cases l <;> rfl

/-- The drive stands still after power-on (R135). -/
theorem Lane.powerOn_stopped (x : Lane) : x.powerOn.drive.stopped := ⟨rfl, rfl, rfl, rfl, rfl⟩

/-- Settles O3: the unit's blocks are those of `State.reset`; each lane is `Lane.powerOn` of what it was. -/
theorem powerOnResetsEveryBlock : Obligations.PowerOnResetsEveryBlock := by
  intro s
  refine ⟨s.poweredOn, exec_powerOn s, rfl, rfl, rfl, rfl, rfl, rfl, fun l => ?_⟩
  rw [State.poweredOn_lane]
  exact ⟨rfl, rfl, rfl, rfl, rfl, rfl, rfl, rfl, rfl, rfl, rfl, rfl, rfl, rfl, rfl, (s.lane l).powerOn_stopped, rfl, rfl, rfl, rfl, rfl⟩

/-! ### SET_SCAN (R16 to R18) -/

@[simp] theorem length_u32List (p : List Byte) (k i : Nat) : (u32List p k i).length = k := by
  induction k generalizing i with
  | zero => rfl
  | succ k ih => simp [u32List, ih]

@[simp] theorem length_slotsAt (p : List Byte) (k i : Nat) : (slotsAt p k i).length = k := by
  induction k generalizing i with
  | zero => rfl
  | succ k ih => simp [slotsAt, ih]

/-- Tables whose sizes and fields lie in their ranges pass R16; a slot names a frequency, so that there is one. -/
theorem scanOk_of_ranges {p : List Byte} {freqs : List Nat} {slots : List Slot} (ht : scanTables p = (freqs, slots))
    (hn : freqs.length ≤ 4) (hm : slots.length ≤ 16) (hf : ∀ f ∈ freqs, 2000 ≤ f ∧ f ≤ 1000000)
    (hk : ∀ k ∈ slots, k.coil ≤ 7 ∧ k.freqIndex < freqs.length ∧ 1 ≤ k.drive ∧ k.drive ≤ 8 ∧ k.gain ≤ 5 ∧ 1 ≤ k.settle ∧
      k.settle ≤ 16 ∧ 4 ≤ k.integrate ∧ k.integrate ≤ 64) :
    scanOk p = true := by
  have hfl : freqs.length = u8At p 4 := (congrArg (fun t => t.1.length) ht).symm.trans (length_u32List ..)
  have hsl : slots.length = u8At p 5 := (congrArg (fun t => t.2.length) ht).symm.trans (length_slotsAt ..)
  have hsome : slots = [] ∨ ¬ freqs = [] := by
    rcases slots with _ | ⟨k, rest⟩
    · exact .inl rfl
    · obtain ⟨-, hidx, -⟩ := hk k List.mem_cons_self
      exact .inr (List.ne_nil_of_length_pos (Nat.zero_lt_of_lt hidx))
  have hslots : slots.all (Slot.ok (u8At p 4)) = true := by
    rw [List.all_eq_true]
    intro k hmem
    simpa [Slot.ok, within, hfl, and_assoc] using hk k hmem
  simp only [scanOk, ht, hslots]
  simpa [within, ← hfl, ← hsl, hn, hm] using ⟨hf, hsome⟩

/-- A setup request of the right length, to a lane that is IDLE or FAULTED, is carried out (R177). -/
theorem forSetup_accepted {p : List Byte} {s : State} {n : Nat} {l : LaneId} (f : LaneId → Handled) (hl : laneOf p = some l)
    (hst : (s.lane l).ctl.state = .idle ∨ (s.lane l).ctl.state = .faulted) (hn : p.length = n) : forSetup p s n f = f l := by
  have hset : (s.lane l).ctl.state.setup = true := by rcases hst with h | h <;> rw [h] <;> rfl
  simp [forSetup, forLane, hl, hset, hn]

/-- A change of one lane, answered as the request that the handler took (R177). -/
theorem State.popRequest_conclude_upd (s : State) (p : List Byte) (l : LaneId) (f : Lane → Lane) (body : ReplyBody) :
    s.popRequest.conclude p (.done (s.popRequest.upd l f) body) =
      (s.setLane l (f (s.lane l))).afterReply (replyTo p .ok body) := by
  have h : s.popRequest.upd l f = (s.setLane l (f (s.lane l))).popRequest := by cases l <;> rfl
  rw [State.conclude, h, State.popRequest_placeReply]

/-- An accepted SET_SCAN (R17, R18). -/
theorem execSetScan_accepted {s : State} {p : List Byte} {l : LaneId} {freqs : List Nat} {slots : List Slot} (ht : s.takes p)
    (hkind : u8At p 0 = 4) (hl : laneOf p = some l) (hst : (s.lane l).ctl.state = .idle ∨ (s.lane l).ctl.state = .faulted)
    (hn : p.length = 8 + 4 * u8At p 4 + 6 * u8At p 5) (htab : scanTables p = (freqs, slots)) (hok : scanOk p = true) :
    execSetScan s =
      .next
        ((s.setLane l ((s.lane l).setScan freqs slots s.clock)).afterReply
          (replyTo p .ok ((s.lane l).setScan freqs slots s.clock).scanReply)) := by
  have hh : handleSetScan p s.popRequest =
      .done (s.popRequest.upd l fun x => x.setScan freqs slots s.clock) ((s.lane l).setScan freqs slots s.clock).scanReply := by
    rw [handleSetScan, scanLength, forSetup_accepted _ hl (by simpa using hst) hn]
    simp [hok, htab]
  rw [execSetScan, State.handle_takes s _ _ p ht (by rw [hkind]; rfl), hh, State.popRequest_conclude_upd]

/-- The line-rate limit of a lane with its pitch set (R13). -/
theorem Lane.lineRateLimit_some {x : Lane} {pitch : Nat} (h : x.motion.pitch = some pitch) :
    x.lineRateLimit = if x.exc.slots = [] then none else some (pitch * 1000000 / x.exc.cycleTime) := by
  rw [Lane.lineRateLimit, h]

/-- A lane with its pitch unset has no line-rate limit (R13). -/
theorem Lane.lineRateLimit_none {x : Lane} (h : x.motion.pitch = none) : x.lineRateLimit = none := by rw [Lane.lineRateLimit, h]

/-- A line-rate limit bounds the effective pull speed (R14). -/
theorem Lane.effectivePull_some {x : Lane} {v : Nat} (h : x.lineRateLimit = some v) :
    x.effectivePull = min x.motion.pullSpeed v := by rw [Lane.effectivePull, h]

/-- Without a line-rate limit the pull speed of the settings is in force (R14). -/
theorem Lane.effectivePull_none {x : Lane} (h : x.lineRateLimit = none) : x.effectivePull = x.motion.pullSpeed := by
  rw [Lane.effectivePull, h]

/-- Settles O25: the tables in their ranges pass R16, and the reply reads the timing from the lane with the new tables. -/
theorem setScanReplacesTheTables : Obligations.SetScanReplacesTheTables := by
  intro s p l freqs slots ht hask hst hn htab hfl hsl hf hk
  obtain ⟨hkind, hl⟩ := hask
  have hok := scanOk_of_ranges htab hfl hsl hf hk
  have hexec := execSetScan_accepted ht (Option.some.inj hkind).symm hl hst hn htab hok
  generalize hx : (s.lane l).setScan freqs slots s.clock = x at hexec
  have hslots : x.exc.slots = slots := by rw [← hx]; rfl
  have hcycle : x.exc.cycleTime =
      (slots.map fun k =>
        ((k.settle + k.integrate) * 1000000000 + (freqs.getD k.freqIndex 0 - 1)) / freqs.getD k.freqIndex 0 + 2000).sum := by
    rw [← hx]; rfl
  refine ⟨x, _, x.lineRateLimit, hx.symm, hcycle, ?_, ?_⟩
  · cases hp : x.motion.pitch with
    | none => exact Lane.lineRateLimit_none hp
    | some pitch => rw [Lane.lineRateLimit_some hp, hslots]
  · rw [exec_setScan, hexec, Lane.scanReply, hslots]
    cases hlim : x.lineRateLimit with
    | none => rw [Lane.effectivePull_none hlim]
    | some v => rw [Lane.effectivePull_some hlim]

/-! ### Times of a slot (R4, R5, R11) -/

/-- Periods in ns are rounded up to a whole ns (R11; log entry 15). -/
theorem periodsNs_bounds (cycles : Nat) {f : Nat} (hf : 0 < f) :
    cycles * 1000000000 ≤ periodsNs cycles f * f ∧ periodsNs cycles f * f < cycles * 1000000000 + f := by
  unfold periodsNs
  have hdiv := Nat.div_add_mod (cycles * 1000000000 + (f - 1)) f
  have hmod := Nat.mod_lt (cycles * 1000000000 + (f - 1)) hf
  rw [Nat.mul_comm f] at hdiv
  omega

/-- Only one whole number of ns lies within a ns above a number of periods. -/
theorem eq_periodsNs {cycles f c : Nat} (hf : 0 < f) (hlo : cycles * 1000000000 ≤ c * f) (hhi : c * f < cycles * 1000000000 + f) :
    c = periodsNs cycles f := by
  obtain ⟨hlo', hhi'⟩ := periodsNs_bounds cycles hf
  have h1 : c < periodsNs cycles f + 1 := Nat.lt_of_mul_lt_mul_right (a := f) (by rw [Nat.add_mul]; omega)
  have h2 : periodsNs cycles f < c + 1 := Nat.lt_of_mul_lt_mul_right (a := f) (by rw [Nat.add_mul]; omega)
  omega

theorem Excitation.current_eq {e : Excitation} {r : Running} {k : Slot} (h : e.slots[r.slot]? = some k) : e.current r = k := by
  simp [Excitation.current, h]

theorem Excitation.freq_eq {e : Excitation} {k : Slot} {f : Nat} (h : e.freqs[k.freqIndex]? = some f) : e.freq k = f := by
  simp [Excitation.freq, h]

/-! ### The phases of a slot -/

/-- A timed change of one lane, written as one state. -/
theorem State.reach_upd (s : State) (due : Nat) (l : LaneId) (f : Lane → Lane) :
    (s.reach due).upd l f = { s.setLane l (f (s.lane l)) with clock := max s.clock due } := by cases l <;> rfl

/-- SWITCH_END in a SWITCH phase passes the slot into SETTLE (R4). -/
theorem execSwitchEnd_eq {s : State} {l : LaneId} {r : Running} (hr : (s.lane l).exc.run = some r) (hp : r.phase = .switch) :
    execSwitchEnd l s = .next ((s.reach (r.start + 2000)).upd l fun x => x.toPhase r .settle) := by
  obtain ⟨slot, phase, start, part⟩ := r
  cases hp
  simp [execSwitchEnd, hr, Config.switchNs]

/-- SETTLE_END in a SETTLE phase passes the slot into INTEGRATE (R5). -/
theorem execSettleEnd_eq {s : State} {l : LaneId} {r : Running} (hr : (s.lane l).exc.run = some r) (hp : r.phase = .settle) :
    execSettleEnd l s = .next ((s.reach ((s.lane l).exc.settleDue r)).upd l fun x => x.toPhase r .integrate) := by
  obtain ⟨slot, phase, start, part⟩ := r
  cases hp
  simp [execSettleEnd, hr]

/-- Settles O48: each phase ends at its due time, that of SETTLE by `periodsNs`. -/
theorem slotsSwitchAndSettle : Obligations.SlotsSwitchAndSettle := by
  refine ⟨fun s l r hr hp => ?_, fun s l r k f hr hp hk hf hpos => ?_⟩
  · rw [exec_switchEnd, execSwitchEnd_eq hr hp, State.reach_upd]
    rfl
  · obtain ⟨hlo, hhi⟩ := periodsNs_bounds k.settle hpos
    refine ⟨periodsNs k.settle f, hlo, hhi, ?_⟩
    have hdue : (s.lane l).exc.settleDue r = r.start + 2000 + periodsNs k.settle f := by
      rw [Excitation.settleDue, Excitation.current_eq hk, Excitation.freq_eq hf, Config.switchNs]
    rw [exec_settleEnd, execSettleEnd_eq hr hp, hdue, State.reach_upd]
    rfl

/-! ### What the demodulator reads from an output (R4 to R7) -/

section Reading

open Real

/-- An output of a constant, a part in phase with the reference, a part a quarter period ahead, and harmonics up to `top`. -/
noncomputable def modelOutput (K A B : ℝ) (top : ℕ) (amplitude phase : ℕ → ℝ) (θ : ℝ) : ℝ :=
  K + A * sin θ + B * cos θ + ∑ h ∈ Finset.Icc 2 top, amplitude h * cos (h * θ + phase h)

/-- A weight that has no share in the harmonics sums a model output's harmonics to 0. -/
theorem harmonics_sum_eq_zero {n top : ℕ} {amplitude phase θ w : ℕ → ℝ}
    (h : ∀ h ∈ Finset.Icc 2 top, ∑ i ∈ Finset.range n, cos (h * θ i + phase h) * w i = 0) :
    ∑ i ∈ Finset.range n, (∑ h ∈ Finset.Icc 2 top, amplitude h * cos (h * θ i + phase h)) * w i = 0 := by
  simp only [Finset.sum_mul]
  rw [Finset.sum_comm]
  refine Finset.sum_eq_zero fun k hk => ?_
  simp only [mul_assoc]
  rw [← Finset.mul_sum, h k hk, mul_zero]

/-- Of a model output the weight in phase leaves the part in phase, and the weight a quarter period ahead the part ahead (R6). -/
theorem modelOutput_weighted {f cycles n top : ℕ} (hc : 0 < cycles) (hn : 2 * cycles < n) (ht : 2 * top * cycles ≤ n)
    (K A B : ℝ) (amplitude phase : ℕ → ℝ) :
    ∑ i ∈ Finset.range n,
        modelOutput K A B top amplitude phase (demodAngle f cycles n i) * sin (demodAngle f cycles n i) = A * n / 2 ∧
    ∑ i ∈ Finset.range n,
        modelOutput K A B top amplitude phase (demodAngle f cycles n i) * cos (demodAngle f cycles n i) = B * n / 2 := by
  obtain ⟨hsin, hcos, hcross, hsin2, hcos2⟩ := weights_scale (f := f) hc hn
  have hortho := fun h (hh : h ∈ Finset.Icc 2 top) =>
    weights_orthogonal (f := f) hc hn (Finset.mem_Icc.1 hh).1
      ((Nat.mul_le_mul_right _ (Nat.mul_le_mul_left 2 (Finset.mem_Icc.1 hh).2)).trans ht) (phase h)
  have hs := harmonics_sum_eq_zero (amplitude := amplitude) fun h hh => (hortho h hh).1
  have hk := harmonics_sum_eq_zero (amplitude := amplitude) fun h hh => (hortho h hh).2
  have split : ∀ w : ℕ → ℝ, ∑ i ∈ Finset.range n, modelOutput K A B top amplitude phase (demodAngle f cycles n i) * w i =
      K * ∑ i ∈ Finset.range n, w i + A * ∑ i ∈ Finset.range n, sin (demodAngle f cycles n i) * w i +
        B * ∑ i ∈ Finset.range n, cos (demodAngle f cycles n i) * w i +
        ∑ i ∈ Finset.range n,
          (∑ h ∈ Finset.Icc 2 top, amplitude h * cos (h * demodAngle f cycles n i + phase h)) * w i := fun w => by
    simp only [modelOutput, add_mul, Finset.sum_add_distrib, Finset.mul_sum, mul_assoc]
  constructor
  · rw [split, hs, hsin]
    simp only [mul_comm (cos _) (sin _), ← sq, hcross, hsin2]
    ring
  · rw [split, hk, hcos]
    simp only [← sq, hcross, hcos2]
    ring

/-- Weights of at most 1 sum an error of at most `e` at each code to at most `n * e`. -/
theorem weighted_sub_le {n : ℕ} {out model w : ℕ → ℝ} {e : ℝ} (hw : ∀ i, |w i| ≤ 1) (h : ∀ i < n, |out i - model i| ≤ e) :
    |∑ i ∈ Finset.range n, out i * w i - ∑ i ∈ Finset.range n, model i * w i| ≤ n * e := by
  rw [← Finset.sum_sub_distrib]
  refine (Finset.abs_sum_le_sum_abs _ _).trans ?_
  have hi : ∀ i ∈ Finset.range n, |out i * w i - model i * w i| ≤ e := fun i hi => by
    rw [← sub_mul, abs_mul]
    exact (mul_le_of_le_one_right (abs_nonneg _) (hw i)).trans (h i (Finset.mem_range.1 hi))
  simpa using Finset.sum_le_card_nsmul _ _ _ hi

/-- A component's average, scaled so that full scale is 32767, is the component to within the error of the codes (R6). -/
theorem scaled_average_close {n full sum part e : ℝ} (hn : 0 < n) (hf : 0 < full) (h : |sum - part * n / 2| ≤ n * e) :
    |65534 * sum / (n * full) - 32767 * part / full| ≤ 65534 * e / full := by
  have heq : 65534 * sum / (n * full) - 32767 * part / full = 65534 * (sum - part * n / 2) / (n * full) := by
    field_simp
    ring
  rw [heq, abs_div, abs_mul, abs_of_pos (mul_pos hn hf), abs_of_pos (by norm_num : (0 : ℝ) < 65534),
    div_le_div_iff₀ (mul_pos hn hf) hf]
  calc 65534 * |sum - part * n / 2| * full ≤ 65534 * (n * e) * full := by gcongr
    _ = 65534 * e * (n * full) := by ring

/-- A component within a half and 2^-64 of its exact average lies within the statement's bound of the part it stands for. -/
theorem component_close {v avg part bound : ℝ} (hv : |v - avg| ≤ 1 / 2 + 1 / 2 ^ 64) (ha : |avg - part| ≤ bound) :
    |v - part| ≤ bound + 1 / 2 + 1 / 2 ^ 40 := by
  have h := abs_sub_le v avg part
  norm_num at hv ⊢
  linarith

/-- X and Y are the parts of a model output in phase and a quarter period ahead, 32767 standing for full scale (R4 to R6). -/
theorem demodAverage_reads {f cycles top : ℕ} {d : Demod} {e K A B : ℝ} {amplitude phase : ℕ → ℝ} (hd : d.consistent = true)
    (hc : 0 < cycles) (hn : 2 * cycles < d.output.length) (ht : 2 * top * cycles ≤ d.output.length)
    (he : ∀ i < d.output.length,
      |(d.output.getD i 0 : ℝ) - modelOutput K A B top amplitude phase (demodAngle f cycles d.output.length i)| ≤ e) :
    |((demodAverage f cycles d).x : ℝ) - 32767 * A / d.full| ≤ 65534 * e / d.full + 1 / 2 + 1 / 2 ^ 40 ∧
    |((demodAverage f cycles d).y : ℝ) - 32767 * B / d.full| ≤ 65534 * e / d.full + 1 / 2 + 1 / 2 ^ 40 := by
  obtain ⟨hx, hy⟩ := demodAverage_close hd f cycles
  obtain ⟨hA, hB⟩ := modelOutput_weighted (f := f) hc hn ht K A B amplitude phase
  have hn0 : (0 : ℝ) < d.output.length := by exact_mod_cast (by omega : 0 < d.output.length)
  have hf0 : (0 : ℝ) < d.full := by
    simp only [Demod.consistent, Bool.and_eq_true, decide_eq_true_eq] at hd
    exact_mod_cast hd.1.1
  have hsin := weighted_sub_le (fun i => abs_sin_le_one (demodAngle f cycles d.output.length i)) he
  have hcos := weighted_sub_le (fun i => abs_cos_le_one (demodAngle f cycles d.output.length i)) he
  rw [hA] at hsin
  rw [hB] at hcos
  exact ⟨component_close hx (scaled_average_close hn0 hf0 hsin), component_close hy (scaled_average_close hn0 hf0 hcos)⟩

/-- With more than two codes to a cycle the sample is the rounded average, saturated, with the overload mark of R7. -/
theorem sampleOf_resolved (now f : ℕ) {cycles : ℕ} {d : Demod} (hn : 2 * cycles < d.output.length) :
    sampleOf now f cycles d =
      { value := ⟨sat (demodAverage f cycles d).x, sat (demodAverage f cycles d).y⟩,
        overload :=
          d.output.any (fun code => decide (d.full ≤ code.natAbs)) || decide (32767 < (demodAverage f cycles d).x.natAbs) ||
            decide (32767 < (demodAverage f cycles d).y.natAbs) } := by
  rw [sampleOf, demodValue, demodResolves, if_pos (decide_eq_true hn)]

end Reading

/-! ### What the blocks behind the calibration store leave alone (R44)

Detector, screening, engine and assemblers change a part of the lane and of its tube record. `Lane.upstream` blanks that part, so
that one equation says that all the rest is unchanged. -/

/-- A tube record with blanks for what detector, screening, engine and assemblers change of it. -/
def Tube.upstream (t : Tube) : Tube :=
  { t with
    lost := 0, catalogue := [], joins := 0, catOverflow := 0,
    flags := { t.flags with dataGap := false, catOverflow := false, lmMissed := false, lmUnexpected := false } }

/-- A lane with blanks for what detector, screening, engine and assemblers change of it. -/
def Lane.upstream (x : Lane) : Lane :=
  { x with
    screens := [], roi := none, detector := Detector.reset, jobs := [], lineBlock := none, regionBlock := none, ring := [],
    ctl := { x.ctl with tube := x.ctl.tube.map Tube.upstream } }

/-- A change of the blanked part of the tube record is not seen. -/
theorem Lane.upstream_updTube (x : Lane) {f : Tube → Tube} (h : ∀ t, (f t).upstream = t.upstream) :
    (x.updTube f).upstream = x.upstream := by
  have hf : Tube.upstream ∘ f = Tube.upstream := funext h
  simp [Lane.upstream, Lane.updTube, hf]

@[simp] theorem Lane.upstream_setBlock (x : Lane) (kind : BlockKind) (b : Option Block) :
    (x.setBlock kind b).upstream = x.upstream := by cases kind <;> rfl

theorem Tube.upstream_join (t : Tube) (e : CatEntry) : (t.join e).upstream = t.upstream := by
  unfold Tube.join
  split
  · rfl
  · split
    · rfl
    · split <;> rfl

@[simp] theorem Lane.upstream_takeCandidate (x : Lane) (c : Option Candidate) : (x.takeCandidate c).upstream = x.upstream := by
  cases c with
  | none => rfl
  | some c => exact Lane.upstream_updTube _ fun _ => rfl

@[simp] theorem Lane.upstream_landmarkLine (x : Lane) (line : ChanLine) : (x.landmarkLine line).upstream = x.upstream := by
  unfold Lane.landmarkLine
  dsimp only
  split
  · exact Lane.upstream_takeCandidate _ _
  · rfl

/-- From `s` to `t` lane `l` differs at most in what the blocks behind the calibration store change. -/
def State.SameUpstream (l : LaneId) (s t : State) : Prop := (t.lane l).upstream = (s.lane l).upstream

namespace State.SameUpstream

theorem refl (l : LaneId) (s : State) : SameUpstream l s s := rfl

theorem trans {l : LaneId} {s t u : State} (h : SameUpstream l s t) (k : SameUpstream l t u) : SameUpstream l s u := Eq.trans k h

theorem of_reports {s t : State} (l : LaneId) (h : s.Reports t) : SameUpstream l s t := congrArg Lane.upstream (h.lane l)

theorem upd {l : LaneId} (s : State) {f : Lane → Lane} (h : ∀ x, (f x).upstream = x.upstream) : SameUpstream l s (s.upd l f) := by
  rw [SameUpstream, State.lane_upd, h]

/-- A list of operations that each leave it alone. -/
theorem foldl {α : Type} {l : LaneId} {f : State → α → State} (h : ∀ s a, SameUpstream l s (f s a)) (as : List α) :
    ∀ s, SameUpstream l s (as.foldl f s) := by
  induction as with
  | nil => exact fun s => .refl l s
  | cons a as ih => exact fun s => (h s a).trans (ih (f s a))

end State.SameUpstream

theorem State.engineTake_upstream (s : State) (l : LaneId) : SameUpstream l s (s.engineTake l) := by
  obtain ⟨_, h⟩ | ⟨j, rest, _, h⟩ := s.engineTake_cases l <;> rw [h]
  · exact .refl l s
  · cases l <;> rfl

theorem State.appendJob_upstream (s : State) (l : LaneId) (j : Job) : SameUpstream l s (s.appendJob l j) := by
  have hq : SameUpstream l s (s.upd l fun x => { x with jobs := x.jobs ++ [j] }) := .upd s fun _ => rfl
  unfold State.appendJob
  dsimp only
  split
  · exact hq.trans (State.engineTake_upstream _ l)
  · exact hq

theorem State.handOn_upstream (s : State) (l : LaneId) (ind : Indication) : SameUpstream l s (s.handOn l ind) := by
  unfold State.handOn
  dsimp only
  split
  · exact s.appendJob_upstream l _
  · exact .upd s fun y => y.upstream_updTube fun t => t.upstream_join _

theorem State.closeSpan_upstream (s : State) (l : LaneId) (ch : Nat) (span : List SpanEntry) (long truncated : Bool) :
    SameUpstream l s (s.closeSpan l ch span long truncated) := by
  unfold State.closeSpan
  dsimp only
  split
  · exact s.handOn_upstream l _
  · exact .refl l s

theorem State.screenChannel_upstream (line : ChanLine) (l : LaneId) (s : State) (ch : Nat) :
    SameUpstream l s (s.screenChannel line l ch) := by
  have stepped : ∀ k : Screen, SameUpstream l s (s.upd l fun y => { y with screens := y.screens.set ch k }) :=
    fun _ => .upd s fun _ => rfl
  unfold State.screenChannel
  dsimp only
  split
  · split
    · exact (stepped _).trans (State.closeSpan_upstream _ l _ _ _ _)
    · exact stepped _
  · exact .refl l s

theorem State.screenLine_upstream (s : State) (l : LaneId) (line : ChanLine) : SameUpstream l s (s.screenLine l line).1 :=
  .trans (.foldl (State.screenChannel_upstream line l) channelNumbers s) (.upd _ fun _ => rfl)

theorem State.closeBlock_upstream (s : State) (l : LaneId) (kind : BlockKind) : SameUpstream l s (s.closeBlock l kind) := by
  obtain ⟨_, h⟩ | ⟨b, _, h⟩ := s.closeBlock_cases l kind <;> rw [h]
  · exact .refl l s
  · exact .trans (.upd s fun x => x.upstream_setBlock kind none) (.of_reports l (State.enqueue_reports _ _))

theorem State.openBlock_upstream (s : State) (l : LaneId) (kind : BlockKind) (line : RingLine) :
    SameUpstream l s (s.openBlock l kind line) := by
  unfold State.openBlock
  split
  · exact .trans (.upd s fun x => x.upstream_setBlock kind _) (.of_reports l (State.takeBuffer_reports _))
  · exact .refl l s

theorem State.appendLine_upstream (s : State) (l : LaneId) (kind : BlockKind) (line : RingLine) :
    SameUpstream l s (s.appendLine l kind line) := by
  unfold State.appendLine
  split
  · exact .upd s fun x => x.upstream_updTube fun _ => rfl
  · dsimp only
    split
    · exact .trans (.upd s fun x => x.upstream_setBlock kind _) (State.closeBlock_upstream _ l kind)
    · exact .upd s fun x => x.upstream_setBlock kind _

theorem State.placeLine_upstream (s : State) (l : LaneId) (kind : BlockKind) (line : RingLine) :
    SameUpstream l s (s.placeLine l kind line) := by
  have closed : SameUpstream l s (if (s.lane l).correctionMoved kind line then s.closeBlock l kind else s) := by
    split
    · exact s.closeBlock_upstream l kind
    · exact .refl l s
  have opened : ∀ t : State, SameUpstream l t (if ((t.lane l).block kind).isNone then t.openBlock l kind line else t) := fun t => by
    split
    · exact t.openBlock_upstream l kind line
    · exact .refl l t
  exact (closed.trans (opened _)).trans (State.appendLine_upstream _ l kind line)

theorem State.lineAssembler_upstream (s : State) (l : LaneId) (line : ChanLine) (m : RegionMarks) :
    SameUpstream l s (s.lineAssembler l line m) := by
  unfold State.lineAssembler
  dsimp only
  split
  · exact .refl l s
  · exact s.placeLine_upstream l _ _

theorem State.regionAssembler_upstream (s : State) (l : LaneId) (line : ChanLine) (m : RegionMarks) :
    SameUpstream l s (s.regionAssembler l line m) := by
  have emptied : SameUpstream l s (s.upd l fun y => { y with ring := [] }) := .upd s fun _ => rfl
  unfold State.regionAssembler
  dsimp only
  split
  · exact .refl l s
  · split
    · exact .upd s fun _ => rfl
    · have history : SameUpstream l s
          (if m.first then
            ((s.lane l).ring.map RingLine.asHistory).foldl (fun t h => t.placeLine l .region h)
              (s.upd l fun y => { y with ring := [] })
          else s) := by
        split
        · exact emptied.trans (.foldl (fun t h => t.placeLine_upstream l .region h) _ _)
        · exact .refl l s
      have placed := history.trans (State.placeLine_upstream _ l .region ((s.lane l).assemblyLine .region line m))
      split
      · exact placed.trans (State.closeBlock_upstream _ l .region)
      · exact placed

/-! ### Committed lines in the tube's counts and the calibration store (R36, R39, R52) -/

/-- What a line committed at the time `now` does to the part of the lane that the blocks behind leave alone. -/
def Lane.commit (now : Nat) (x : Lane) (c : CapLine) : Lane := (x.updTube fun t => t.countCommit now c).storeLine c

theorem Lane.storeLine_upstream (x : Lane) (c : CapLine) : (x.storeLine c).upstream = x.upstream.storeLine c := by
  have hcal : x.upstream.calTube = x.calTube := by
    cases h : x.ctl.tube <;> simp [Lane.calTube, Lane.upstream, Tube.upstream, h]
  have hlen : x.upstream.store = x.store := rfl
  unfold Lane.storeLine
  rw [hcal, hlen]
  split <;> rfl

theorem Lane.commit_upstream (now : Nat) (x : Lane) (c : CapLine) : (x.commit now c).upstream = x.upstream.commit now c := by
  rw [Lane.commit, Lane.storeLine_upstream, Lane.commit]
  congr 1
  cases h : x.ctl.tube <;> simp [Lane.upstream, Lane.updTube, h, Tube.upstream, Tube.countCommit]

/-- A committed line is counted and stored; the blocks behind leave that alone (R44). -/
theorem State.commitLine_upstream (l : LaneId) (s : State) (c : CapLine) :
    ((s.commitLine l c).lane l).upstream = (s.lane l).upstream.commit s.clock c := by
  have stored : ((s.upd l fun x =>
      ((x.updTube fun t => t.countCommit s.clock c).storeLine c).landmarkLine ((s.lane l).chanLine c)).lane l).upstream =
      (s.lane l).upstream.commit s.clock c := by
    rw [State.lane_upd, Lane.upstream_landmarkLine]
    exact Lane.commit_upstream s.clock (s.lane l) c
  rw [← stored]
  unfold State.commitLine
  exact ((State.screenLine_upstream _ l _).trans (State.lineAssembler_upstream _ l _ _)).trans
    (State.regionAssembler_upstream _ l _ _)

/-- Lines committed one after the other, all at the one time of the step (R36). -/
theorem State.commitLines_upstream (l : LaneId) (out : List CapLine) (s : State) :
    ((out.foldl (State.commitLine l) s).lane l).upstream = out.foldl (Lane.commit s.clock) (s.lane l).upstream := by
  induction out generalizing s with
  | nil => rfl
  | cons c out ih =>
    rw [List.foldl_cons, ih, State.commitLine_upstream, (State.commitLine_keeps l s c).clock, List.foldl_cons]

theorem State.commitLines_keeps (l : LaneId) (out : List CapLine) (s : State) :
    State.KeepsTo l s (out.foldl (State.commitLine l) s) := .foldl (State.commitLine_keeps l) out s

@[simp] theorem Lane.commit_exc (now : Nat) (x : Lane) (c : CapLine) : (x.commit now c).exc = x.exc := by
  unfold Lane.commit Lane.storeLine; split <;> rfl

@[simp] theorem Lane.commit_capture (now : Nat) (x : Lane) (c : CapLine) : (x.commit now c).capture = x.capture := by
  unfold Lane.commit Lane.storeLine; split <;> rfl

@[simp] theorem Lane.commit_tube (now : Nat) (x : Lane) (c : CapLine) :
    (x.commit now c).ctl.tube = x.ctl.tube.map fun t => t.countCommit now c := by
  unfold Lane.commit Lane.storeLine; split <;> rfl

/-- A line joins the store of a CAL tube while there is room (R52). -/
theorem Lane.commit_store {x : Lane} {u : Tube} (h : x.ctl.tube = some u) (now : Nat) (c : CapLine) :
    (x.commit now c).store =
      if u.order.cal = true ∧ x.store.length < 2048 then x.store ++ [{ index := c.index, samples := c.samples }] else x.store := by
  have hcal : (x.updTube fun t => t.countCommit now c).calTube = u.order.cal := by
    simp [Lane.calTube, h, Tube.countCommit]
  rw [Lane.commit, Lane.storeLine, hcal, apply_ite Lane.store]
  refine if_congr ?_ rfl rfl
  rw [Bool.and_eq_true, decide_eq_true_eq]
  rfl

theorem Lane.commits_exc (now : Nat) (out : List CapLine) (x : Lane) : (out.foldl (Lane.commit now) x).exc = x.exc := by
  induction out generalizing x with
  | nil => rfl
  | cons c out ih => rw [List.foldl_cons, ih, Lane.commit_exc]

theorem Lane.commits_capture (now : Nat) (out : List CapLine) (x : Lane) :
    (out.foldl (Lane.commit now) x).capture = x.capture := by
  induction out generalizing x with
  | nil => rfl
  | cons c out ih => rw [List.foldl_cons, ih, Lane.commit_capture]

theorem Lane.commits_tube (now : Nat) (out : List CapLine) (x : Lane) :
    (out.foldl (Lane.commit now) x).ctl.tube =
      x.ctl.tube.map fun t => out.foldl (fun t c => t.countCommit now c) t := by
  induction out generalizing x with
  | nil => simp
  | cons c out ih => rw [List.foldl_cons, ih, Lane.commit_tube, Option.map_map]; rfl

/-- The calibration store of a CAL tube takes committed lines until it is full, and that of another tube none (R52). -/
theorem Lane.commits_store (now : Nat) (out : List CapLine) (x : Lane) {u : Tube} (h : x.ctl.tube = some u)
    (hx : x.store.length ≤ 2048) :
    (out.foldl (Lane.commit now) x).store =
      if u.order.cal then
        (x.store ++ out.map fun c => ({ index := c.index, samples := c.samples } : StoredLine)).take 2048
      else x.store := by
  induction out generalizing x u with
  | nil => simp [List.take_of_length_le hx]
  | cons c out ih =>
    have hstore := Lane.commit_store h now c
    have htube : (x.commit now c).ctl.tube = some (u.countCommit now c) := by rw [Lane.commit_tube, h]; rfl
    have hlen : (x.commit now c).store.length ≤ 2048 := by
      rw [hstore]
      split
      · rename_i hroom; simpa using hroom.2
      · exact hx
    have hcal : (u.countCommit now c).order.cal = u.order.cal := rfl
    rw [List.foldl_cons, ih _ htube hlen, hcal, hstore]
    by_cases hc : u.order.cal = true
    · by_cases hroom : x.store.length < 2048
      · simp [hc, hroom]
      · have hfull : x.store.length = 2048 := by omega
        simp [hc, hfull]
    · simp [hc]

/-- The record `v` is `t` after the lines `out` were counted: a count that stays within its greatest value is exact (R36, R39). -/
structure Tube.CountsTo (t : Tube) (out : List CapLine) (v : Tube) : Prop where
  order : v.order = t.order
  outcome : v.outcome = t.outcome
  committed : t.committed + out.length ≤ 4294967295 → v.committed = t.committed + out.length
  repeated : t.repeated + (out.filter fun h => h.rep).length ≤ 4294967295 →
    v.repeated = t.repeated + (out.filter fun h => h.rep).length
  ignored : v.ignored = t.ignored
  overspeed : v.flags.overspeed = t.flags.overspeed
  reversal : v.flags.reversal = t.flags.reversal
  overload : v.flags.overload = (t.flags.overload || out.any fun h => h.ovr)

theorem Tube.countsTo_foldl (now : Nat) (out : List CapLine) (t : Tube) :
    t.CountsTo out (out.foldl (fun t c => t.countCommit now c) t) := by
  induction out generalizing t with
  | nil => constructor <;> simp
  | cons c out ih =>
    obtain ⟨ho, hout, hc, hr, hi, hs, hv, hl⟩ := ih (t.countCommit now c)
    refine ⟨ho, hout, fun hb => ?_, fun hb => ?_, hi, hs, hv, ?_⟩
    · rw [List.length_cons] at hb ⊢
      have hone : (t.countCommit now c).committed = t.committed + 1 := countTube_below now t.committed (by omega)
      rw [List.foldl_cons, hc (by omega)]
      omega
    · have hone : (t.countCommit now c).repeated = if c.rep then countTube now t.repeated else t.repeated := rfl
      rw [List.foldl_cons]
      cases hrep : c.rep with
      | false =>
        rw [hone, hrep] at hr
        simp only [List.filter_cons, hrep] at hb ⊢
        exact hr hb
      | true =>
        simp only [List.filter_cons, hrep, if_true, List.length_cons] at hb ⊢
        rw [hone, hrep, if_pos rfl, countTube_below now t.repeated (by omega)] at hr
        rw [hr (by omega)]
        omega
    · rw [List.foldl_cons, hl, List.any_cons, ← Bool.or_assoc]
      rfl

theorem Tube.CountsTo.of_upstream {t v : Tube} {out : List CapLine} (h : t.upstream.CountsTo out v.upstream) : t.CountsTo out v :=
  ⟨h.order, h.outcome, h.committed, h.repeated, h.ignored, h.overspeed, h.reversal, h.overload⟩

/-- The tube's record after lines are committed. -/
theorem State.commitLines_tube {s : State} {l : LaneId} {u : Tube} (h : (s.lane l).ctl.tube = some u) (out : List CapLine) :
    ∃ v, ((out.foldl (State.commitLine l) s).lane l).ctl.tube = some v ∧ u.CountsTo out v := by
  have hup := congrArg (fun x => x.ctl.tube) (State.commitLines_upstream l out s)
  simp only [Lane.commits_tube] at hup
  have hs : (s.lane l).upstream.ctl.tube = some u.upstream := by simp [Lane.upstream, h]
  rw [hs, Option.map_some] at hup
  obtain ⟨v, hv, hvu⟩ := Option.map_eq_some_iff.1 hup
  exact ⟨v, hv, .of_upstream (hvu ▸ Tube.countsTo_foldl s.clock out u.upstream)⟩

/-- The calibration store after lines are committed (R52). -/
theorem State.commitLines_store {s : State} {l : LaneId} {u : Tube} (h : (s.lane l).ctl.tube = some u)
    (hs : (s.lane l).store.length ≤ 2048) (out : List CapLine) :
    ((out.foldl (State.commitLine l) s).lane l).store =
      if u.order.cal then
        ((s.lane l).store ++ out.map fun c => ({ index := c.index, samples := c.samples } : StoredLine)).take 2048
      else (s.lane l).store := by
  have hu : (s.lane l).upstream.ctl.tube = some u.upstream := by simp [Lane.upstream, h]
  have hup := congrArg Lane.store (State.commitLines_upstream l out s)
  rw [Lane.commits_store s.clock out _ hu hs] at hup
  exact hup

theorem State.commitLines_exc (s : State) (l : LaneId) (out : List CapLine) :
    ((out.foldl (State.commitLine l) s).lane l).exc = (s.lane l).exc := by
  have hup := congrArg Lane.exc (State.commitLines_upstream l out s)
  rw [Lane.commits_exc] at hup
  exact hup

theorem State.commitLines_capture (s : State) (l : LaneId) (out : List CapLine) :
    ((out.foldl (State.commitLine l) s).lane l).capture = (s.lane l).capture := by
  have hup := congrArg Lane.capture (State.commitLines_upstream l out s)
  rw [Lane.commits_capture] at hup
  exact hup

/-! ### Line capture takes a cycle (R31, R36, R39) -/

/-- Armed line capture after a cycle: the window without the lines that leave it, and the tube's marks of the cycle. -/
def Lane.capturedCycle (x : Lane) (now : Nat) (w : CaptureResult) : Lane :=
  { x with
    capture := { armed := true, window := w.window.drop (w.window.length - 4) },
    ctl :=
      { x.ctl with
        tube := x.ctl.tube.map fun u =>
          { u with
            ignored := if w.ignored then countTube now u.ignored else u.ignored,
            flags :=
              { u.flags with overspeed := u.flags.overspeed || w.overspeed, reversal := u.flags.reversal || w.ignored } } } }

theorem State.captureCycle_discards {s : State} {l : LaneId} {c : Cycle}
    (h : (s.lane l).capture.armed = false ∨ c.position = none) : s.captureCycle l c = s := by
  unfold State.captureCycle
  rcases h with h | h
  · simp [h]
  · cases ha : (s.lane l).capture.armed <;> simp [h, ha]

theorem State.captureCycle_takes {s : State} {l : LaneId} {c : Cycle} {p : Int} (ha : (s.lane l).capture.armed = true)
    (hp : c.position = some p) {w : CaptureResult}
    (hw : w = captureBin (s.lane l).capture.window c.samples (lineIndex p (s.lane l).pitch)) :
    s.captureCycle l c =
      (w.window.take (w.window.length - 4)).foldl (State.commitLine l)
        (s.setLane l ((s.lane l).capturedCycle s.clock w)) := by
  unfold State.captureCycle
  simp only [ha, hp, ← hw, State.upd_eq_setLane]
  rfl

/-- The tube's record after a cycle that line capture takes, and the lines that leave the window, are counted. -/
theorem State.commitLines_capturedCycle_tube {s : State} {l : LaneId} {x : Lane} {u : Tube} (h : x.ctl.tube = some u) (now : Nat)
    (w : CaptureResult) (out : List CapLine) (hs : s.lane l = x.capturedCycle now w) :
    ∃ v, ((out.foldl (State.commitLine l) s).lane l).ctl.tube = some v ∧ v.order = u.order ∧ v.outcome = u.outcome ∧
      (u.committed + out.length ≤ 4294967295 → v.committed = u.committed + out.length) ∧
      (u.repeated + (out.filter fun h => h.rep).length ≤ 4294967295 →
        v.repeated = u.repeated + (out.filter fun h => h.rep).length) ∧
      (u.ignored < 4294967295 → v.ignored = u.ignored + (if w.ignored then 1 else 0)) ∧
      v.flags.overspeed = (u.flags.overspeed || w.overspeed) ∧ v.flags.reversal = (u.flags.reversal || w.ignored) ∧
      v.flags.overload = (u.flags.overload || out.any fun h => h.ovr) := by
  have htube : (s.lane l).ctl.tube = some
      { u with
        ignored := if w.ignored then countTube now u.ignored else u.ignored,
        flags := { u.flags with overspeed := u.flags.overspeed || w.overspeed, reversal := u.flags.reversal || w.ignored } } := by
    simp [hs, Lane.capturedCycle, h]
  obtain ⟨v, hv, hc⟩ := State.commitLines_tube htube out
  refine ⟨v, hv, hc.order, hc.outcome, hc.committed, hc.repeated, fun hlt => ?_, hc.overspeed, hc.reversal, hc.overload⟩
  rw [hc.ignored]
  cases w.ignored
  · rfl
  · exact countTube_below now u.ignored hlt

/-! ### The end of a slot (R8, R9, R11) -/

/-- SLOT_END in an INTEGRATE phase ends the slot with its sample (R6 to R9). -/
theorem execSlotEnd_eq {s : State} {l : LaneId} {r : Running} (d : Demod) (hr : (s.lane l).exc.run = some r)
    (hp : r.phase = .integrate) :
    execSlotEnd l d s =
      .next
        (s.endSlot l r
          (sampleOf ((s.lane l).exc.slotDue r) ((s.lane l).exc.freq ((s.lane l).exc.current r)) ((s.lane l).exc.current r).integrate
            d)) := by
  obtain ⟨slot, phase, start, part⟩ := r
  cases hp
  simp [execSlotEnd, hr]

/-- A slot ends a slot time, its periods rounded up, after its start (R11). -/
theorem Excitation.slotDue_eq {e : Excitation} {r : Running} {k : Slot} {f : Nat} (hk : e.slots[r.slot]? = some k)
    (hf : e.freqs[k.freqIndex]? = some f) : e.slotDue r = r.start + periodsNs (k.settle + k.integrate) f + 2000 := by
  rw [Excitation.slotDue, Excitation.current_eq hk, Excitation.slotTime, Excitation.freq_eq hf, Config.switchNs, Nat.add_assoc]

/-- Before the last slot the next one begins with the sample in the partial cycle (R8). -/
theorem State.endSlot_next {s : State} {l : LaneId} {r : Running} (k : Sample) (h : r.slot + 1 < (s.lane l).exc.slots.length) :
    s.endSlot l r k =
      (s.reach ((s.lane l).exc.slotDue r)).upd l fun y =>
        y.beginSlot (r.slot + 1) ((s.lane l).exc.slotDue r) (r.partialCycle ++ [k]) := if_pos h

/-- After the last slot slot 0 begins and the cycle is delivered with the latched position (R9, R27). -/
theorem State.endSlot_last {s : State} {l : LaneId} {r : Running} (k : Sample) (h : (s.lane l).exc.slots.length ≤ r.slot + 1) :
    s.endSlot l r k =
      ((s.reach ((s.lane l).exc.slotDue r)).upd l fun y => y.beginSlot 0 ((s.lane l).exc.slotDue r) []).captureCycle l
        { samples := r.partialCycle ++ [k], position := (s.lane l).pos.raw } := if_neg (by omega)

/-- The calibration store after a cycle that line capture takes, and the lines that leave the window, are committed (R52). -/
theorem State.commitLines_capturedCycle_store {s : State} {l : LaneId} {x : Lane} {u : Tube} (h : x.ctl.tube = some u) (now : Nat)
    (w : CaptureResult) (out : List CapLine) (hs : s.lane l = x.capturedCycle now w) (hroom : x.store.length ≤ 2048) :
    ((out.foldl (State.commitLine l) s).lane l).store =
      if u.order.cal then
        (x.store ++ out.map fun c => ({ index := c.index, samples := c.samples } : StoredLine)).take 2048
      else x.store := by
  have hst : (s.lane l).store = x.store := by rw [hs]; rfl
  obtain ⟨v, hv, ho⟩ : ∃ v, (s.lane l).ctl.tube = some v ∧ v.order = u.order := by simp [hs, Lane.capturedCycle, h]
  rw [State.commitLines_store hv (hst ▸ hroom), hst, ho]

/-! ### A slot's end with line capture -/

/-- A state with one lane replaced, at another clock. -/
@[simp] theorem State.lane_setLane_clock (s : State) (l : LaneId) (x : Lane) (now : Nat) :
    ({ s.setLane l x with clock := now } : State).lane l = x := by cases l <;> rfl

theorem State.setLane_setLane_clock (s : State) (l : LaneId) (x y : Lane) (now : Nat) :
    ({ s.setLane l x with clock := now } : State).setLane l y = { s.setLane l y with clock := now } := by cases l <;> rfl

/-- Armed line capture with a scale and a pitch takes a cycle by the bin of its raw position (R22, R31, R36). -/
theorem State.captureCycle_at (s : State) (l : LaneId) {x : Lane} (now : Nat) {cycle : List Sample} {scale pitch : Nat}
    {w : CaptureResult} (harm : x.capture.armed = true) (hscale : x.pos.scale = some scale) (hpitch : x.motion.pitch = some pitch)
    (hw : w = captureBin x.capture.window cycle (Int.fdiv (x.pos.count * (scale : Int)) (pitch : Int))) :
    ({ s.setLane l x with clock := now } : State).captureCycle l { samples := cycle, position := x.pos.raw } =
      (w.window.take (w.window.length - 4)).foldl (State.commitLine l)
        { s.setLane l (x.capturedCycle now w) with clock := now } := by
  have hraw : x.pos.raw = some (x.pos.count * (scale : Int)) := by rw [Position.raw, hscale]; rfl
  have hbin : w = captureBin x.capture.window cycle (lineIndex (x.pos.count * (scale : Int)) x.pitch) := by
    rw [hw, lineIndex, Lane.pitch, hpitch, Option.getD_some]
  rw [State.captureCycle_takes (w := w) (by rwa [State.lane_setLane_clock]) hraw (by rwa [State.lane_setLane_clock]),
    State.lane_setLane_clock, State.setLane_setLane_clock]

/-- Settles O49: the slot's due time is the statement's, `State.endSlot` begins the next slot or delivers the cycle, and the frames of
`State.commitLine` give the counts and the store; `demodAverage_reads` gives the sample. -/
theorem slotsEndAndFollow : Obligations.SlotsEndAndFollow := by
  refine ⟨fun s l r d k f c due cycle exc hr hp hk hf hpos hlo hhi hdue hcycle => ?_, ?_⟩
  · have hslot : (s.lane l).exc.slotDue r = due := by
      rw [Excitation.slotDue_eq hk hf, ← eq_periodsNs hpos hlo hhi, hdue]
    have hexec : exec (.slotEnd l d) s = .next (s.endSlot l r (sampleOf due f k.integrate d)) := by
      rw [exec_slotEnd, execSlotEnd_eq d hr hp, hslot, Excitation.current_eq hk, Excitation.freq_eq hf]
    refine ⟨fun hnext => ?_, fun hlast hexc => ?_⟩
    · rw [hexec, State.endSlot_next _ hnext, hslot, ← hcycle, State.reach_upd]
      rfl
    · have hbegun : (s.lane l).beginSlot 0 due [] = { s.lane l with exc := exc } := by rw [hexc]; rfl
      rw [State.endSlot_last _ hlast, hslot, ← hcycle, State.reach_upd, hbegun] at hexec
      generalize hx : ({ s.lane l with exc := exc } : Lane) = x at hexec ⊢
      obtain ⟨rfl, hpos', hcap, hstore, hmotion, hctl⟩ : x.exc = exc ∧ x.pos = (s.lane l).pos ∧ x.capture = (s.lane l).capture ∧
          x.store = (s.lane l).store ∧ x.motion = (s.lane l).motion ∧ x.ctl = (s.lane l).ctl := by
        rw [← hx]; exact ⟨rfl, rfl, rfl, rfl, rfl, rfl⟩
      rw [← hpos'] at hexec
      rw [← hpos', ← hcap, ← hstore, ← hmotion, ← hctl]
      refine ⟨fun hoff => ?_, fun scale pitch w out harm hscale hpitch hw hout => ?_⟩
      · rw [hexec, State.captureCycle_discards]
        rw [State.lane_setLane_clock]
        exact hoff.imp_right fun h => by rw [Position.raw, h]; rfl
      · rw [State.captureCycle_at s l _ harm hscale hpitch hw, ← hout] at hexec
        generalize hs2 : ({ s.setLane l (x.capturedCycle (max s.clock due) w) with clock := max s.clock due } : State) = s2 at hexec
        have hlane : s2.lane l = x.capturedCycle (max s.clock due) w := by rw [← hs2, State.lane_setLane_clock]
        have hkeeps := State.commitLines_keeps l out s2
        refine ⟨out.foldl (State.commitLine l) s2, hexec, ?_, ?_, ?_, ?_, ?_, fun hroom u hu => ?_, fun u hu => ?_⟩
        · rw [← hs2, ← hx]; rfl
        · rw [hkeeps.clock, ← hs2]
        · rw [State.commitLines_exc, hlane]; rfl
        · rw [State.sameOther, hkeeps.other, ← hs2]; exact s.lane_setLane_other l _
        · rw [State.commitLines_capture, hlane]; rfl
        · exact State.commitLines_capturedCycle_store hu _ w out hlane hroom
        · exact State.commitLines_capturedCycle_tube hu _ w out hlane
  · rintro now f cycles top n d e K A B amplitude phase θ hd rfl hc hn ht hθ he
    have hangle : ∀ i, θ i = demodAngle f cycles d.output.length i := fun i => by rw [hθ, demodAngle]; ring
    simp only [hangle] at he
    obtain ⟨hx, hy⟩ := demodAverage_reads hd hc hn ht he
    exact ⟨demodAverage f cycles d, hx, hy, sampleOf_resolved now f hn⟩

end Sys2Proof.Machine

/-! The position counter and line capture (chapter 2): the bins of captured cycles, the invariants of windows, positions and table sizes,
encoder edges with the stops they reach, and the end of a control period. -/

namespace Sys2Proof.Machine

/-! ### Windows of consecutive lines (R30) -/

theorem consecutive_tail {a : CapLine} {w : List CapLine} (h : consecutive (a :: w) = true) : consecutive w = true := by
  cases w with
  | nil => rfl
  | cons b rest => exact (Bool.and_eq_true_iff.1 h).2

theorem consecutive_drop {w : List CapLine} (h : consecutive w = true) (n : Nat) : consecutive (w.drop n) = true := by
  induction n generalizing w with
  | zero => simpa using h
  | succ n ih =>
    cases w with
    | nil => rfl
    | cons a w => exact ih (consecutive_tail h)

/-- Consecutive lines are those whose indices count down from the highest. -/
theorem consecutive_iff_index {h : CapLine} {rest : List CapLine} :
    consecutive (h :: rest) = true ↔ ∀ (i : Nat) (c : CapLine), (h :: rest)[i]? = some c → c.index = h.index - (i : Int) := by
  induction rest generalizing h with
  | nil =>
    refine ⟨fun _ i c hc => ?_, fun _ => rfl⟩
    cases i with
    | zero => cases hc; simp
    | succ i => simp at hc
  | cons b rest ih =>
    have hstep : consecutive (h :: b :: rest) = true ↔ b.index = h.index - 1 ∧ consecutive (b :: rest) = true := by
      simp [consecutive]
    rw [hstep, ih]
    constructor
    · rintro ⟨hb, hrest⟩ i c hc
      cases i with
      | zero => cases hc; simp
      | succ i =>
        have := hrest i c hc
        omega
    · intro hall
      have hb : b.index = h.index - 1 := hall 1 b rfl
      refine ⟨hb, fun i c hc => ?_⟩
      have := hall (i + 1) c hc
      omega

/-- Indices that count down from a first value are those of consecutive lines. -/
theorem consecutive_of_index {w : List CapLine} {top : Int}
    (hw : ∀ (i : Nat) (c : CapLine), w[i]? = some c → c.index = top - (i : Int)) : consecutive w = true := by
  cases w with
  | nil => rfl
  | cons a w =>
    have hfirst := hw 0 a rfl
    refine consecutive_iff_index.2 fun i c hc => ?_
    have := hw i c hc
    omega

/-- The lowest line of a window of consecutive lines. -/
theorem consecutive_getLast? {h : CapLine} {rest : List CapLine} (hc : consecutive (h :: rest) = true) :
    ∃ f, (h :: rest).getLast? = some f ∧ f.index = h.index - (rest.length : Int) := by
  have hlast : (h :: rest).getLast? = (h :: rest)[rest.length]? := List.getLast?_eq_getElem?
  refine ⟨(h :: rest)[rest.length], by rw [hlast, List.getElem?_eq_getElem], ?_⟩
  exact consecutive_iff_index.1 hc _ _ (List.getElem?_eq_getElem _)

/-! ### The bin of a cycle (R32 to R35) -/

@[simp] theorem lineOf_index (samples : List Sample) (i : Int) (rep : Bool) : (lineOf samples i rep).index = i := rfl

@[simp] theorem length_repeatLines (samples : List Sample) (n : Nat) (top : Int) : (repeatLines samples n top).length = n := by
  induction n generalizing top with
  | zero => rfl
  | succ n ih => simp [repeatLines, ih]

theorem getElem?_repeatLines (samples : List Sample) {n i : Nat} (top : Int) (h : i < n) :
    (repeatLines samples n top)[i]? = some (lineOf samples (top - (i : Int)) true) := by
  induction n generalizing i top with
  | zero => exact absurd h (Nat.not_lt_zero i)
  | succ n ih =>
    cases i with
    | zero => simp [repeatLines]
    | succ i =>
      rw [repeatLines, List.getElem?_cons_succ, ih (top - 1) (by omega)]
      congr 2
      omega

/-- The lines that a cycle of bin `b` adds below a window whose lowest line is `low`: the skipped bins REPEAT, then its own (R33). -/
def addedLines (samples : List Sample) (low b : Int) : List CapLine :=
  repeatLines samples (low - 1 - b).toNat (low - 1) ++ [lineOf samples b false]

theorem length_addedLines (samples : List Sample) {low b : Int} (h : b < low) :
    (addedLines samples low b).length = (low - b).toNat := by
  simp only [addedLines, List.length_append, length_repeatLines, List.length_singleton]
  omega

theorem getElem?_addedLines (samples : List Sample) {low b : Int} {i : Nat} (h : i < (low - b).toNat) :
    (addedLines samples low b)[i]? =
      some (lineOf samples (low - 1 - (i : Int)) (decide (i + 1 < (low - b).toNat))) := by
  by_cases hskip : i < (low - 1 - b).toNat
  · rw [addedLines, List.getElem?_append_left (by simpa using hskip), getElem?_repeatLines samples _ hskip,
      decide_eq_true (by omega)]
  · have hown : i = (low - 1 - b).toNat := by omega
    rw [addedLines, List.getElem?_append_right (by simp; omega), decide_eq_false (by omega)]
    simp only [length_repeatLines, hown, Nat.sub_self, List.getElem?_cons_zero]
    congr 2
    omega

/-- What a cycle of bin `b` does to a window of consecutive lines from `h` down to `low` (R33 to R35). -/
theorem captureBin_cons {h : CapLine} {rest : List CapLine} {low : Int} (hc : consecutive (h :: rest) = true)
    (hlow : low = h.index - (rest.length : Int)) (samples : List Sample) (b : Int) :
    captureBin (h :: rest) samples b =
      if b < low then
        { window := (h :: rest) ++ addedLines samples low b, overspeed := decide (b < low - 1), ignored := false }
      else if b ≤ h.index then
        { window := (h :: rest).map fun k => if k.index = b then lineOf samples b false else k, overspeed := false, ignored := false }
      else { window := h :: rest, overspeed := false, ignored := true } := by
  obtain ⟨f, hf, hfi⟩ := consecutive_getLast? hc
  rw [← hlow] at hfi
  simp only [captureBin, hf, hfi, addedLines]

/-- The bin of a cycle stands once in a window of consecutive lines, at its distance from the highest (R34). -/
theorem map_replace_bin {h : CapLine} {rest : List CapLine} (hc : consecutive (h :: rest) = true) {b : Int} (hb : b ≤ h.index)
    (line : CapLine) :
    ((h :: rest).map fun k => if k.index = b then line else k) = (h :: rest).set (h.index - b).toNat line := by
  refine List.ext_getElem? fun i => ?_
  rw [List.getElem?_map, List.getElem?_set']
  cases hi : (h :: rest)[i]? with
  | none => split <;> rfl
  | some c =>
    have hindex := consecutive_iff_index.1 hc i c hi
    by_cases hat : (h.index - b).toNat = i
    · simp only [hat, if_true, Option.map_some, if_pos (show c.index = b by omega)]
      rfl
    · simp only [hat, if_false, Option.map_some, if_neg (show ¬ c.index = b by omega)]

/-- Settles O50: `captureBin_cons` gives the case of the bin; the lines added and the line replaced are read off by their places. -/
theorem cyclesAreCapturedByBin : Obligations.CyclesAreCapturedByBin := by
  refine fun samples b => ⟨rfl, fun h rest low hc hlow => ?_⟩
  have hbin := captureBin_cons hc hlow samples b
  refine ⟨fun hbelow => ?_, fun hge hle => ?_, fun habove => ?_⟩
  · rw [if_pos hbelow] at hbin
    rw [hbin]
    refine ⟨addedLines samples low b, rfl, length_addedLines samples hbelow, fun i hi => ?_, rfl, rfl⟩
    rw [length_addedLines samples hbelow] at hi ⊢
    exact getElem?_addedLines samples hi
  · rw [hbin, if_neg (by omega), if_pos hle, map_replace_bin hc hle]
  · rw [hbin, if_neg (by omega), if_neg (by omega)]

/-! ### The range of the count (R22) -/

/-- A count within the range of a scale has its raw position within 32 bits. -/
theorem fitsS32_of_range {k : Nat} {c : Int} (hlo : countMin k ≤ c) (hhi : c ≤ countMax k) : fitsS32 (c * (k : Int)) := by
  rcases Nat.eq_zero_or_pos k with rfl | hk
  · simp [fitsS32]
  · unfold countMin at hlo
    unfold countMax at hhi
    have hne : (k : Int) ≠ 0 := by omega
    have hneg := Int.ediv_mul_le 2147483648 hne
    have hpos := Int.ediv_mul_le 2147483647 hne
    have h1 := Int.mul_le_mul_of_nonneg_right hlo (Int.natCast_nonneg k)
    have h2 := Int.mul_le_mul_of_nonneg_right hhi (Int.natCast_nonneg k)
    rw [Int.neg_mul] at h1
    constructor <;> omega

/-- Under a scale, a count is held exactly where its raw position fits (R22). -/
theorem Position.holds_iff {p : Position} {k : Nat} (hs : p.scale = some k) (hk : 1 ≤ k) (c : Int) :
    p.holds c = true ↔ fitsS32 (c * (k : Int)) := by
  have hpos : (0 : Int) < (k : Int) := by omega
  simp only [Position.holds, hs, Bool.and_eq_true, decide_eq_true_eq]
  refine ⟨fun ⟨hlo, hhi⟩ => fitsS32_of_range hlo hhi, fun ⟨hlo, hhi⟩ => ⟨?_, Int.le_ediv_of_mul_le hpos hhi⟩⟩
  have hneg : -c ≤ 2147483648 / (k : Int) := Int.le_ediv_of_mul_le hpos (by rw [Int.neg_mul]; omega)
  unfold countMin
  omega

theorem Position.holds_of_unset {p : Position} (hs : p.scale = none) (c : Int) : p.holds c = true := by
  rw [Position.holds, hs]

/-- The range of a scale holds 0, so that clamping to it ends within it. -/
theorem clampCount_range (k : Nat) (c : Int) : countMin k ≤ clampCount k c ∧ clampCount k c ≤ countMax k := by
  have hmin : countMin k ≤ 0 := by
    have : (0 : Int) ≤ 2147483648 / (k : Int) := Int.ediv_nonneg (by decide) (Int.natCast_nonneg k)
    unfold countMin
    omega
  have hmax : 0 ≤ countMax k := Int.ediv_nonneg (by decide) (Int.natCast_nonneg k)
  unfold clampCount
  omega

/-! ### Captured and committed lines keep the window legal (R30, R36) -/

/-- The bin of a cycle leaves the window's lines consecutive (R32 to R35). -/
theorem captureBin_consecutive {w : List CapLine} (hw : consecutive w = true) (samples : List Sample) (b : Int) :
    consecutive (captureBin w samples b).window = true := by
  cases w with
  | nil => rfl
  | cons h rest =>
    have hindex := consecutive_iff_index.1 hw
    rw [captureBin_cons hw rfl]
    split
    · rename_i hbelow
      refine consecutive_of_index (top := h.index) fun i c hi => ?_
      by_cases hin : i < (h :: rest).length
      · exact hindex i c ((List.getElem?_append_left hin).symm.trans hi)
      · replace hi := (List.getElem?_append_right (by omega)).symm.trans hi
        have hlt := (List.getElem?_eq_some_iff.1 hi).1
        rw [length_addedLines samples hbelow] at hlt
        rw [getElem?_addedLines samples hlt] at hi
        cases hi
        rw [List.length_cons] at hin ⊢
        rw [lineOf_index]
        omega
    · split
      · refine consecutive_of_index (top := h.index) fun i c hi => ?_
        obtain ⟨k, hk, rfl⟩ := Option.map_eq_some_iff.1 ((List.getElem?_map ..).symm.trans hi)
        rw [← hindex i k hk]
        split
        · rename_i hkb
          rw [lineOf_index, hkb]
        · rfl
      · exact hw

/-! ### What keeps windows, positions and sizes legal

One pass over the operations of a step serves both invariants: `Lane.StaysLegal` holds from a lane to what the operation makes of it.
Most operations change nothing of the part of the lane that the invariants speak of, which is `Lane.bounded`. -/

/-- A lane with blanks for everything that the invariants of windows, positions and sizes do not speak of. -/
def Lane.bounded (x : Lane) : Lane :=
  { Lane.reset with
    exc := { x.exc with run := none }, pos := { Position.reset with count := x.pos.count, scale := x.pos.scale },
    capture := { armed := false, window := x.capture.window }, bases := x.bases, mixes := x.mixes, store := x.store,
    screens := x.screens, ring := x.ring }

/-- From `x` to `y` the window stays legal, the position in range, and tables and stores within their sizes. -/
structure Lane.StaysLegal (x y : Lane) : Prop where
  window : x.windowLegal → y.windowLegal
  position : x.positionFits → y.positionFits
  sized : x.sized → y.sized

namespace Lane.StaysLegal

theorem refl (x : Lane) : x.StaysLegal x := ⟨id, id, id⟩

theorem trans {x y z : Lane} (h : x.StaysLegal y) (k : y.StaysLegal z) : x.StaysLegal z :=
  ⟨k.window ∘ h.window, k.position ∘ h.position, k.sized ∘ h.sized⟩

/-- The three invariants read nothing but `Lane.bounded`. -/
theorem of_bounded {x y : Lane} (h : y.bounded = x.bounded) : x.StaysLegal y where
  window hx := show y.bounded.windowLegal from h ▸ hx
  position hx := show y.bounded.positionFits from h ▸ hx
  sized hx := show y.bounded.sized from h ▸ hx

/-- A change of the tables and stores. -/
theorem of_sized {x y : Lane} (hc : y.capture = x.capture) (hp : y.pos = x.pos) (h : x.sized → y.sized) : x.StaysLegal y where
  window hx := by rwa [Lane.windowLegal, hc]
  position hx := by rwa [Lane.positionFits, hp]
  sized := h

/-- A change of the count or the scale that brings the raw position into range. -/
theorem of_position {x : Lane} (p : Position) (h : x.positionFits → ({ x with pos := p } : Lane).positionFits) :
    x.StaysLegal { x with pos := p } := ⟨id, h, id⟩

/-- A change of line capture that leaves the window legal. -/
theorem of_window {x : Lane} (c : Capture) (h : x.windowLegal → ({ x with capture := c } : Lane).windowLegal) :
    x.StaysLegal { x with capture := c } := ⟨h, id, id⟩

end Lane.StaysLegal

/-- From `s` to `t` both lanes and the class table stay legal. -/
structure State.StaysLegal (s t : State) : Prop where
  lanes : ∀ l, (s.lane l).StaysLegal (t.lane l)
  layouts : s.layouts.length = 16 → t.layouts.length = 16

namespace State.StaysLegal

theorem refl (s : State) : s.StaysLegal s := ⟨fun _ => .refl _, id⟩

theorem trans {s t u : State} (h : s.StaysLegal t) (k : t.StaysLegal u) : s.StaysLegal u :=
  ⟨fun l => (h.lanes l).trans (k.lanes l), k.layouts ∘ h.layouts⟩

/-- Lanes and class table as they were. -/
theorem of_same {s t : State} (h : ∀ l, t.lane l = s.lane l) (hy : t.layouts = s.layouts) : s.StaysLegal t :=
  ⟨fun l => h l ▸ .refl _, fun hs => hy ▸ hs⟩

theorem of_reports {s t : State} (h : s.Reports t) : s.StaysLegal t := of_same h.lane h.layouts

/-- An operation that keeps to a lane. -/
theorem of_keeps {l : LaneId} {s t : State} (h : State.KeepsTo l s t) (hl : (s.lane l).StaysLegal (t.lane l)) : s.StaysLegal t := by
  refine ⟨fun k => ?_, fun hs => h.layouts ▸ hs⟩
  rcases eq_or_eq_otherLane l k with rfl | rfl
  · exact hl
  · exact h.other ▸ .refl _

theorem setLane (s : State) (l : LaneId) {x : Lane} (h : (s.lane l).StaysLegal x) : s.StaysLegal (s.setLane l x) :=
  of_keeps (.setLane l s x) (by rwa [State.lane_setLane])

theorem upd (s : State) (l : LaneId) {f : Lane → Lane} (h : (s.lane l).StaysLegal (f (s.lane l))) : s.StaysLegal (s.upd l f) :=
  setLane s l h

/-- A change of a lane outside what the invariants speak of. -/
theorem frame (s : State) (l : LaneId) {f : Lane → Lane} (h : (f (s.lane l)).bounded = (s.lane l).bounded) :
    s.StaysLegal (s.upd l f) := upd s l (.of_bounded h)

/-- A list of operations that each keep the lanes legal. -/
theorem foldl {α : Type} {f : State → α → State} (h : ∀ (s : State) a, s.StaysLegal (f s a)) (as : List α) (s : State) :
    s.StaysLegal (as.foldl f s) := by
  induction as generalizing s with
  | nil => exact .refl s
  | cons a as ih => exact (h s a).trans (ih (f s a))

end State.StaysLegal

/-! ### Jobs and screening -/

/-- A job that is appended changes nothing of the lane but its job queue. -/
theorem State.appendJob_lane (s : State) (l : LaneId) (j : Job) :
    ∃ jobs, (s.appendJob l j).lane l = { s.lane l with jobs := jobs } := by
  unfold State.appendJob
  dsimp only
  split
  · obtain ⟨_, h⟩ | ⟨j', rest, _, h⟩ := State.engineTake_cases (s.upd l fun x => { x with jobs := x.jobs ++ [j] }) l <;> rw [h]
    · exact ⟨_, s.lane_upd l _⟩
    · exact ⟨rest, by cases l <;> rfl⟩
  · exact ⟨_, s.lane_upd l _⟩

/-- A close hands its indication on as a job or as an entry of the tube's catalogue (R76, R106). -/
theorem State.closeSpan_lane (s : State) (l : LaneId) (ch : Nat) (span : List SpanEntry) (long truncated : Bool) :
    ∃ jobs tube, (s.closeSpan l ch span long truncated).lane l =
      { s.lane l with jobs := jobs, ctl := { (s.lane l).ctl with tube := tube } } := by
  unfold State.closeSpan State.handOn
  dsimp only
  split
  · split
    · obtain ⟨jobs, h⟩ := s.appendJob_lane l _
      exact ⟨jobs, _, h⟩
    · exact ⟨_, _, s.lane_upd l _⟩
  · exact ⟨_, _, rfl⟩

theorem State.appendJob_legal (s : State) (l : LaneId) (j : Job) : s.StaysLegal (s.appendJob l j) := by
  obtain ⟨jobs, h⟩ := s.appendJob_lane l j
  exact .of_keeps (s.appendJob_keeps l j) (h ▸ .of_bounded rfl)

theorem State.closeSpan_legal (s : State) (l : LaneId) (ch : Nat) (span : List SpanEntry) (long truncated : Bool) :
    s.StaysLegal (s.closeSpan l ch span long truncated) := by
  obtain ⟨jobs, tube, h⟩ := s.closeSpan_lane l ch span long truncated
  exact .of_keeps (s.closeSpan_keeps l ch span long truncated) (h ▸ .of_bounded rfl)

theorem State.engineTake_legal (s : State) (l : LaneId) : s.StaysLegal (s.engineTake l) := by
  refine .of_keeps (s.engineTake_keeps l) ?_
  obtain ⟨_, h⟩ | ⟨j, rest, _, h⟩ := s.engineTake_cases l <;> rw [h]
  · exact .refl _
  · cases l <;> exact .of_bounded rfl

/-- One channel's screen state is replaced. -/
theorem Lane.setScreen_legal (x : Lane) (ch : Nat) (k : Screen) : x.StaysLegal { x with screens := x.screens.set ch k } :=
  .of_sized rfl rfl fun ⟨hf, hs, hb, hm, hk, ht, hr⟩ => ⟨hf, hs, hb, hm, by rw [List.length_set]; exact hk, ht, hr⟩

theorem State.screenChannel_legal (line : ChanLine) (l : LaneId) (s : State) (ch : Nat) :
    s.StaysLegal (s.screenChannel line l ch) := by
  unfold State.screenChannel
  dsimp only
  split
  · split
    · exact .trans (.upd s l (Lane.setScreen_legal _ ch _)) (State.closeSpan_legal _ l _ _ _ _)
    · exact .upd s l (Lane.setScreen_legal _ ch _)
  · exact .refl s

theorem State.screenLine_legal (s : State) (l : LaneId) (line : ChanLine) : s.StaysLegal (s.screenLine l line).1 := by
  unfold State.screenLine
  dsimp only
  exact .trans (.foldl (State.screenChannel_legal line l) channelNumbers s) (.frame _ l rfl)

theorem State.screenEndChannel_legal (l : LaneId) (s : State) (ch : Nat) : s.StaysLegal (s.screenEndChannel l ch) := by
  have closed : ∀ k : Screen, s.StaysLegal (s.upd l fun y => { y with screens := y.screens.set ch k }) :=
    fun k => .upd s l (Lane.setScreen_legal _ ch k)
  unfold State.screenEndChannel
  dsimp only
  split
  · split
    · exact .refl s
    · exact closed _
    · exact ((closed _).trans (.frame _ l rfl)).trans (State.closeSpan_legal _ l _ _ _ _)
    · exact ((closed _).trans (.frame _ l rfl)).trans (State.closeSpan_legal _ l _ _ _ _)
  · exact .refl s

theorem State.screenEnd_legal (s : State) (l : LaneId) : s.StaysLegal (s.screenEnd l) :=
  .trans (.foldl (State.screenEndChannel_legal l) channelNumbers s) (.frame _ l rfl)

/-! ### The assemblers and the history ring (R165) -/

@[simp] theorem Lane.setBlock_bounded (x : Lane) (kind : BlockKind) (b : Option Block) : (x.setBlock kind b).bounded = x.bounded := by
  cases kind <;> rfl

theorem State.closeBlock_legal (s : State) (l : LaneId) (kind : BlockKind) : s.StaysLegal (s.closeBlock l kind) := by
  obtain ⟨_, h⟩ | ⟨b, _, h⟩ := s.closeBlock_cases l kind <;> rw [h]
  · exact .refl s
  · exact .trans (.frame s l (Lane.setBlock_bounded _ kind none)) (.of_reports (State.enqueue_reports _ _))

theorem State.openBlock_legal (s : State) (l : LaneId) (kind : BlockKind) (line : RingLine) :
    s.StaysLegal (s.openBlock l kind line) := by
  unfold State.openBlock
  split
  · exact .trans (.frame s l (Lane.setBlock_bounded _ kind _)) (.of_reports (State.takeBuffer_reports _))
  · exact .refl s

theorem State.appendLine_legal (s : State) (l : LaneId) (kind : BlockKind) (line : RingLine) :
    s.StaysLegal (s.appendLine l kind line) := by
  unfold State.appendLine
  split
  · exact .frame s l rfl
  · dsimp only
    split
    · exact .trans (.frame s l (Lane.setBlock_bounded _ kind _)) (State.closeBlock_legal _ l kind)
    · exact .frame s l (Lane.setBlock_bounded _ kind _)

theorem State.placeLine_legal (s : State) (l : LaneId) (kind : BlockKind) (line : RingLine) :
    s.StaysLegal (s.placeLine l kind line) := by
  have closed : s.StaysLegal (if (s.lane l).correctionMoved kind line then s.closeBlock l kind else s) := by
    split
    · exact s.closeBlock_legal l kind
    · exact .refl s
  have opened : ∀ t : State, t.StaysLegal (if ((t.lane l).block kind).isNone then t.openBlock l kind line else t) := fun t => by
    split
    · exact t.openBlock_legal l kind line
    · exact .refl t
  exact (closed.trans (opened _)).trans (State.appendLine_legal _ l kind line)

theorem State.lineAssembler_legal (s : State) (l : LaneId) (line : ChanLine) (m : RegionMarks) :
    s.StaysLegal (s.lineAssembler l line m) := by
  unfold State.lineAssembler
  dsimp only
  split
  · exact .refl s
  · exact s.placeLine_legal l _ _

/-- The oldest line gives way in a full ring (R165). -/
theorem length_pushRing {ring : List RingLine} (h : ring.length ≤ Config.ringMax) (line : RingLine) :
    (pushRing ring line).length ≤ Config.ringMax := by
  unfold pushRing
  unfold Config.ringMax at h ⊢
  split <;> simp <;> omega

theorem Lane.setRing_legal (x : Lane) {ring : List RingLine} (h : x.ring.length ≤ Config.ringMax → ring.length ≤ Config.ringMax) :
    x.StaysLegal { x with ring := ring } :=
  .of_sized rfl rfl fun ⟨hf, hs, hb, hm, hk, ht, hr⟩ => ⟨hf, hs, hb, hm, hk, ht, h hr⟩

theorem Lane.clearRing_legal (x : Lane) : x.StaysLegal { x with ring := [] } := x.setRing_legal fun _ => Nat.zero_le _

theorem State.regionAssembler_legal (s : State) (l : LaneId) (line : ChanLine) (m : RegionMarks) :
    s.StaysLegal (s.regionAssembler l line m) := by
  unfold State.regionAssembler
  dsimp only
  split
  · exact .refl s
  · split
    · exact .upd s l (Lane.setRing_legal _ fun h => length_pushRing h _)
    · have history : s.StaysLegal
          (if m.first then
            ((s.lane l).ring.map RingLine.asHistory).foldl (fun t h => t.placeLine l .region h)
              (s.upd l fun y => { y with ring := [] })
          else s) := by
        split
        · exact .trans (.upd s l (Lane.clearRing_legal _)) (.foldl (fun t h => t.placeLine_legal l .region h) _ _)
        · exact .refl s
      have placed := history.trans (State.placeLine_legal _ l .region ((s.lane l).assemblyLine .region line m))
      split
      · exact placed.trans (State.closeBlock_legal _ l .region)
      · exact placed

theorem State.assemblersEnd_legal (s : State) (l : LaneId) : s.StaysLegal (s.assemblersEnd l) :=
  ((s.closeBlock_legal l .full).trans (State.closeBlock_legal _ l .region)).trans (.upd _ l (Lane.clearRing_legal _))

theorem State.giveUpBlock_legal (s : State) (l : LaneId) (kind : BlockKind) : s.StaysLegal (s.giveUpBlock l kind) := by
  unfold State.giveUpBlock
  split
  · exact .trans (.frame s l (Lane.setBlock_bounded _ kind none)) (.of_reports (State.returnBuffer_reports _))
  · exact .refl s

/-! ### Line capture, the calibration store and the detector -/

@[simp] theorem Lane.takeCandidate_bounded (x : Lane) (c : Option Candidate) : (x.takeCandidate c).bounded = x.bounded := by
  cases c <;> rfl

@[simp] theorem Lane.landmarkLine_bounded (x : Lane) (line : ChanLine) : (x.landmarkLine line).bounded = x.bounded := by
  unfold Lane.landmarkLine
  dsimp only
  split
  · rw [Lane.takeCandidate_bounded]; rfl
  · rfl

@[simp] theorem Lane.missRest_bounded (x : Lane) : x.missRest.bounded = x.bounded := rfl

@[simp] theorem Lane.landmarkEnd_bounded (x : Lane) : x.landmarkEnd.bounded = x.bounded := by
  unfold Lane.landmarkEnd
  rw [Lane.missRest_bounded, Lane.takeCandidate_bounded]
  rfl

/-- The calibration store takes a line only while there is room (R52). -/
theorem Lane.storeLine_legal (x : Lane) (c : CapLine) : x.StaysLegal (x.storeLine c) := by
  unfold Lane.storeLine
  split
  · rename_i hroom
    refine .of_sized rfl rfl fun ⟨hf, hs, hb, hm, hk, _, hr⟩ => ⟨hf, hs, hb, hm, hk, ?_, hr⟩
    simp only [Bool.and_eq_true, decide_eq_true_eq] at hroom
    simpa using hroom.2
  · exact .refl x

theorem State.commitLine_legal (l : LaneId) (s : State) (c : CapLine) : s.StaysLegal (s.commitLine l c) := by
  have taken : s.StaysLegal (s.upd l fun x =>
      ((x.updTube fun t => t.countCommit s.clock c).storeLine c).landmarkLine ((s.lane l).chanLine c)) := by
    have counted : (s.lane l).StaysLegal ((s.lane l).updTube fun t => t.countCommit s.clock c) := .of_bounded rfl
    exact .upd s l ((counted.trans (Lane.storeLine_legal _ c)).trans (.of_bounded (Lane.landmarkLine_bounded _ _)))
  unfold State.commitLine
  exact ((taken.trans (State.screenLine_legal _ l _)).trans (State.lineAssembler_legal _ l _ _)).trans
    (State.regionAssembler_legal _ l _ _)

/-- Of the window after a cycle the lines beyond four leave (R36). -/
theorem Lane.capture_legal (x : Lane) (armed : Bool) (samples : List Sample) (b : Int) :
    x.StaysLegal
      { x with capture :=
        { armed := armed,
          window := (captureBin x.capture.window samples b).window.drop (excess (captureBin x.capture.window samples b).window) } } := by
  refine .of_window _ fun hx => ⟨?_, consecutive_drop (captureBin_consecutive hx.2 samples b) _⟩
  rw [List.length_drop, excess]
  omega

theorem Lane.clearWindow_legal (x : Lane) (armed : Bool) : x.StaysLegal { x with capture := { armed := armed, window := [] } } :=
  .of_window _ fun _ => ⟨Nat.zero_le _, rfl⟩

theorem State.captureCycle_legal (s : State) (l : LaneId) (c : Cycle) : s.StaysLegal (s.captureCycle l c) := by
  unfold State.captureCycle
  dsimp only
  split
  · exact .trans (.upd s l ((Lane.capture_legal _ _ _ _).trans (.of_bounded rfl))) (.foldl (State.commitLine_legal l) _ _)
  · exact .refl s

theorem State.flush_legal (s : State) (l : LaneId) : s.StaysLegal (s.flush l) := by
  unfold State.flush
  dsimp only
  exact .trans (.upd s l (Lane.clearWindow_legal _ _))
    (.trans (.foldl (State.commitLine_legal l) _ _) (.upd _ l (Lane.clearWindow_legal _ _)))

/-! ### The count (R20, R22, R23) -/

theorem Position.raw_of_scale {p : Position} {k : Nat} (h : p.scale = some k) : p.raw = some (p.count * (k : Int)) := by
  rw [Position.raw, h]
  rfl

theorem Position.raw_of_unset {p : Position} (h : p.scale = none) : p.raw = none := by
  rw [Position.raw, h]
  rfl

theorem Lane.positionFits_of_scale {x : Lane} {k : Nat} (hs : x.pos.scale = some k) (h : fitsS32 (x.pos.count * (k : Int))) :
    x.positionFits := by
  intro r hr
  rw [Position.raw_of_scale hs] at hr
  cases hr
  exact h

theorem Lane.positionFits_of_unset {x : Lane} (hs : x.pos.scale = none) : x.positionFits := by
  intro r hr
  rw [Position.raw_of_unset hs] at hr
  cases hr

/-- A count that the counter holds is in range (R22). -/
theorem Lane.setCount_legal (x : Lane) {count : Int} (h : x.pos.holds count = true) :
    x.StaysLegal { x with pos := { x.pos with count := count } } := by
  refine .of_position _ fun _ => ?_
  cases hs : x.pos.scale with
  | none => exact Lane.positionFits_of_unset hs
  | some k =>
    rw [Position.holds, hs, Bool.and_eq_true, decide_eq_true_eq, decide_eq_true_eq] at h
    exact Lane.positionFits_of_scale hs (fitsS32_of_range h.1 h.2)

/-- The count zeroed as the guide check passes is in range (R23). -/
theorem Lane.passGuide_legal (x : Lane) : x.StaysLegal x.passGuide := by
  have zeroed : x.StaysLegal { x with pos := { x.pos with count := 0, refPos := 0, armedA := true } } := by
    refine .of_position _ fun _ => ?_
    cases hs : x.pos.scale with
    | none => exact Lane.positionFits_of_unset hs
    | some k => exact Lane.positionFits_of_scale hs (by rw [Int.zero_mul]; decide)
  exact zeroed.trans (.of_bounded rfl)

/-- A new scale clamps the count into its range (R22, R134). -/
theorem Lane.setMotion_legal (x : Lane) (scale : Nat) (m : Motion) : x.StaysLegal (x.setMotion scale m) := by
  have scaled : x.StaysLegal { x with pos := x.pos.setScale scale } := by
    refine .of_position _ fun hx => ?_
    by_cases hsame : x.pos.scale = some scale
    · have heq : x.pos.setScale scale = x.pos := if_pos hsame
      rw [heq]
      exact hx
    · have heq : x.pos.setScale scale = { x.pos with
          scale := some scale, count := clampCount scale x.pos.count,
          refPos := clampCount scale x.pos.count * (scale : Int) } := if_neg hsame
      obtain ⟨hlo, hhi⟩ := clampCount_range scale x.pos.count
      rw [heq]
      exact Lane.positionFits_of_scale rfl (fitsS32_of_range hlo hhi)
  exact scaled.trans (.of_bounded rfl)

/-! ### The lane controller -/

theorem Lane.testStart_bounded (x : Lane) (p : MotionPhase) : (x.testStart p).1.bounded = x.bounded := by
  unfold Lane.testStart
  split <;> rfl

theorem Lane.motionStart_bounded (x : Lane) (p : MotionPhase) : (x.motionStart p).1.bounded = x.bounded := by
  unfold Lane.motionStart
  split
  · rfl
  · split
    · rfl
    · exact Lane.testStart_bounded _ p

theorem Lane.retarget_bounded (x : Lane) : x.retarget.1.bounded = x.bounded := by
  unfold Lane.retarget
  split
  · exact Lane.testStart_bounded _ _
  · exact x.motionStart_bounded _

theorem Lane.updateRearm_bounded (x : Lane) : x.updateRearm.bounded = x.bounded := by
  unfold Lane.updateRearm
  split
  · split <;> rfl
  · rfl

theorem Lane.updTube_bounded (x : Lane) (f : Tube → Tube) : (x.updTube f).bounded = x.bounded := rfl

theorem State.emit_legal (s : State) (l : LaneId) (kind : NoticeKind) (cause : Option FaultCause) :
    s.StaysLegal (s.emit l kind cause) := .of_reports (s.emit_reports l kind cause)

theorem State.finishWait_legal (s : State) (l : LaneId) : s.StaysLegal (s.finishWait l) := by
  unfold State.finishWait
  dsimp only
  split
  · split
    · exact .refl s
    · exact .frame s l rfl
  · exact .refl s

theorem State.enterFinish_legal (s : State) (l : LaneId) : s.StaysLegal (s.enterFinish l) :=
  .trans (.frame s l rfl) (State.finishWait_legal _ l)

theorem State.enterFaulted_legal (s : State) (l : LaneId) (cause : FaultCause) : s.StaysLegal (s.enterFaulted l cause) :=
  .trans (.frame s l rfl) (State.emit_legal _ l _ _)

theorem State.withdrawResult_legal (s : State) (l : LaneId) (r : StartResult) : s.StaysLegal (s.withdrawResult l r) := by
  cases r
  case started => exact .refl s
  case homeArrival => exact s.enterFinish_legal l
  all_goals exact .trans (.frame s l rfl) (State.enterFinish_legal _ l)

theorem State.startWithdraw_legal (s : State) (l : LaneId) : s.StaysLegal (s.startWithdraw l) :=
  .trans (.setLane s l (.of_bounded (Lane.motionStart_bounded (s.lane l).toWithdraw _))) (State.withdrawResult_legal _ l _)

theorem State.retargetWithdraw_legal (s : State) (l : LaneId) : s.StaysLegal (s.retargetWithdraw l) :=
  .trans (.setLane s l (.of_bounded (Lane.retarget_bounded (s.lane l).toWithdraw))) (State.withdrawResult_legal _ l _)

theorem State.pullEnding_legal (s : State) (l : LaneId) : s.StaysLegal (s.pullEnding l) :=
  (((s.flush_legal l).trans (.setLane _ l (.of_bounded (Lane.landmarkEnd_bounded _)))).trans (State.screenEnd_legal _ l)).trans
    (State.assemblersEnd_legal _ l)

theorem State.endPull_legal (s : State) (l : LaneId) (o : TubeOutcome) : s.StaysLegal (s.endPull l o) := by
  rw [State.endPull_eq]
  exact ((s.pullEnding_legal l).trans (State.emit_legal _ l _ _)).trans (.frame _ l rfl)

theorem State.testStopB_legal (s : State) (l : LaneId) : s.StaysLegal (s.testStopB l) := by
  unfold State.testStopB
  dsimp only
  split
  · split
    · exact .trans (.frame s l rfl) ((State.endPull_legal _ l _).trans (State.retargetWithdraw_legal _ l))
    · exact .refl s
  · exact .refl s

theorem State.motorFaultEvent_legal (s : State) (l : LaneId) : s.StaysLegal (s.motorFaultEvent l) := by
  unfold State.motorFaultEvent
  dsimp only
  split
  · exact .trans (.frame s l rfl) (State.enterFinish_legal _ l)
  · exact .trans (.frame s l rfl) (State.enterFinish_legal _ l)
  · exact .trans (.frame s l rfl) (State.enterFinish_legal _ l)
  · exact ((s.endPull_legal l _).trans (.frame _ l rfl)).trans (State.enterFinish_legal _ l)
  · exact .trans (.frame s l rfl) (State.enterFinish_legal _ l)
  · exact s.enterFaulted_legal l _
  all_goals exact .refl s

theorem State.stallEvent_legal (s : State) (l : LaneId) (position : Int) : s.StaysLegal (s.stallEvent l position) := by
  unfold State.stallEvent
  split
  · exact .trans (.frame s l rfl) (State.startWithdraw_legal _ l)
  · exact ((s.endPull_legal l _).trans (.frame _ l rfl)).trans (State.enterFinish_legal _ l)
  · exact .trans (.frame s l rfl) (State.enterFinish_legal _ l)
  · exact s.enterFaulted_legal l _
  all_goals exact .refl s

/-- The lane as it enters PULL, before its motion start: stop B and line capture armed (R145). -/
def Lane.toPull (x : Lane) : Lane :=
  (({ x with pos := { x.pos with armedB := true }, capture := { armed := true, window := [] } } : Lane).enter .pull).updCtl
    Control.timersOff

theorem Lane.toPull_legal (x : Lane) : x.StaysLegal x.toPull := (x.clearWindow_legal true).trans (.of_bounded rfl)

theorem State.enterPull_legal (s : State) (l : LaneId) : s.StaysLegal (s.enterPull l) := by
  have started : s.StaysLegal ((s.setLane l ((s.lane l).toPull.motionStart .pull).1).emit l .pullStarted none) :=
    .trans (.setLane s l ((s.lane l).toPull_legal.trans (.of_bounded (Lane.motionStart_bounded _ _)))) (State.emit_legal _ l _ _)
  unfold State.enterPull
  dsimp only
  split
  · exact started.trans (State.motorFaultEvent_legal _ l)
  · exact started.trans (State.testStopB_legal _ l)
  all_goals exact started

/-- The per-pull reset empties ring and store, and every channel has its screen state again (R145). -/
theorem Lane.startPull_legal (x : Lane) (layout : Option Layout) : x.StaysLegal (x.startPull layout) := by
  refine .of_sized rfl rfl fun ⟨hf, hs, hb, hm, _, ht, _⟩ => ⟨hf, hs, hb, hm, List.length_replicate, ?_, Nat.zero_le _⟩
  show (if x.calTube then [] else x.store).length ≤ Config.storeMax
  split
  · exact Nat.zero_le _
  · exact ht

/-- The lane in TURN: stopped, its per-pull state reset and the dwell running from `now` (R145). -/
def Lane.turned (x : Lane) (layout : Option Layout) (now : Nat) : Lane :=
  (((x.stopDrive.disarmStops).enter .turn).startPull layout).updCtl fun c =>
    { c with dwell := .running (now + x.motion.turnDwell * Config.nsPerMs) }

theorem Lane.turned_legal (x : Lane) (layout : Option Layout) (now : Nat) : x.StaysLegal (x.turned layout now) := by
  have stopped : x.StaysLegal ((x.stopDrive.disarmStops).enter .turn) := .of_bounded rfl
  exact (stopped.trans (Lane.startPull_legal _ layout)).trans (.of_bounded rfl)

/-- The entry to TURN; a dwell of 0 runs out with it (R145). -/
theorem State.enterTurn_eq (s : State) (l : LaneId) :
    s.enterTurn l =
      if (s.lane l).motion.turnDwell = 0 then (s.upd l fun x => x.turned (s.tubeLayout l) s.clock).enterPull l
      else s.upd l fun x => x.turned (s.tubeLayout l) s.clock := rfl

theorem State.enterTurn_legal (s : State) (l : LaneId) : s.StaysLegal (s.enterTurn l) := by
  have turned : s.StaysLegal (s.upd l fun x => x.turned (s.tubeLayout l) s.clock) := .upd s l (Lane.turned_legal _ _ _)
  rw [State.enterTurn_eq]
  split
  · exact turned.trans (State.enterPull_legal _ l)
  · exact turned

theorem State.testStopA_legal (s : State) (l : LaneId) : s.StaysLegal (s.testStopA l) := by
  unfold State.testStopA
  dsimp only
  split
  · split
    · exact s.enterTurn_legal l
    · exact .refl s
  · exact .refl s

theorem State.testStops_legal (s : State) (l : LaneId) : s.StaysLegal (s.testStops l) :=
  (s.testStopA_legal l).trans (State.testStopB_legal _ l)

theorem State.guideTest_legal (s : State) (l : LaneId) : s.StaysLegal (s.guideTest l) := by
  have counted : (s.lane l).StaysLegal ((s.lane l).updCtl fun c => { c with attempts := c.attempts + 1 }) := .of_bounded rfl
  have started := StaysLegal.setLane s l
    ((counted.trans (Lane.passGuide_legal _)).trans (.of_bounded (Lane.motionStart_bounded _ .insert)))
  unfold State.guideTest
  dsimp only
  split
  · split
    · exact started.trans (State.motorFaultEvent_legal _ l)
    · exact started.trans (State.testStopA_legal _ l)
    all_goals exact started
  · split
    · exact (State.StaysLegal.setLane s l (counted.trans (.of_bounded (Lane.updTube_bounded _ _)))).trans
        (State.enterFinish_legal _ l)
    · exact .setLane s l counted

theorem State.openTube_legal (s : State) (l : LaneId) (o : Order) (rest : List Order) : s.StaysLegal (s.openTube l o rest) := by
  unfold State.openTube
  dsimp only
  split
  · exact .trans (.frame s l rfl) ((State.emit_legal _ l _ _).trans (.trans (.frame _ l rfl) (State.guideTest_legal _ l)))
  · exact .trans (.frame s l rfl) ((State.emit_legal _ l _ _).trans (.trans (.frame _ l rfl) (State.enterFinish_legal _ l)))

theorem State.takeFrontOrder_legal (s : State) (l : LaneId) : s.StaysLegal (s.takeFrontOrder l) := by
  unfold State.takeFrontOrder
  split
  · exact s.openTube_legal l _ _
  · exact .refl s

theorem State.homeArrivalEvent_legal (s : State) (l : LaneId) : s.StaysLegal (s.homeArrivalEvent l) := by
  unfold State.homeArrivalEvent
  split
  · exact s.enterFinish_legal l
  · exact .frame s l rfl
  all_goals exact .refl s

theorem State.inputChange_legal (s : State) (l : LaneId) (i : InputId) : s.StaysLegal (s.inputChange l i) := by
  have changed : s.StaysLegal (s.upd l fun y =>
      { y with drive := y.drive.setInput i { (s.lane l).drive.input i with active := ((s.lane l).drive.input i).raw } }) :=
    .frame s l rfl
  unfold State.inputChange
  dsimp only
  split
  · split
    · exact changed
    · exact changed.trans (.frame _ l rfl)
  · split
    · exact (changed.trans (.frame _ l rfl)).trans (State.homeArrivalEvent_legal _ l)
    · exact changed
  · split
    · exact (changed.trans (.frame _ l rfl)).trans (State.motorFaultEvent_legal _ l)
    · exact changed

theorem State.settleInput_legal (l : LaneId) (s : State) (i : InputId) : s.StaysLegal (s.settleInput l i) := by
  unfold State.settleInput
  dsimp only
  split
  · exact s.inputChange_legal l i
  · exact .refl s

theorem State.enterHeld_legal (s : State) (l : LaneId) : s.StaysLegal (s.enterHeld l) :=
  .trans (.frame s l rfl) (State.emit_legal _ l _ _)

theorem State.holdIf_legal (s : State) (l : LaneId) : s.StaysLegal (s.holdIf l) := by
  unfold State.holdIf
  split
  · exact s.enterHeld_legal l
  · exact .refl s

theorem State.holdIfLost_legal (s : State) (l : LaneId) : s.StaysLegal (s.holdIfLost l) := by
  unfold State.holdIfLost
  split
  · exact .refl s
  · exact s.holdIf_legal l

theorem State.resumeMotion_legal (s : State) (l : LaneId) (p : MotionPhase) : s.StaysLegal (s.resumeMotion l p) := by
  have started := StaysLegal.setLane s l (.of_bounded (Lane.motionStart_bounded (s.lane l) p))
  unfold State.resumeMotion
  dsimp only
  split
  · exact started.trans (State.testStops_legal _ l)
  · exact started.trans (State.motorFaultEvent_legal _ l)
  · exact started.trans (State.homeArrivalEvent_legal _ l)
  · exact started.trans (State.withdrawResult_legal _ l _)

theorem State.resumeLane_legal (s : State) (l : LaneId) : s.StaysLegal (s.resumeLane l) := by
  unfold State.resumeLane
  split
  · exact .refl s
  · rename_i st _
    have start : s.StaysLegal ((s.upd l fun x => x.unhold st s.clock).emit l .resumed none) :=
      .trans (.frame s l rfl) (State.emit_legal _ l _ _)
    dsimp only
    split
    · exact start.trans (State.resumeMotion_legal _ l _)
    · exact start.trans (State.resumeMotion_legal _ l _)
    · exact start.trans (State.resumeMotion_legal _ l _)
    · split
      · exact start.trans (.frame _ l rfl)
      · exact start.trans (State.resumeMotion_legal _ l _)
    all_goals exact start

theorem State.abortLane_legal (s t : State) (l : LaneId) (h : s.abortLane l = some t) : s.StaysLegal t := by
  unfold State.abortLane at h
  dsimp only at h
  split at h <;> cases h
  · exact .trans (.frame s l rfl) (State.enterFinish_legal _ l)
  · exact .trans (.frame s l rfl) (State.startWithdraw_legal _ l)
  · exact .trans (.frame s l rfl) (State.startWithdraw_legal _ l)
  · exact (s.endPull_legal l _).trans (State.retargetWithdraw_legal _ l)
  all_goals exact .refl _

theorem State.startRetract_legal (s : State) (l : LaneId) : s.StaysLegal (s.startRetract l) := by
  have entered : (s.lane l).StaysLegal
      (((s.lane l).enter .retract).updCtl fun c => { c with returnTo := some (s.lane l).ctl.state }) := .of_bounded rfl
  have started := StaysLegal.setLane s l (entered.trans (.of_bounded (Lane.motionStart_bounded _ .retract)))
  unfold State.startRetract
  dsimp only
  split
  · exact started.trans (State.motorFaultEvent_legal _ l)
  all_goals exact started

/-- LANE_RESET disarms line capture, and resets the screens and the ring (R155). -/
theorem Lane.resetLane_legal (x : Lane) : x.StaysLegal x.resetLane := by
  have reset : x.updateRearm.StaysLegal x.resetLane :=
    ⟨fun _ => ⟨Nat.zero_le _, rfl⟩, id, fun ⟨hf, hs, hb, hm, _, ht, _⟩ =>
      ⟨hf, hs, hb, hm, List.length_replicate, ht, Nat.zero_le _⟩⟩
  exact .trans (.of_bounded x.updateRearm_bounded) reset

theorem State.resetLane_legal (s : State) (l : LaneId) : s.StaysLegal (s.resetLane l) := by
  have reset : s.StaysLegal { s.upd l Lane.resetLane with engine := (s.upd l Lane.resetLane).engine.discard l } :=
    .trans (.upd s l (Lane.resetLane_legal _)) (.of_same (fun k => by cases k <;> rfl) rfl)
  exact ((reset.trans (State.giveUpBlock_legal _ l .full)).trans (State.giveUpBlock_legal _ l .region)).trans
    (State.emit_legal _ l _ _)

/-- Lanes and class table untouched. -/
theorem State.StaysLegal.of_fields {s t : State} (ha : t.laneA = s.laneA) (hb : t.laneB = s.laneB) (hy : t.layouts = s.layouts) :
    s.StaysLegal t := .of_same (State.lane_congr ha hb) hy

theorem State.StaysLegal.setLink (s : State) (k : Link) : s.StaysLegal { s with link := k } := .of_fields rfl rfl rfl

theorem State.StaysLegal.setPool (s : State) (p : Pool) : s.StaysLegal { s with pool := p } := .of_fields rfl rfl rfl

theorem State.reach_legal (s : State) (due : Nat) : s.StaysLegal (s.reach due) := .of_fields rfl rfl rfl

/-! ### The measurement engine's results -/

theorem Lane.setBases_legal (x : Lane) (ch : Nat) (b : BaseChannel) : x.StaysLegal { x with bases := x.bases.set ch b } :=
  .of_sized rfl rfl fun ⟨hf, hs, hb, hm, hk, ht, hr⟩ => ⟨hf, hs, by rw [List.length_set]; exact hb, hm, hk, ht, hr⟩

theorem Lane.setMixes_legal (x : Lane) (ch : Nat) (m : MixChannel) : x.StaysLegal { x with mixes := x.mixes.set ch m } :=
  .of_sized rfl rfl fun ⟨hf, hs, hb, hm, hk, ht, hr⟩ => ⟨hf, hs, hb, by rw [List.length_set]; exact hm, hk, ht, hr⟩

theorem State.answerFlight_legal (s : State) (code : ReplyCode) (body : ReplyBody) : s.StaysLegal (s.answerFlight code body) := by
  unfold State.answerFlight
  split
  · exact .trans (.setLink s _) (.of_reports (State.placeReply_reports _ _))
  · exact .refl s

theorem State.deliver_legal (s : State) (l : LaneId) (j : Job) : s.StaysLegal (s.deliver l j) := by
  cases j with
  | measure tag ind =>
    unfold State.deliver
    exact .frame s l rfl
  | span ch amplitude phase values =>
    unfold State.deliver State.deliverSpan
    dsimp only
    split
    · exact .trans (.upd s l (Lane.setBases_legal _ ch _)) (State.answerFlight_legal _ _ _)
    · exact s.answerFlight_legal _ _
  | solve ch ps qs =>
    unfold State.deliver State.deliverSolve
    dsimp only
    split
    · exact .trans (.upd s l (Lane.setMixes_legal _ (ch - 16) _)) (State.answerFlight_legal _ _ _)
    · exact s.answerFlight_legal _ _

theorem State.engineChoose_legal (s : State) : s.StaysLegal s.engineChoose := by
  have freed : s.StaysLegal { s with engine := { s.engine with busy := none } } := .of_fields rfl rfl rfl
  unfold State.engineChoose
  dsimp only
  split
  · exact freed
  all_goals exact freed.trans (State.engineTake_legal _ _)

theorem execJobCompletion_legal {s t : State} (h : execJobCompletion s = .next t) : s.StaysLegal t := by
  cases h
  split
  · exact .refl s
  · rename_i e _
    have delivered : s.StaysLegal (if e.discarded then s.reach e.doneAt else (s.reach e.doneAt).deliver e.lane e.job) := by
      split
      · exact s.reach_legal _
      · exact (s.reach_legal _).trans (State.deliver_legal _ _ _)
    exact (delivered.trans (State.engineChoose_legal _)).trans (State.finishWait_legal _ _)

/-! ### The station line -/

theorem State.badFrame_legal (s : State) : s.StaysLegal s.badFrame := .of_fields rfl rfl rfl

theorem State.signOfLife_legal (s : State) : s.StaysLegal s.signOfLife := by
  unfold State.signOfLife
  dsimp only
  split
  · exact .of_fields rfl rfl rfl
  · exact .trans (.setLink s _) (.trans (.of_reports (State.formNotice_reports _ _)) (.of_reports (State.kick_reports _)))

theorem State.goodFrame_legal (s : State) (payload : List Byte) : s.StaysLegal (s.goodFrame payload) :=
  s.signOfLife_legal.trans (.of_fields rfl rfl rfl)

theorem State.frameByte_legal (s : State) (got : List Byte) : s.StaysLegal (s.frameByte got) := by
  unfold State.frameByte State.judge
  split
  · exact s.badFrame_legal
  · split
    · split
      · exact .trans (.setLink s _) (State.goodFrame_legal _ _)
      · exact s.badFrame_legal
    · exact .of_fields rfl rfl rfl

theorem State.rxByte_legal (s : State) (b : Byte) : s.StaysLegal (s.rxByte b) := by
  unfold State.rxByte
  split
  · split <;> exact .of_fields rfl rfl rfl
  · exact s.frameByte_legal _

theorem State.receive_legal (s : State) (bytes : List Byte) : s.StaysLegal (s.receive bytes) :=
  .trans (.foldl State.rxByte_legal bytes s) (.of_fields rfl rfl rfl)

theorem execFrameTimeout_legal {s t : State} (h : execFrameTimeout s = .next t) : s.StaysLegal t := by
  cases h
  split
  · exact (s.reach_legal _).trans (State.badFrame_legal _)
  · exact .refl s

theorem execSilenceTimeout_legal {s t : State} (h : execSilenceTimeout s = .next t) : s.StaysLegal t := by
  cases h
  split
  · exact (((s.reach_legal _).trans (.setLink _ _)).trans (State.holdIf_legal _ .a)).trans (State.holdIf_legal _ .b)
  · exact .refl s

theorem execTransmissionEnd_legal {s t : State} (h : execTransmissionEnd s = .next t) : s.StaysLegal t := by
  cases h
  split
  · exact .refl s
  · exact (s.reach_legal _).trans (.of_reports (State.choose_reports _))
  · exact (s.reach_legal _).trans (.trans (.setPool _ _)
      (.trans (.of_reports (State.returnBuffer_reports _)) (.of_reports (State.choose_reports _))))

/-! ### Inputs, encoder and control period -/

/-- The count moves to a value that the counter holds. -/
theorem State.moveCount_legal (s : State) (l : LaneId) {count : Int} (h : (s.lane l).pos.holds count = true) :
    s.StaysLegal (s.moveCount l count) := by
  have limit : ∀ t : State, t.StaysLegal (t.testHomeLimit l) := fun t => by
    unfold State.testHomeLimit
    dsimp only
    split
    · exact .trans (.frame t l rfl) (State.withdrawResult_legal _ l _)
    · exact .refl t
  exact (StaysLegal.upd s l (Lane.setCount_legal _ h)).trans ((State.testStops_legal _ l).trans (limit _))

theorem execEdge_legal {s t : State} {l : LaneId} {phase : EncPhase} (h : execEdge l phase s = .next t) : s.StaysLegal t := by
  have accepted : s.StaysLegal (s.upd l fun x => x.accept phase) := .frame s l rfl
  cases h
  split
  · exact accepted.trans (.frame _ l rfl)
  · split
    · rename_i hd
      refine accepted.trans (State.moveCount_legal _ l ?_)
      rw [State.lane_upd]
      exact hd.2
    · exact accepted

theorem Lane.periodMeasure_bounded (x : Lane) : x.periodMeasure.bounded = x.bounded := by
  unfold Lane.periodMeasure Position.measure
  split <;> rfl

theorem Lane.pullSpeeds_bounded (x : Lane) : x.pullSpeeds.bounded = x.bounded := by
  unfold Lane.pullSpeeds
  dsimp only
  split <;> rfl

theorem Lane.drivePeriod_bounded (x : Lane) (tight : Bool) : (x.drivePeriod tight).bounded = x.bounded := by
  unfold Lane.drivePeriod
  split <;> rfl

theorem execControlPeriodEnd_legal {s t : State} {l : LaneId} (h : execControlPeriodEnd l s = .next t) : s.StaysLegal t := by
  cases h
  refine (s.reach_legal _).trans (.frame _ l ?_)
  rw [Lane.drivePeriod_bounded, Lane.pullSpeeds_bounded, Lane.periodMeasure_bounded]

theorem execStall_legal {s t : State} {l : LaneId} (h : execStall l s = .next t) : s.StaysLegal t := by
  cases h
  split
  · exact .trans (.frame s l rfl) (State.stallEvent_legal _ l _)
  · exact .refl s

theorem execDebouncedStateChange_legal {s t : State} {l : LaneId} {i : InputId} (h : execDebouncedStateChange l i s = .next t) :
    s.StaysLegal t := by
  cases h
  split
  · exact .refl s
  · exact (s.reach_legal _).trans (State.inputChange_legal _ l i)

/-! ### Power and scan -/

/-- A lane after power-on is legal whatever it was. -/
theorem Lane.powerOn_legal (x : Lane) : x.StaysLegal x.powerOn where
  window _ := ⟨Nat.zero_le _, rfl⟩
  position _ := Lane.positionFits_of_unset rfl
  sized _ := ⟨Nat.zero_le _, Nat.zero_le _, List.length_replicate, List.length_replicate, List.length_replicate, Nat.zero_le _,
    Nat.zero_le _⟩

theorem State.poweredOn_legal (s : State) : s.StaysLegal s.poweredOn :=
  ⟨fun l => by rw [State.poweredOn_lane]; exact Lane.powerOn_legal _, fun _ => List.length_replicate⟩

theorem execSwitchEnd_legal {s t : State} {l : LaneId} (h : execSwitchEnd l s = .next t) : s.StaysLegal t := by
  cases h
  split
  · exact (s.reach_legal _).trans (.frame _ l rfl)
  · exact .refl s

theorem execSettleEnd_legal {s t : State} {l : LaneId} (h : execSettleEnd l s = .next t) : s.StaysLegal t := by
  cases h
  split
  · exact (s.reach_legal _).trans (.frame _ l rfl)
  · exact .refl s

theorem State.endSlot_legal (s : State) (l : LaneId) (r : Running) (k : Sample) : s.StaysLegal (s.endSlot l r k) := by
  unfold State.endSlot
  dsimp only
  split
  · exact (s.reach_legal _).trans (.frame _ l rfl)
  · exact ((s.reach_legal _).trans (.frame _ l rfl)).trans (State.captureCycle_legal _ l _)

theorem execSlotEnd_legal {s t : State} {l : LaneId} {d : Demod} (h : execSlotEnd l d s = .next t) : s.StaysLegal t := by
  cases h
  split
  · exact s.endSlot_legal l _ _
  · exact .refl s

/-! ### The lane controller's events -/

theorem execGuidePoll_legal {s t : State} {l : LaneId} (h : execGuidePoll l s = .next t) : s.StaysLegal t := by
  cases h
  split
  · exact ((s.reach_legal _).trans (.frame _ l rfl)).trans (State.guideTest_legal _ l)
  · exact .refl s

theorem execTurnDwellEnd_legal {s t : State} {l : LaneId} (h : execTurnDwellEnd l s = .next t) : s.StaysLegal t := by
  cases h
  split
  · exact (s.reach_legal _).trans (State.enterPull_legal _ l)
  · exact .refl s

theorem Lane.closeTube_bounded (x : Lane) : x.closeTube.bounded = x.bounded := x.updateRearm_bounded

theorem State.leaveFinish_legal (s : State) (l : LaneId) (fault : Option FaultCause) : s.StaysLegal (s.leaveFinish l fault) := by
  have closed : s.StaysLegal (s.upd l Lane.closeTube) := .frame s l (Lane.closeTube_bounded _)
  unfold State.leaveFinish
  dsimp only
  split
  · exact closed.trans (State.enterFaulted_legal _ l _)
  · exact closed.trans (.frame _ l rfl)

theorem State.report_legal (s : State) (l : LaneId) (t : Tube) : s.StaysLegal (s.report l t) := by
  unfold State.report
  split
  · exact .trans (.frame s l rfl) (.of_reports (State.queueRecord_reports _ _))
  · exact .trans (.of_reports (State.queueRecord_reports _ _)) (State.leaveFinish_legal _ l _)

theorem execReportRecord_legal {s t : State} {l : LaneId} (h : execReportRecord l s = .next t) : s.StaysLegal t := by
  cases h
  split
  · split
    · exact s.report_legal l _
    · exact .refl s
  · exact .refl s

/-! ### Requests -/

/-- What a request comes to keeps windows, positions and sizes legal: a refusal changes nothing. -/
def Handled.StaysLegal (s : State) : Handled → Prop
  | .refused _ => True
  | .done t _ => s.StaysLegal t
  | .inFlight t => s.StaysLegal t

theorem State.conclude_legal (s : State) (p : List Byte) {h : Handled} (hh : h.StaysLegal s) : s.StaysLegal (s.conclude p h) := by
  cases h with
  | refused code => exact .of_reports (s.placeReply_reports _)
  | done t body => exact .trans hh (.of_reports (t.placeReply_reports _))
  | inFlight t => exact .trans hh (.of_fields rfl rfl rfl)

theorem State.handle_legal {s t : State} {kind : Nat → Bool} {f : List Byte → State → Handled}
    (hf : ∀ p u, (f p u).StaysLegal u) (h : Host.Outcome.next (φ := Fault) (ρ := Refusal) (s.handle kind f) = .next t) :
    s.StaysLegal t := by
  cases h
  obtain hid | ⟨p, _, _, htaken⟩ := s.handle_cases kind f
  · rw [hid]
    exact .refl s
  · rw [htaken]
    exact .trans (.setLink s _) (State.conclude_legal s.popRequest p (hf p _))

/-- A check that refuses the request, or else lets it through. -/
theorem Handled.legal_of_check {s : State} {c : Prop} [Decidable c] {code : ReplyCode} {h : Handled} (hh : h.StaysLegal s) :
    (if c then .refused code else h).StaysLegal s := by
  split
  · trivial
  · exact hh

theorem forLane_legal {p : List Byte} {s : State} {f : LaneId → Handled} (h : ∀ l, (f l).StaysLegal s) :
    (forLane p f).StaysLegal s := by
  unfold forLane
  split
  · exact h _
  · trivial

theorem forSetup_legal {p : List Byte} {s : State} {n : Nat} {f : LaneId → Handled} (h : ∀ l, (f l).StaysLegal s) :
    (forSetup p s n f).StaysLegal s :=
  forLane_legal fun l => Handled.legal_of_check (Handled.legal_of_check (h l))

theorem forLaneLength_legal {p : List Byte} {s : State} {n : Nat} {f : LaneId → Handled} (h : ∀ l, (f l).StaysLegal s) :
    (forLaneLength p n f).StaysLegal s := forLane_legal fun l => Handled.legal_of_check (h l)

theorem forUnit_legal {p : List Byte} {s : State} {n : Nat} {h : Handled} (hh : h.StaysLegal s) : (forUnit p n h).StaysLegal s :=
  Handled.legal_of_check (Handled.legal_of_check hh)

theorem handleStatus_legal (p : List Byte) (s : State) : (handleStatus p s).StaysLegal s := forUnit_legal (State.StaysLegal.refl s)

theorem State.setLink_legal (s : State) (silence low resume : Nat) (mask : BitVec 7) :
    s.StaysLegal (s.setLink silence low resume mask) := by
  unfold State.setLink
  refine .trans ?_ (.of_reports (State.testPool_reports _))
  exact .of_fields rfl rfl rfl

theorem handleSetLink_legal (p : List Byte) (s : State) : (handleSetLink p s).StaysLegal s := by
  refine forUnit_legal ?_
  split
  · exact s.setLink_legal _ _ _ _
  · trivial

theorem handleSetLayout_legal (p : List Byte) (s : State) : (handleSetLayout p s).StaysLegal s := by
  refine forUnit_legal (Handled.legal_of_check (Handled.legal_of_check ?_))
  split
  · exact ⟨fun l => by cases l <;> exact .refl _, fun h => by rw [State.setLayout, List.length_set]; exact h⟩
  · trivial

/-- SET_SCAN's tables are within their sizes (R16). -/
theorem scanTables_sized {p : List Byte} (h : scanOk p = true) : (scanTables p).1.length ≤ 4 ∧ (scanTables p).2.length ≤ 16 := by
  simp only [scanOk, within, Bool.and_eq_true, decide_eq_true_eq] at h
  obtain ⟨⟨⟨⟨⟨_, hf⟩, _, hs⟩, _⟩, _⟩, _⟩ := h
  exact ⟨by rwa [scanTables, length_u32List], by rwa [scanTables, length_slotsAt]⟩

/-- New scan tables empty the calibration store (R17). -/
theorem Lane.setScan_legal (x : Lane) {freqs : List Nat} {slots : List Slot} (now : Nat) (hf : freqs.length ≤ 4)
    (hs : slots.length ≤ 16) : x.StaysLegal (x.setScan freqs slots now) :=
  .of_sized rfl rfl fun ⟨_, _, hb, hm, hk, _, hr⟩ => ⟨hf, hs, hb, hm, hk, Nat.zero_le _, hr⟩

theorem handleSetScan_legal (p : List Byte) (s : State) : (handleSetScan p s).StaysLegal s := by
  refine forSetup_legal fun l => ?_
  split
  · rename_i hok
    obtain ⟨hf, hs⟩ := scanTables_sized hok
    exact State.StaysLegal.upd s l (Lane.setScan_legal _ _ hf hs)
  · trivial

theorem handleSetChannel_legal (p : List Byte) (s : State) : (handleSetChannel p s).StaysLegal s := by
  refine forSetup_legal fun l => Handled.legal_of_check ?_
  split
  · exact State.StaysLegal.upd s l (Lane.setBases_legal _ _ _)
  · trivial

theorem State.setMix_legal (s : State) (l : LaneId) (ch : Nat) (m : MixChannel) : (s.setMix l ch m).StaysLegal s :=
  State.StaysLegal.upd s l (Lane.setMixes_legal _ _ _)

theorem handleSetMix_legal (p : List Byte) (s : State) : (handleSetMix p s).StaysLegal s := by
  refine forSetup_legal fun l => Handled.legal_of_check ?_
  split
  · exact s.setMix_legal l _ _
  · split
    · split
      · exact s.setMix_legal l _ _
      · trivial
    · trivial

theorem handleSetLandmark_legal (p : List Byte) (s : State) : (handleSetLandmark p s).StaysLegal s := by
  refine forSetup_legal fun l => ?_
  split
  · exact State.StaysLegal.frame s l rfl
  · trivial

theorem handleSetMotion_legal (p : List Byte) (s : State) : (handleSetMotion p s).StaysLegal s := by
  refine forSetup_legal fun l => ?_
  split
  · exact State.StaysLegal.trans (.upd s l (Lane.setMotion_legal _ _ _)) (.foldl (State.settleInput_legal l) allInputs _)
  · trivial

theorem handleQueueTube_legal (p : List Byte) (s : State) : (handleQueueTube p s).StaysLegal s := by
  refine forLaneLength_legal fun l => ?_
  have queued : (Handled.done ((s.upd l fun y => y.appendOrder (orderAt p)).takeFrontOrder l)
      (.queueTube ((s.lane l).ctl.worklist.length + 1) (s.stops l (orderAt p)).1 (s.stops l (orderAt p)).2)).StaysLegal s :=
    State.StaysLegal.trans (.frame s l rfl) (State.takeFrontOrder_legal _ l)
  exact Handled.legal_of_check (Handled.legal_of_check (Handled.legal_of_check (Handled.legal_of_check
    (Handled.legal_of_check queued))))

theorem handleCancelTube_legal (p : List Byte) (s : State) : (handleCancelTube p s).StaysLegal s := by
  refine forLaneLength_legal fun l => ?_
  dsimp only
  split
  · exact State.StaysLegal.frame s l rfl
  · trivial

theorem handleAbort_legal (p : List Byte) (s : State) : (handleAbort p s).StaysLegal s := by
  refine forLaneLength_legal fun l => ?_
  split
  · rename_i t ht
    exact State.StaysLegal.trans (s.abortLane_legal t l ht) (t.holdIfLost_legal l)
  · trivial

theorem handleHold_legal (p : List Byte) (s : State) : (handleHold p s).StaysLegal s := by
  refine forLaneLength_legal fun l => ?_
  dsimp only
  split
  · exact s.enterHeld_legal l
  · split
    · exact State.StaysLegal.refl s
    · trivial

theorem handleResume_legal (p : List Byte) (s : State) : (handleResume p s).StaysLegal s := by
  refine forLaneLength_legal fun l => ?_
  split
  · exact State.StaysLegal.trans (s.resumeLane_legal l) (State.holdIfLost_legal _ l)
  · trivial

theorem handleRetract_legal (p : List Byte) (s : State) : (handleRetract p s).StaysLegal s := by
  refine forLaneLength_legal fun l => ?_
  dsimp only
  split
  · exact State.StaysLegal.trans (s.startRetract_legal l) (State.holdIfLost_legal _ l)
  · trivial

theorem handleLaneReset_legal (p : List Byte) (s : State) : (handleLaneReset p s).StaysLegal s :=
  forLaneLength_legal fun l => s.resetLane_legal l

theorem handleSpanCal_legal (p : List Byte) (s : State) : (handleSpanCal p s).StaysLegal s :=
  forSetup_legal fun l => Handled.legal_of_check (Handled.legal_of_check (Handled.legal_of_check (Handled.legal_of_check
    (s.appendJob_legal l _))))

theorem handleSolveMix_legal (p : List Byte) (s : State) : (handleSolveMix p s).StaysLegal s := by
  refine forSetup_legal fun l => ?_
  dsimp only
  split
  · exact Handled.legal_of_check (Handled.legal_of_check (s.appendJob_legal l _))
  · trivial

/-! ### Every step -/

/-- No command breaks a window, a position's range or a size. -/
theorem exec_legal {c : Instr} {s t : State} (h : exec c s = .next t) : s.StaysLegal t := by
  cases c with
  | powerOn => cases h; exact s.poweredOn_legal
  | rawLevelChange l i level => cases h; exact .frame s l rfl
  | debouncedStateChange l i => exact execDebouncedStateChange_legal h
  | edge l phase => exact execEdge_legal h
  | controlPeriodEnd l => exact execControlPeriodEnd_legal h
  | stall l => exact execStall_legal h
  | switchEnd l => exact execSwitchEnd_legal h
  | settleEnd l => exact execSettleEnd_legal h
  | slotEnd l d => exact execSlotEnd_legal h
  | guidePoll l => exact execGuidePoll_legal h
  | turnDwellEnd l => exact execTurnDwellEnd_legal h
  | takeOrder l => cases h; exact s.takeFrontOrder_legal l
  | jobCompletion => exact execJobCompletion_legal h
  | reportRecord l => exact execReportRecord_legal h
  | frameReceived bytes => cases h; exact s.receive_legal bytes
  | frameTimeout => exact execFrameTimeout_legal h
  | silenceTimeout => exact execSilenceTimeout_legal h
  | transmissionEnd => exact execTransmissionEnd_legal h
  | badKind => exact State.handle_legal (f := fun _ _ => .refused .badKind) (fun _ _ => trivial) h
  | status => exact State.handle_legal handleStatus_legal h
  | setLink => exact State.handle_legal handleSetLink_legal h
  | setLayout => exact State.handle_legal handleSetLayout_legal h
  | setScan => exact State.handle_legal handleSetScan_legal h
  | setChannel => exact State.handle_legal handleSetChannel_legal h
  | setMix => exact State.handle_legal handleSetMix_legal h
  | setLandmark => exact State.handle_legal handleSetLandmark_legal h
  | setMotion => exact State.handle_legal handleSetMotion_legal h
  | queueTube => exact State.handle_legal handleQueueTube_legal h
  | cancelTube => exact State.handle_legal handleCancelTube_legal h
  | abort => exact State.handle_legal handleAbort_legal h
  | hold => exact State.handle_legal handleHold_legal h
  | resume => exact State.handle_legal handleResume_legal h
  | retract => exact State.handle_legal handleRetract_legal h
  | laneReset => exact State.handle_legal handleLaneReset_legal h
  | spanCal => exact State.handle_legal handleSpanCal_legal h
  | solveMix => exact State.handle_legal handleSolveMix_legal h
  | syncWordFound bytes => cases h; exact s.receive_legal bytes
  | frameLengthOutOfRange bytes => cases h; exact s.receive_legal bytes

theorem step_legal {s t : State} (h : step s = .next t) : s.StaysLegal t := by
  unfold step at h
  split at h
  · cases h
    exact .of_fields rfl rfl rfl
  · have taken : ∀ q, s.StaysLegal (s.withPending q) := fun _ => .of_fields rfl rfl rfl
    exact (taken _).trans (exec_legal h)

/-- Settles O9: `step_legal` for the windows. -/
theorem everyStepKeepsTheWindows : Obligations.EveryStepKeepsTheWindows :=
  fun _ _ ⟨ha, hb⟩ h => ⟨((step_legal h).lanes .a).window ha, ((step_legal h).lanes .b).window hb⟩

/-- Settles O12: `step_legal` for the positions and sizes. -/
theorem everyStepKeepsPositionsAndSizes : Obligations.EveryStepKeepsPositionsAndSizes := by
  rintro s t ⟨hpa, hpb⟩ ⟨hsa, hsb, hy⟩ h
  have hl := step_legal h
  exact ⟨⟨(hl.lanes .a).position hpa, (hl.lanes .b).position hpb⟩,
    ⟨(hl.lanes .a).sized hsa, (hl.lanes .b).sized hsb, hl.layouts hy⟩⟩

/-! ### Encoder edges (R20 to R22) -/

theorem exec_edge (s : State) (l : LaneId) (new : EncPhase) : exec (.edge l new) s = execEdge l new s := by rfl

theorem edgeStep_self (p : EncPhase) : edgeStep p p = some 0 := by simp [edgeStep]

/-- A step along the forward order raises the count. -/
theorem edgeStep_forward (p : EncPhase) : edgeStep p (forwardOf p) = some 1 := by
  obtain ⟨_ | _, _ | _⟩ := p <;> rfl

/-- A step against it lowers the count. -/
theorem edgeStep_backward (p : EncPhase) : edgeStep (forwardOf p) p = some (-1) := by
  obtain ⟨_ | _, _ | _⟩ := p <;> rfl

/-- Two steps at once change both phases. -/
theorem edgeStep_invalid (p : EncPhase) : edgeStep p (forwardOf (forwardOf p)) = none := by
  obtain ⟨_ | _, _ | _⟩ := p <;> rfl

/-- Every phase state follows one other in the forward order. -/
theorem exists_forwardOf_eq (p : EncPhase) : ∃ old, forwardOf old = p := by
  obtain ⟨_ | _, _ | _⟩ := p
  exacts [⟨⟨false, true⟩, rfl⟩, ⟨⟨true, true⟩, rfl⟩, ⟨⟨false, false⟩, rfl⟩, ⟨⟨true, false⟩, rfl⟩]

/-- The lane after a count step, before stops and home limit are tested. -/
def Lane.counted (x : Lane) (new : EncPhase) (d : Int) : Lane :=
  { x with pos := { x.pos with phase := new, count := x.pos.count + d } }

theorem Lane.counted_raw {x : Lane} {k : Nat} (hs : x.pos.scale = some k) (new : EncPhase) (d : Int) :
    (x.counted new d).pos.raw = some ((x.pos.count + d) * (k : Int)) := Position.raw_of_scale hs

/-- An edge whose count is held moves it, and the stops and the home limit are tested (R20, R25, R132). -/
theorem execEdge_counts {s : State} {l : LaneId} {new : EncPhase} {d : Int} (hd : edgeStep (s.lane l).pos.phase new = some d)
    (h0 : d ≠ 0) (hh : (s.lane l).pos.holds ((s.lane l).pos.count + d) = true) :
    execEdge l new s = .next (((s.setLane l ((s.lane l).counted new d)).testStops l).testHomeLimit l) := by
  simp only [execEdge, hd, h0, hh, ne_eq, not_false_eq_true, and_self, if_true, State.moveCount, State.upd_upd]
  rfl

/-- A count that would leave the range stays (R22). -/
theorem execEdge_saturates {s : State} {l : LaneId} {new : EncPhase} {d : Int} (hd : edgeStep (s.lane l).pos.phase new = some d)
    (hh : (s.lane l).pos.holds ((s.lane l).pos.count + d) = false) :
    execEdge l new s = .next (s.setLane l ((s.lane l).accept new)) := by
  simp only [execEdge, hd, hh, Bool.false_eq_true, and_false, if_false]
  rfl

/-! ### The stops and the home limit (R25, R132) -/

/-- Stop A is not reached: disarmed, suspended in HELD, or still ahead. -/
theorem State.testStopA_ahead {s : State} {l : LaneId}
    (h : ∀ r u, (s.lane l).pos.armedA = true → (s.lane l).pos.raw = some r → (s.lane l).ctl.tube = some u →
      (s.lane l).ctl.state ≠ .held → r < u.stopA) : s.testStopA l = s := by
  unfold State.testStopA
  dsimp only
  split
  · rename_i r u ha hr hu
    refine if_neg fun ⟨hheld, hreached⟩ => ?_
    exact absurd (h r u ha hr hu hheld) (by omega)
  · rfl

theorem State.testStopA_reached {s : State} {l : LaneId} {r : Int} {u : Tube} (ha : (s.lane l).pos.armedA = true)
    (hr : (s.lane l).pos.raw = some r) (hu : (s.lane l).ctl.tube = some u) (hheld : (s.lane l).ctl.state ≠ .held)
    (hreached : u.stopA ≤ r) : s.testStopA l = s.enterTurn l := by
  simp only [State.testStopA, ha, hr, hu, hheld, hreached, ne_eq, not_false_eq_true, and_self, if_true]

/-- Stop B is not reached: disarmed, suspended in HELD, or still ahead. -/
theorem State.testStopB_ahead {s : State} {l : LaneId}
    (h : ∀ r u, (s.lane l).pos.armedB = true → (s.lane l).pos.raw = some r → (s.lane l).ctl.tube = some u →
      (s.lane l).ctl.state ≠ .held → u.stopB < r) : s.testStopB l = s := by
  unfold State.testStopB
  dsimp only
  split
  · rename_i r u ha hr hu
    refine if_neg fun ⟨hheld, hreached⟩ => ?_
    exact absurd (h r u ha hr hu hheld) (by omega)
  · rfl

theorem State.testStopB_reached {s : State} {l : LaneId} {r : Int} {u : Tube} (hb : (s.lane l).pos.armedB = true)
    (hr : (s.lane l).pos.raw = some r) (hu : (s.lane l).ctl.tube = some u) (hheld : (s.lane l).ctl.state ≠ .held)
    (hreached : r ≤ u.stopB) :
    s.testStopB l = (s.upd l fun y => { y with pos := { y.pos with armedB := false } }).stopBReached l := by
  simp only [State.testStopB, hb, hr, hu, hheld, hreached, ne_eq, not_false_eq_true, and_self, if_true]

theorem Lane.atHomeLimit_eq_false {x : Lane} (h : ∀ r, x.pos.raw = some r → -(x.motion.homeLimit : Int) < r) :
    x.atHomeLimit = false := by
  unfold Lane.atHomeLimit
  split
  · rename_i r hr
    exact decide_eq_false (by have := h r hr; omega)
  · rfl

/-- The home limit holds back nothing but a running withdrawal that has reached it. -/
theorem State.testHomeLimit_ahead {s : State} {l : LaneId}
    (h : (s.lane l).drive.enabled = true → (s.lane l).drive.phase = .withdraw → (s.lane l).atHomeLimit = false) :
    s.testHomeLimit l = s := by
  unfold State.testHomeLimit
  refine if_neg fun hlimit => ?_
  simp only [Bool.and_eq_true, beq_iff_eq] at hlimit
  obtain ⟨⟨henabled, hphase⟩, hat⟩ := hlimit
  exact absurd hat (by rw [h henabled hphase]; decide)

/-- A count step that reaches no armed stop and no home limit changes nothing else. -/
theorem State.counted_ahead {s : State} {l : LaneId} {new : EncPhase} {d : Int}
    (hfree : ∀ k : Nat, (s.lane l).pos.scale = some k →
      ((s.lane l).drive.enabled = true → (s.lane l).drive.phase = .withdraw →
        -((s.lane l).motion.homeLimit : Int) < ((s.lane l).pos.count + d) * (k : Int)) ∧
      ∀ u : Tube, (s.lane l).ctl.tube = some u → (s.lane l).ctl.state ≠ .held →
        ((s.lane l).pos.armedA = true → ((s.lane l).pos.count + d) * (k : Int) < u.stopA) ∧
        ((s.lane l).pos.armedB = true → u.stopB < ((s.lane l).pos.count + d) * (k : Int))) :
    ((s.setLane l ((s.lane l).counted new d)).testStops l).testHomeLimit l = s.setLane l ((s.lane l).counted new d) := by
  have hscale : ∀ r, ((s.lane l).counted new d).pos.raw = some r →
      ∃ k : Nat, (s.lane l).pos.scale = some k ∧ r = ((s.lane l).pos.count + d) * (k : Int) := fun r hr => by
    cases hk : (s.lane l).pos.scale with
    | none => cases (Position.raw_of_unset (p := ((s.lane l).counted new d).pos) hk).symm.trans hr
    | some k => exact ⟨k, rfl, Option.some.inj (hr.symm.trans (Lane.counted_raw hk new d))⟩
  rw [State.testStops, State.testStopA_ahead, State.testStopB_ahead, State.testHomeLimit_ahead]
  all_goals rw [State.lane_setLane]
  · refine fun henabled hphase => Lane.atHomeLimit_eq_false fun r hr => ?_
    obtain ⟨k, hk, rfl⟩ := hscale r hr
    exact (hfree k hk).1 henabled hphase
  · intro r u hb hr hu hheld
    obtain ⟨k, hk, rfl⟩ := hscale r hr
    exact ((hfree k hk).2 u hu hheld).2 hb
  · intro r u ha hr hu hheld
    obtain ⟨k, hk, rfl⟩ := hscale r hr
    exact ((hfree k hk).2 u hu hheld).1 ha

/-- Settles O42: `edgeStep` by the place in the forward order, `Position.holds_iff` for the range, `State.counted_ahead` for the rest. -/
theorem edgesMoveTheCount : Obligations.EdgesMoveTheCount := by
  refine fun s l new hscale => ⟨?_, fun d hd => ?_, ?_⟩
  · rintro rfl
    have hself : (s.lane l).accept (s.lane l).pos.phase = s.lane l := rfl
    simp only [exec_edge, execEdge, edgeStep_self, ne_eq, not_true_eq_false, false_and, if_false, State.upd_eq_setLane, hself,
      State.setLane_lane]
  · have hstep : edgeStep (s.lane l).pos.phase new = some d ∧ d ≠ 0 := by
      obtain ⟨rfl, rfl⟩ | ⟨hback, rfl⟩ := hd
      · exact ⟨edgeStep_forward _, by decide⟩
      · exact ⟨hback ▸ edgeStep_backward new, by decide⟩
    refine ⟨fun hfree => ?_, fun k hk hout => ?_⟩
    · have hholds : (s.lane l).pos.holds ((s.lane l).pos.count + d) = true := by
        cases hk : (s.lane l).pos.scale with
        | none => exact Position.holds_of_unset hk _
        | some k => exact (Position.holds_iff hk (hscale k hk) _).2 (hfree k hk).1
      rw [exec_edge, execEdge_counts hstep.1 hstep.2 hholds, State.counted_ahead fun k hk => (hfree k hk).2]
      rfl
    · have hholds : (s.lane l).pos.holds ((s.lane l).pos.count + d) = false :=
        Bool.eq_false_iff.2 fun h => hout ((Position.holds_iff hk (hscale k hk) _).1 h)
      rw [exec_edge, execEdge_saturates hstep.1 hholds]
      rfl
  · rintro rfl
    simp only [exec_edge, execEdge, edgeStep_invalid, State.upd_upd]
    rfl

/-! ### Stop A (R144, R145) -/

theorem Lane.turned_tube (x : Lane) (layout : Option Layout) (now : Nat) :
    (x.turned layout now).ctl.tube = x.ctl.tube.map Tube.startPull := rfl

/-- The edge that reaches stop A passes the lane into TURN and nothing more, where the dwell is not 0. -/
theorem exec_edge_stopA {s : State} {l : LaneId} {u : Tube} {k : Nat} (hst : (s.lane l).ctl.state = .insert)
    (ha : (s.lane l).pos.armedA = true) (hu : (s.lane l).ctl.tube = some u) (hk : (s.lane l).pos.scale = some k) (hk1 : 1 ≤ k)
    (hdwell : 0 < (s.lane l).motion.turnDwell) (hfit : fitsS32 (((s.lane l).pos.count + 1) * (k : Int)))
    (hreach : u.stopA ≤ ((s.lane l).pos.count + 1) * (k : Int)) :
    exec (.edge l (forwardOf (s.lane l).pos.phase)) s =
      .next
        (s.setLane l
          (((s.lane l).counted (forwardOf (s.lane l).pos.phase) 1).turned (s.layout u.order.cls) s.clock)) := by
  generalize hnew : forwardOf (s.lane l).pos.phase = new
  have hstep : edgeStep (s.lane l).pos.phase new = some 1 := hnew ▸ edgeStep_forward _
  rw [exec_edge, execEdge_counts hstep (by decide) ((Position.holds_iff hk hk1 _).2 hfit)]
  have hturn : (s.setLane l ((s.lane l).counted new 1)).testStopA l =
      s.setLane l (((s.lane l).counted new 1).turned (s.layout u.order.cls) s.clock) := by
    have hlayout : (s.setLane l ((s.lane l).counted new 1)).tubeLayout l = s.layout u.order.cls := by
      have htube : ((s.setLane l ((s.lane l).counted new 1)).lane l).ctl.tube = some u := by rw [State.lane_setLane]; exact hu
      simp only [State.tubeLayout, htube, State.layout, State.setLane_layouts]
    rw [State.testStopA_reached (r := ((s.lane l).pos.count + 1) * (k : Int)) (u := u), State.enterTurn_eq, hlayout, if_neg,
      State.upd_eq_setLane, State.setLane_setLane, State.lane_setLane, State.setLane_clock]
    any_goals rw [State.lane_setLane]
    · exact Nat.ne_of_gt hdwell
    · exact ha
    · exact Lane.counted_raw hk new 1
    · exact hu
    · exact fun h => by cases hst.symm.trans h
    · exact hreach
  rw [State.testStops, hturn, State.testStopB_ahead, State.testHomeLimit_ahead]
  all_goals rw [State.lane_setLane]
  · exact fun h => by cases h
  · exact fun r u h => by cases h

/-- Settles O43: the lane that `exec_edge_stopA` gives, field by field; only stores and expected list depend on the order. -/
theorem stopATurnsTheLane : Obligations.StopATurnsTheLane := by
  intro s l u k hst ha _ hu hk hk1 hdwell hfit hreach
  refine ⟨_, u.startPull, exec_edge_stopA hst ha hu hk hk1 hdwell hfit hreach, by simp [State.sameUnit], by simp,
    s.lane_setLane_other l _, ?_⟩
  rw [State.lane_setLane]
  generalize hx : (s.lane l).counted (forwardOf (s.lane l).pos.phase) 1 = x
  have htube : x.ctl.tube = some u := by rw [← hx]; exact hu
  have hcal : x.calTube = u.order.cal := by rw [Lane.calTube, htube]
  have hstore : (x.turned (s.layout u.order.cls) s.clock).store = if u.order.cal then [] else (s.lane l).store := by
    rw [← hcal, ← hx]
    rfl
  have hexpected : (x.turned (s.layout u.order.cls) s.clock).detector.expected =
      expectedList (s.layout u.order.cls) u.stopA u.stopB := by
    show (match x.ctl.tube with | some t => expectedList (s.layout u.order.cls) t.stopA t.stopB | none => []) = _
    rw [htube]
  have hturned : (x.turned (s.layout u.order.cls) s.clock).ctl.tube = some u.startPull := by
    rw [Lane.turned_tube, htube, Option.map_some]
  refine ⟨?_, rfl, ⟨rfl, rfl, rfl, rfl, rfl⟩, ?_, rfl, ?_, rfl, rfl, rfl, hstore, rfl, rfl, rfl, rfl, rfl, hexpected, hturned, rfl, rfl,
    rfl, rfl, rfl, rfl, rfl, rfl, rfl⟩
  all_goals rw [← hx]; rfl

/-! ### The end of a control period (R28, R29, R126 to R128) -/

theorem exec_controlPeriodEnd (s : State) (l : LaneId) : exec (.controlPeriodEnd l) s = execControlPeriodEnd l s := by rfl

/-- The sign of a travel, by its ends (R28). -/
theorem directionOf_sub (r p : Int) :
    directionOf (r - p) = if p < r then .forward else if r < p then .reverse else .still := by
  unfold directionOf
  simp only [sub_pos, sub_neg]

/-- The measurement with a scale (R28). -/
theorem Position.measure_of_raw {p : Position} {r : Int} (h : p.raw = some r) :
    p.measure =
      { p with
        speed := (r - p.refPos).natAbs / 10,
        direction := if p.refPos < r then .forward else if r < p.refPos then .reverse else .still, refPos := r } := by
  rw [Position.measure, h, ← directionOf_sub]

/-- Without a scale nothing is measured (R28). -/
theorem Position.measure_of_unset {p : Position} (h : p.raw = none) : p.measure = { p with speed := 0, direction := .still } := by
  rw [Position.measure, h]

/-- The measurement leaves all but its own three values. -/
theorem Position.measure_frame (p : Position) :
    p.measure = { p with refPos := p.measure.refPos, speed := p.measure.speed, direction := p.measure.direction } := by
  cases h : p.raw with
  | none => rw [Position.measure_of_unset h]
  | some r => rw [Position.measure_of_raw h]

/-- Extremes that a speed widens (R29). -/
theorem Tube.speeds_eq (t : Tube) (speed : Nat) :
    t.speeds speed =
      { t with minSpeed := some (min (t.minSpeed.getD speed) speed), maxSpeed := some (max (t.maxSpeed.getD speed) speed) } := by
  unfold Tube.speeds
  cases t.minSpeed <;> cases t.maxSpeed <;> simp

/-- The tube's record after a control period's end: a period wholly in PULL widens its extremes (R29). -/
def Lane.periodTube (x : Lane) : Option Tube :=
  if x.pos.wholePull && x.ctl.state == .pull then x.ctl.tube.map fun t => t.speeds x.pos.measure.speed else x.ctl.tube

/-- The lane after a control period's end with the given drive (R28, R29). -/
def Lane.periodEnded (x : Lane) (drive : Drive) : Lane :=
  { x with
    drive := drive, ctl := { x.ctl with tube := x.periodTube },
    pos :=
      { x.pos.measure with periodEnd := x.pos.periodEnd + Config.controlPeriodNs, wholePull := x.ctl.state == .pull } }

theorem Lane.pullSpeeds_periodMeasure (x : Lane) : x.periodMeasure.pullSpeeds = x.periodEnded x.drive := by
  have hwhole : x.pos.measure.wholePull = x.pos.wholePull := (congrArg Position.wholePull x.pos.measure_frame :)
  have hcond : (x.periodMeasure.pos.wholePull && x.periodMeasure.ctl.state == .pull) = (x.pos.wholePull && x.ctl.state == .pull) :=
    congrArg (· && x.ctl.state == .pull) hwhole
  unfold Lane.pullSpeeds Lane.periodEnded Lane.periodTube
  simp only [hcond]
  split <;> rfl

/-- The running drive after a control period's end: a new duty, and the window afresh or counted (R126, R128). -/
def Lane.drivenPeriod (x : Lane) (tight : Bool) : Drive :=
  { x.drive with
    duty :=
      newDuty x.drive.duty (x.target tight x.drive.phase) (loopSpeed x.drive.dir x.pos.measure.direction x.pos.measure.speed)
        x.motion.kp x.motion.dmax,
    window := x.drive.window.map (x.periodEnded x.drive).nextWindow }

/-- The lane after a control period's end, the drive by whether the motor is ENABLED. -/
theorem Lane.controlPeriod_eq (x : Lane) (tight : Bool) :
    (x.periodMeasure.pullSpeeds).drivePeriod tight =
      x.periodEnded (if x.drive.enabled then x.drivenPeriod tight else x.drive) := by
  rw [Lane.pullSpeeds_periodMeasure, Lane.drivePeriod]
  have hsame : (x.periodEnded x.drive).drive.enabled = x.drive.enabled := rfl
  rw [hsame]
  split <;> rfl

theorem execControlPeriodEnd_eq (s : State) (l : LaneId) :
    execControlPeriodEnd l s =
      .next
        ({ s.setLane l
            ((s.lane l).periodEnded
              (if (s.lane l).drive.enabled then (s.lane l).drivenPeriod s.pool.tight else (s.lane l).drive)) with
          clock := max s.clock (s.lane l).pos.periodEnd }) := by
  rw [execControlPeriodEnd, State.reach_upd, Lane.controlPeriod_eq]

/-- The measured speed counts against the output's direction where it was the other way (R126). -/
theorem loopSpeed_eq (dir : DriveDir) (measured : Direction) (speed : Nat) :
    loopSpeed dir measured speed =
      if dir = .forward ∧ measured = .reverse ∨ dir = .reverse ∧ measured = .forward then -(speed : Int) else (speed : Int) := by
  cases dir <;> cases measured <;> rfl

theorem newDuty_cast (duty target : Nat) (speed : Int) (kp dmax : Nat) :
    (newDuty duty target speed kp dmax : Int) =
      max 0 (min (dmax : Int) ((duty : Int) + Int.tdiv (((target : Int) - speed) * (kp : Int)) 16)) :=
  Int.toNat_of_nonneg (le_max_left _ _)

/-- The speed target of a motion phase, as an integer (R127). -/
theorem Lane.target_cast (x : Lane) (tight : Bool) (p : MotionPhase) :
    (x.target tight p : Int) =
      (match p with
      | .none => 0
      | .insert => (x.motion.insertSpeed : Int)
      | .pull => if tight then ((x.effectivePull / 2 : Nat) : Int) else (x.effectivePull : Int)
      | .withdraw => (x.motion.withdrawSpeed : Int)
      | .retract => (x.motion.withdrawSpeed : Int)) := by
  cases p with
  | pull => cases tight <;> rfl
  | _ => rfl

/-- The travel of the stall window, by what is known and the direction (R128). -/
theorem travel_eq (dir : DriveDir) (start now : Option Int) :
    travel dir start now =
      (match start, now, dir with
      | some p, some r, .forward => r - p
      | some p, some r, .reverse => p - r
      | _, _, _ => 0) := by
  cases start <;> cases now <;> cases dir <;> rfl

/-- A period wholly in PULL widens the extremes; another leaves the record. -/
theorem Lane.periodTube_some {x : Lane} {u : Tube} (h : x.ctl.tube = some u) :
    ∃ v, x.periodTube = some v ∧
      (if x.pos.wholePull = true ∧ x.ctl.state = .pull then
        v =
          { u with
            minSpeed := some (min (u.minSpeed.getD x.pos.measure.speed) x.pos.measure.speed),
            maxSpeed := some (max (u.maxSpeed.getD x.pos.measure.speed) x.pos.measure.speed) }
      else v = u) := by
  unfold Lane.periodTube
  rw [h]
  by_cases hp : x.pos.wholePull = true ∧ x.ctl.state = .pull
  · exact ⟨u.speeds x.pos.measure.speed, by simp [hp], by rw [if_pos hp, Tube.speeds_eq]⟩
  · exact ⟨u, if_neg (by simpa using hp), by rw [if_neg hp]⟩

theorem Lane.periodTube_none {x : Lane} (h : x.ctl.tube = none) : x.periodTube = none := by
  unfold Lane.periodTube
  rw [h]
  split <;> rfl

/-- The stall window after a control period's end (R128). -/
theorem Lane.drivenPeriod_window {x : Lane} {w : StallWindow} (tight : Bool) (h : x.drive.window = some w) :
    (x.drivenPeriod tight).window =
      some
        (if (x.motion.stallDistance : Int) ≤ travel x.drive.dir w.start x.pos.raw then { start := x.pos.raw, periods := 0 }
        else { start := w.start, periods := w.periods + 1 }) := by
  have hraw : (x.periodEnded x.drive).pos.raw = x.pos.raw := by
    have hcount := congrArg Position.count x.pos.measure_frame
    have hscale := congrArg Position.scale x.pos.measure_frame
    show Position.raw { x.pos.measure with periodEnd := _, wholePull := _ } = _
    unfold Position.raw
    rw [hcount, hscale]
  rw [Lane.drivenPeriod, h, Option.map_some, Lane.nextWindow, Lane.freshWindow, hraw]
  rfl

/-- A control period's end changes nothing of the lane but the drive, the tube's record and the measurement. -/
theorem Lane.periodEnded_frame (x : Lane) (drive : Drive) :
    x.periodEnded drive =
      { x with
        drive := drive, ctl := { x.ctl with tube := x.periodTube },
        pos :=
          { x.pos with
            periodEnd := x.pos.periodEnd + 10000000, wholePull := decide (x.ctl.state = .pull), refPos := x.pos.measure.refPos,
            speed := x.pos.measure.speed, direction := x.pos.measure.direction } } := by
  have hwhole : (x.ctl.state == .pull) = decide (x.ctl.state = .pull) := rfl
  rw [Lane.periodEnded, x.pos.measure_frame, hwhole]
  rfl

/-- Settles O46: `execControlPeriodEnd_eq` gives the next state; each part of the lane is then read from its own lemma. -/
theorem controlPeriodsMeasureAndDrive : Obligations.ControlPeriodsMeasureAndDrive := by
  intro s l raw hraw
  replace hraw : (s.lane l).pos.raw = raw := hraw.symm
  refine ⟨_, (exec_controlPeriodEnd s l).trans (execControlPeriodEnd_eq s l), ⟨s.setLane_layouts l _, s.setLane_engine l _,
    s.setLane_pool l _, s.setLane_link l _, s.setLane_pending l _⟩, s.lane_setLane_other l _, rfl, ?_⟩
  rw [State.lane_setLane_clock]
  generalize s.lane l = x at hraw ⊢
  refine ⟨x.periodEnded_frame _, fun r hr => ?_, fun hr => ?_, Lane.periodTube_none,
    fun u hu => Lane.periodTube_some hu, fun hoff => ?_, fun hon => ?_⟩
  · have hm := Position.measure_of_raw (hraw.trans hr)
    exact ⟨(congrArg Position.refPos hm :), (congrArg Position.speed hm :), (congrArg Position.direction hm :)⟩
  · have hm := Position.measure_of_unset (hraw.trans hr)
    exact ⟨(congrArg Position.refPos hm :), (congrArg Position.speed hm :), (congrArg Position.direction hm :)⟩
  · rw [hoff]
    rfl
  · rw [hon]
    refine ⟨rfl, ⟨_, _, x.target_cast _ _, loopSpeed_eq _ _ _, newDuty_cast ..⟩, fun hw => ?_, fun w moved hw hmoved => ?_⟩
    · exact congrArg (Option.map _) hw
    · have hmoved' : moved = travel x.drive.dir w.start raw := hmoved.trans (travel_eq _ _ _).symm
      rw [hmoved', ← hraw]
      exact Lane.drivenPeriod_window _ hw

/-! ### What the end of a pull leaves alone (R146)

The flush, the detector, screening and the assemblers leave the position counter, the drive, the settings and what the tube was decided
to be; `Lane.controls` is that part of a lane. -/

/-- Position counter, drive and motion settings, and the order, outcome and fault mark of the tube. -/
def Lane.controls (x : Lane) : (Position × Drive × Motion) × Option (Order × Option TubeOutcome × Option FaultCause) :=
  ((x.pos, x.drive, x.motion), x.ctl.tube.map fun t => (t.order, t.outcome, t.fault))

/-- A change of the tube's record apart from its order, outcome and fault mark. -/
theorem Lane.controls_updTube (x : Lane) {f : Tube → Tube}
    (h : ∀ t, ((f t).order, (f t).outcome, (f t).fault) = (t.order, t.outcome, t.fault)) : (x.updTube f).controls = x.controls := by
  simp only [Lane.controls, Lane.updTube, Option.map_map, Function.comp_def, h]

theorem Lane.controls_upstream (x : Lane) : x.upstream.controls = x.controls := x.controls_updTube fun _ => rfl

/-- The position counter, the drive and the settings of lanes with the same controls. -/
theorem Lane.controls_fields {x y : Lane} (h : y.controls = x.controls) : y.pos = x.pos ∧ y.drive = x.drive ∧ y.motion = x.motion := by
  have hfst := congrArg Prod.fst h
  exact ⟨congrArg Prod.fst hfst, congrArg (fun p => p.2.1) hfst, congrArg (fun p => p.2.2) hfst⟩

theorem Lane.controls_tube {x y : Lane} {u : Tube} (h : y.controls = x.controls) (hu : x.ctl.tube = some u) :
    ∃ v, y.ctl.tube = some v ∧ v.order = u.order ∧ v.outcome = u.outcome ∧ v.fault = u.fault := by
  have htube : (y.ctl.tube.map fun t => (t.order, t.outcome, t.fault)) = x.ctl.tube.map fun t => (t.order, t.outcome, t.fault) :=
    (congrArg Prod.snd h :)
  rw [hu, Option.map_some, Option.map_eq_some_iff] at htube
  obtain ⟨v, hv, hvu⟩ := htube
  obtain ⟨ho, hrest⟩ := Prod.mk.inj hvu
  obtain ⟨hout, hfault⟩ := Prod.mk.inj hrest
  exact ⟨v, hv, ho, hout, hfault⟩

theorem Lane.controls_tag {x y : Lane} (h : y.controls = x.controls) : y.tag = x.tag := by
  have htube : (y.ctl.tube.map fun t => (t.order, t.outcome, t.fault)) = x.ctl.tube.map fun t => (t.order, t.outcome, t.fault) :=
    (congrArg Prod.snd h :)
  have htag := congrArg (Option.map fun p => p.1.tag) htube
  rwa [Option.map_map, Option.map_map] at htag

theorem Lane.controls_atHomeLimit {x y : Lane} (h : y.controls = x.controls) : y.atHomeLimit = x.atHomeLimit := by
  obtain ⟨hpos, -, hmotion⟩ := Lane.controls_fields h
  rw [Lane.atHomeLimit, Lane.atHomeLimit, hpos, hmotion]

/-- From `s` to `t` lane `l` has the same controls. -/
def State.SameControls (l : LaneId) (s t : State) : Prop := (t.lane l).controls = (s.lane l).controls

namespace State.SameControls

theorem refl (l : LaneId) (s : State) : SameControls l s s := rfl

theorem trans {l : LaneId} {s t u : State} (h : SameControls l s t) (k : SameControls l t u) : SameControls l s u := Eq.trans k h

/-- The blocks behind the calibration store leave the controls alone. -/
theorem of_upstream {l : LaneId} {s t : State} (h : State.SameUpstream l s t) : SameControls l s t := by
  have hc := congrArg Lane.controls h
  rwa [Lane.controls_upstream, Lane.controls_upstream] at hc

theorem upd {l : LaneId} (s : State) {f : Lane → Lane} (h : (f (s.lane l)).controls = (s.lane l).controls) :
    SameControls l s (s.upd l f) := by rw [SameControls, State.lane_upd, h]

end State.SameControls

theorem Lane.commit_controls (now : Nat) (x : Lane) (c : CapLine) : (x.commit now c).controls = x.controls := by
  have hcount : (x.updTube fun t => t.countCommit now c).controls = x.controls := x.controls_updTube fun _ => rfl
  rw [← hcount, Lane.commit, Lane.storeLine]
  split <;> rfl

theorem State.commitLines_controls (l : LaneId) (out : List CapLine) (s : State) :
    State.SameControls l s (out.foldl (State.commitLine l) s) := by
  induction out generalizing s with
  | nil => exact .refl l s
  | cons c out ih =>
    have hc := congrArg Lane.controls (State.commitLine_upstream l s c)
    rw [Lane.controls_upstream, Lane.commit_controls, Lane.controls_upstream] at hc
    exact .trans hc (ih _)

theorem State.flush_controls (s : State) (l : LaneId) : State.SameControls l s (s.flush l) := by
  unfold State.flush
  exact .trans (.upd s rfl) (.trans (State.commitLines_controls l _ _) (.upd _ rfl))

theorem Lane.upstream_landmarkEnd (x : Lane) : x.landmarkEnd.upstream = x.upstream := by
  have hmiss : ∀ y : Lane, y.missRest.upstream = y.upstream := fun y => Lane.upstream_updTube _ fun _ => rfl
  rw [Lane.landmarkEnd, hmiss, Lane.upstream_takeCandidate]
  rfl

theorem State.screenEndChannel_controls (l : LaneId) (s : State) (ch : Nat) : State.SameControls l s (s.screenEndChannel l ch) := by
  have closed : ∀ k : Screen, State.SameControls l s (s.upd l fun y => { y with screens := y.screens.set ch k }) := fun k => .upd s rfl
  have flagged : ∀ t : State, State.SameControls l t (t.upd l fun y => y.updFlags fun f => { f with truncated := true }) :=
    fun t => .upd t (Lane.controls_updTube _ fun _ => rfl)
  unfold State.screenEndChannel
  dsimp only
  split
  · split
    · exact .refl l s
    · exact closed _
    · exact ((closed _).trans (flagged _)).trans (.of_upstream (State.closeSpan_upstream _ l _ _ _ _))
    · exact ((closed _).trans (flagged _)).trans (.of_upstream (State.closeSpan_upstream _ l _ _ _ _))
  · exact .refl l s

theorem State.screenEnd_controls (s : State) (l : LaneId) : State.SameControls l s (s.screenEnd l) := by
  have fold : ∀ (chs : List Nat) (t : State), State.SameControls l t (chs.foldl (State.screenEndChannel l) t) := fun chs => by
    induction chs with
    | nil => exact fun t => .refl l t
    | cons ch chs ih => exact fun t => (t.screenEndChannel_controls l ch).trans (ih _)
  exact (fold channelNumbers s).trans (.upd _ rfl)

theorem State.pullEnding_controls (s : State) (l : LaneId) : State.SameControls l s (s.pullEnding l) := by
  have landmarks : State.SameControls l (s.flush l) ((s.flush l).setLane l ((s.flush l).lane l).landmarkEnd) :=
    .of_upstream (by rw [State.SameUpstream, State.lane_setLane, Lane.upstream_landmarkEnd])
  have assembled : ∀ t : State, State.SameControls l t (t.assemblersEnd l) := fun t =>
    (SameControls.of_upstream ((t.closeBlock_upstream l .full).trans (State.closeBlock_upstream _ l .region))).trans (.upd _ rfl)
  exact (((s.flush_controls l).trans landmarks).trans (State.screenEnd_controls _ l)).trans (assembled _)

/-! ### What the end of a pull closes (R37, R73, R94, R97, R168) -/

theorem Detector.matchCandidate_run (d : Detector) (tolerance : Nat) (kind : CandidateKind) (p : Int) :
    (d.matchCandidate tolerance kind p).1.run = d.run := by
  have hadd : ∀ (e : Detector) (x : Int), (e.addUnexpected kind x p).run = e.run := fun e x => by
    unfold Detector.addUnexpected
    split <;> rfl
  unfold Detector.matchCandidate
  dsimp only
  split
  · split
    · rfl
    · exact hadd _ _
  · exact hadd _ _

/-- After the end-of-pull signal no run is open and no expected entry is left (R94, R97). -/
theorem Lane.landmarkEnd_detector (x : Lane) :
    x.landmarkEnd.detector.run = none ∧ x.landmarkEnd.detector.expected.length ≤ x.landmarkEnd.detector.pointer := by
  have hrun : ∀ (y : Lane) (c : Option Candidate), (y.takeCandidate c).detector.run = y.detector.run := fun y c => by
    cases c with
    | none => rfl
    | some c => exact Detector.matchCandidate_run _ _ _ _
  have hmiss : ∀ y : Lane, y.missRest.detector.run = y.detector.run ∧
      y.missRest.detector.expected.length ≤ y.missRest.detector.pointer := fun y => by
    refine ⟨rfl, ?_⟩
    show (missRange _ _ y.detector.expected).length ≤ max _ y.detector.expected.length
    rw [missRange, List.length_mapIdx]
    exact le_max_right _ _
  exact ⟨(hmiss _).1.trans (hrun _ _), (hmiss _).2⟩

theorem Lane.landmarkEnd_capture (x : Lane) : x.landmarkEnd.capture = x.capture :=
  (congrArg Lane.capture x.upstream_landmarkEnd :)

/-- A screen replaced by a quiet one is quiet, and another is as it was. -/
theorem getD_set_phase_quiet {screens : List Screen} {ch k : Nat} {new : Screen} (hnew : new.phase = .quiet)
    (h : k = ch ∨ (screens.getD k Screen.reset).phase = .quiet) : ((screens.set ch new).getD k Screen.reset).phase = .quiet := by
  rw [List.getD_eq_getElem?_getD, List.getElem?_set']
  split
  · cases screens[k]? with
    | none => rfl
    | some c => exact hnew
  · rename_i hne
    rw [← List.getD_eq_getElem?_getD]
    exact h.resolve_left fun hk => hne hk.symm

/-- The end-of-pull signal changes the screens, the jobs and the tube's record; a screened channel that took it, or was quiet, is
quiet (R73). -/
theorem State.screenEndChannel_lane (l : LaneId) (s : State) (ch : Nat) :
    ∃ screens jobs tube, (s.screenEndChannel l ch).lane l =
        { s.lane l with screens := screens, jobs := jobs, ctl := { (s.lane l).ctl with tube := tube } } ∧
      ∀ k, (s.lane l).screened k = true → (k = ch ∨ ((s.lane l).screens.getD k Screen.reset).phase = .quiet) →
        (screens.getD k Screen.reset).phase = .quiet := by
  unfold State.screenEndChannel
  dsimp only
  split
  · split
    · rename_i hquiet
      refine ⟨_, _, _, rfl, fun k _ hk => hk.elim (fun h => ?_) id⟩
      rw [h]
      exact hquiet
    · exact ⟨_, _, _, s.lane_upd l _, fun k _ hk => getD_set_phase_quiet rfl hk⟩
    all_goals
      rw [State.upd_upd]
      generalize hs1 : s.upd l _ = s1
      obtain ⟨jobs, tube, h⟩ := s1.closeSpan_lane l ch ((s.lane l).screen ch).span false true
      rw [← hs1, State.lane_upd] at h
      rw [← hs1]
      exact ⟨_, jobs, tube, h, fun k _ hk => getD_set_phase_quiet rfl hk⟩
  · rename_i hoff
    refine ⟨_, _, _, rfl, fun k hs hk => hk.elim (fun h => ?_) id⟩
    rw [h] at hs
    exact absurd hs hoff

/-- After the end-of-pull signal every screened channel is quiet and no region is open (R73, R75). -/
theorem State.screenEnd_lane (s : State) (l : LaneId) :
    ∃ screens jobs tube, (s.screenEnd l).lane l =
        { s.lane l with screens := screens, roi := none, jobs := jobs, ctl := { (s.lane l).ctl with tube := tube } } ∧
      ∀ ch < 20, (s.lane l).screened ch = true → (screens.getD ch Screen.reset).phase = .quiet := by
  have fold : ∀ (chs : List Nat) (t : State), ∃ screens jobs tube, (chs.foldl (State.screenEndChannel l) t).lane l =
        { t.lane l with screens := screens, jobs := jobs, ctl := { (t.lane l).ctl with tube := tube } } ∧
      ∀ k, (t.lane l).screened k = true → (k ∈ chs ∨ ((t.lane l).screens.getD k Screen.reset).phase = .quiet) →
        (screens.getD k Screen.reset).phase = .quiet := fun chs => by
    induction chs with
    | nil => exact fun t => ⟨_, _, _, rfl, fun k _ hk => hk.resolve_left List.not_mem_nil⟩
    | cons ch chs ih =>
      intro t
      obtain ⟨screens, jobs, tube, hlane, hquiet⟩ := t.screenEndChannel_lane l ch
      obtain ⟨screens', jobs', tube', hlane', hquiet'⟩ := ih (t.screenEndChannel l ch)
      rw [hlane] at hlane' hquiet'
      refine ⟨screens', jobs', tube', hlane', fun k hs hk => hquiet' k hs ?_⟩
      rw [List.mem_cons, or_assoc, or_left_comm] at hk
      exact hk.imp_right (hquiet k hs)
  obtain ⟨screens, jobs, tube, hlane, hquiet⟩ := fold channelNumbers s
  refine ⟨screens, jobs, tube, ?_, fun ch hch hs => hquiet ch hs (.inl (List.mem_range.2 hch))⟩
  rw [State.screenEnd, State.lane_upd, hlane]

theorem State.closeBlock_lane (s : State) (l : LaneId) (kind : BlockKind) :
    (s.closeBlock l kind).lane l = (s.lane l).setBlock kind none := by
  obtain ⟨hnone, h⟩ | ⟨b, _, h⟩ := s.closeBlock_cases l kind <;> rw [h]
  · cases kind <;> simp only [Lane.setBlock, Lane.block] at hnone ⊢ <;> rw [← hnone]
  · rw [(State.enqueue_reports _ _).lane, State.lane_upd]

/-- The assemblers close their blocks and the ring is emptied (R168). -/
theorem State.assemblersEnd_lane (s : State) (l : LaneId) :
    (s.assemblersEnd l).lane l = { s.lane l with lineBlock := none, regionBlock := none, ring := [] } := by
  rw [State.assemblersEnd, State.lane_upd, State.closeBlock_lane, State.closeBlock_lane]
  rfl

/-- After the steps of R146 the lane's pull is closed, once its stops are disarmed. -/
theorem State.pullEnding_closed (s : State) (l : LaneId) : ((s.pullEnding l).lane l).disarmStops.pullClosed := by
  obtain ⟨hrun, hpointer⟩ := ((s.flush l).lane l).landmarkEnd_detector
  have hcapture : ((s.flush l).lane l).landmarkEnd.capture = { armed := false, window := [] } := by
    rw [Lane.landmarkEnd_capture, State.flush, State.lane_upd]
  obtain ⟨screens, jobs, tube, hlane, hquiet⟩ := State.screenEnd_lane ((s.flush l).setLane l ((s.flush l).lane l).landmarkEnd) l
  rw [State.lane_setLane] at hlane hquiet
  rw [State.pullEnding, State.assemblersEnd_lane, hlane]
  exact ⟨hcapture, rfl, rfl, rfl, rfl, rfl, rfl, hrun, hpointer, hquiet⟩

/-- The notice PULL_ENDED stands behind everything that the steps before it queued (R146, R170). -/
theorem State.pullEnding_emit (s : State) (l : LaneId) : s.pullEnded l ((s.pullEnding l).emit l .pullEnded none) := by
  have hnoticed := (s.pullEnding l).emit_noticed l .pullEnded 2 none rfl
  rw [Lane.controls_tag (s.pullEnding_controls l)] at hnoticed
  have hr := (s.pullEnding l).emit_reports l .pullEnded none
  have hk := s.pullEnding_keeps l
  exact ⟨hnoticed, ⟨hr.laneA, hr.laneB⟩, hr.layouts, hr.engine, hr.clock.trans hk.clock, hr.pending.trans hk.pending⟩

/-! ### Stop B (R125, R146) -/

/-- A retarget of a running motor above the home limit keeps the duty (R125). -/
theorem State.retargetWithdraw_running {s : State} {l : LaneId} (hon : (s.lane l).drive.enabled = true)
    (hlim : (s.lane l).atHomeLimit = false) :
    s.retargetWithdraw l = s.setLane l ((s.lane l).toWithdraw.run .withdraw (s.lane l).drive.duty) := by
  have hon' : (s.lane l).toWithdraw.drive.enabled = true := hon
  have hlim' : ((s.lane l).toWithdraw.run .withdraw (s.lane l).drive.duty).atHomeLimit = false := hlim
  have hretarget : (s.lane l).toWithdraw.retarget =
      ((s.lane l).toWithdraw.run .withdraw (s.lane l).drive.duty, .started) := by
    rw [Lane.retarget, if_pos hon', Lane.testStart, if_neg (fun h => Bool.false_ne_true (hlim'.symm.trans h.2))]
    rfl
  rw [State.retargetWithdraw, hretarget]
  rfl

/-- A pull that ends with the motor running passes the lane to WITHDRAW behind the notice (R146). -/
theorem State.endPull_retarget {s : State} {l : LaneId} (o : TubeOutcome) (hon : (s.lane l).drive.enabled = true)
    (hlim : (s.lane l).atHomeLimit = false) :
    (s.endPull l o).retargetWithdraw l =
      ((s.pullEnding l).emit l .pullEnded none).setLane l
        (((s.pullEnding l).lane l).withdrawing (s.lane l).drive.duty o) := by
  have hcontrols := s.pullEnding_controls l
  obtain ⟨-, hdrive, -⟩ := Lane.controls_fields hcontrols
  have hlane : (s.endPull l o).lane l =
      (((s.pullEnding l).lane l).disarmStops).updTube fun t => t.decideOutcome o := by
    rw [State.endPull_eq, State.lane_upd, ((s.pullEnding l).emit_reports l _ _).lane]
  have hon' : ((s.endPull l o).lane l).drive.enabled = true := by
    rw [hlane]
    exact (congrArg Drive.enabled hdrive).trans hon
  have hlim' : ((s.endPull l o).lane l).atHomeLimit = false := by
    rw [hlane]
    exact (Lane.controls_atHomeLimit hcontrols).trans hlim
  rw [State.retargetWithdraw_running hon' hlim', hlane, ← hdrive, State.endPull_eq, State.upd_eq_setLane, State.setLane_setLane]
  rfl

/-- The edge that reaches stop B ends the pull and retargets the drive. -/
theorem exec_edge_stopB {s : State} {l : LaneId} {u : Tube} {k : Nat} {old : EncPhase} {x : Lane}
    (hst : (s.lane l).ctl.state = .pull) (hb : (s.lane l).pos.armedB = true) (ha : (s.lane l).pos.armedA = false)
    (hon : (s.lane l).drive.enabled = true) (hu : (s.lane l).ctl.tube = some u) (hk : (s.lane l).pos.scale = some k) (hk1 : 1 ≤ k)
    (hfit : fitsS32 (((s.lane l).pos.count - 1) * (k : Int))) (hreach : ((s.lane l).pos.count - 1) * (k : Int) ≤ u.stopB)
    (hhome : -((s.lane l).motion.homeLimit : Int) < ((s.lane l).pos.count - 1) * (k : Int))
    (hold : forwardOf old = (s.lane l).pos.phase)
    (hx : x = { s.lane l with pos := { (s.lane l).pos with phase := old, count := (s.lane l).pos.count - 1, armedB := false } }) :
    exec (.edge l old) s =
      .next
        ((((s.setLane l x).pullEnding l).emit l .pullEnded none).setLane l
          ((((s.setLane l x).pullEnding l).lane l).withdrawing (s.lane l).drive.duty .examined)) := by
  have hstep : edgeStep (s.lane l).pos.phase old = some (-1) := hold ▸ edgeStep_backward old
  have hraw : x.pos.raw = some (((s.lane l).pos.count - 1) * (k : Int)) := by
    rw [hx]
    exact Position.raw_of_scale hk
  have hlim : x.atHomeLimit = false := by
    refine Lane.atHomeLimit_eq_false fun r hr => ?_
    cases hraw.symm.trans hr
    rw [hx]
    exact hhome
  have hstop : (s.setLane l ((s.lane l).counted old (-1))).testStops l =
      ((s.setLane l x).endPull l .examined).retargetWithdraw l := by
    have hdisarmed : ((s.setLane l ((s.lane l).counted old (-1))).upd l fun y => { y with pos := { y.pos with armedB := false } }) =
        s.setLane l x := by
      rw [State.upd_eq_setLane, State.setLane_setLane, State.lane_setLane, hx]
      rfl
    rw [State.testStops, State.testStopA_ahead,
      State.testStopB_reached (r := ((s.lane l).pos.count - 1) * (k : Int)) (u := u), hdisarmed, State.stopBReached]
    any_goals rw [State.lane_setLane]
    · exact hb
    · exact Lane.counted_raw hk old (-1)
    · exact hu
    · exact fun h => by cases hst.symm.trans h
    · exact hreach
    · exact fun r u h => by cases ha.symm.trans h
  have hwithdraw := State.endPull_retarget (s := s.setLane l x) (l := l) .examined (by rw [State.lane_setLane, hx]; exact hon)
    (by rw [State.lane_setLane]; exact hlim)
  have hduty : ((s.setLane l x).lane l).drive.duty = (s.lane l).drive.duty := by rw [State.lane_setLane, hx]
  rw [exec_edge, execEdge_counts hstep (by decide) ((Position.holds_iff hk hk1 _).2 hfit), hstop, hwithdraw, hduty,
    State.testHomeLimit_ahead]
  intro _ _
  have hcontrols := (s.setLane l x).pullEnding_controls l
  rw [State.SameControls, State.lane_setLane] at hcontrols
  rw [State.lane_setLane]
  exact (Lane.controls_atHomeLimit hcontrols).trans hlim

/-- Settles O44: `exec_edge_stopB` gives the next state, `State.pullEnding_emit` the order of R146, `State.pullEnding_closed` the blocks
and `State.pullEnding_controls` the position and the tube. -/
theorem stopBEndsThePull : Obligations.StopBEndsThePull := by
  intro s l u k hst hb ha hon hu hk hk1 hfit hreach hhome
  obtain ⟨old, hold⟩ := exists_forwardOf_eq (s.lane l).pos.phase
  obtain ⟨x, hx⟩ : ∃ x : Lane, x = { s.lane l with
      pos := { (s.lane l).pos with phase := old, count := (s.lane l).pos.count - 1, armedB := false } } := ⟨_, rfl⟩
  have hexec := exec_edge_stopB hst hb ha hon hu hk hk1 hfit hreach hhome hold hx
  have hended := (s.setLane l x).pullEnding_emit l
  have hlane : (((s.setLane l x).pullEnding l).emit l .pullEnded none).lane l = ((s.setLane l x).pullEnding l).lane l :=
    (State.emit_reports _ l _ _).lane l
  have hkeeps := ((State.KeepsTo.setLane l s x).trans (State.pullEnding_keeps _ l)).trans (State.emit_keeps _ l l .pullEnded none)
  have hclosed := (s.setLane l x).pullEnding_closed l
  have hcontrols := (s.setLane l x).pullEnding_controls l
  rw [State.SameControls, State.lane_setLane] at hcontrols
  obtain ⟨hpos, -, -⟩ := Lane.controls_fields hcontrols
  obtain ⟨v, hv, horder, houtcome, hfault⟩ := Lane.controls_tube hcontrols (u := u) (by rw [hx]; exact hu)
  have hraw : (((s.setLane l x).pullEnding l).lane l).pos.raw = some (((s.lane l).pos.count - 1) * (k : Int)) := by
    rw [hpos, hx]
    exact Position.raw_of_scale hk
  generalize ((s.setLane l x).pullEnding l).emit l .pullEnded none = q at hexec hended hlane hkeeps
  rw [← hlane] at hexec hv hraw hclosed
  refine ⟨_, q, v.decideOutcome .examined, old, hold, hexec, hx ▸ hended, rfl,
    (hkeeps.trans (State.KeepsTo.setLane l q _)).other, ?_⟩
  rw [State.lane_setLane]
  refine ⟨rfl, hclosed, rfl, rfl, rfl, rfl, rfl, ?_, ?_, horder, ?_, hfault⟩
  · exact congrArg (fun r => some (StallWindow.mk r 0)) hraw
  · exact congrArg (Option.map fun t => t.decideOutcome .examined) hv
  · exact congrArg (fun o => some (o.getD .examined)) houtcome

end Sys2Proof.Machine

/-! Channels, calibration and mixing (chapter 3): SET_CHANNEL and SET_MIX, the solves in flight, rounding. -/

namespace Sys2Proof.Machine

/-! ### The five commands -/

theorem exec_setChannel (s : State) : exec .setChannel s = execSetChannel s := by rfl

theorem exec_setMix (s : State) : exec .setMix s = execSetMix s := by rfl

theorem exec_spanCal (s : State) : exec .spanCal s = execSpanCal s := by rfl

theorem exec_solveMix (s : State) : exec .solveMix s = execSolveMix s := by rfl

theorem exec_jobCompletion (s : State) : exec .jobCompletion s = execJobCompletion s := by rfl

/-! ### Channels and their activity (R42, R43) -/

theorem Lane.baseActive_of_lt (x : Lane) {n : Nat} (h : n < 16) : x.baseActive n = decide (n < x.exc.slots.length) := by
  simp [Lane.baseActive, h]

/-- A base channel is active while the scan table holds its slot (R42). -/
theorem Lane.active_of_base (x : Lane) {ch : Nat} (h : ch < 16) : x.active ch = decide (ch < x.exc.slots.length) := by
  rw [Lane.active, if_pos h, x.baseActive_of_lt h]

/-- A mix channel is active while both its sources are (R43). -/
theorem Lane.active_of_mix {x : Lane} {ch : Nat} {d : MixDef} (hlo : 16 ≤ ch) (hhi : ch < 20) (hd : (x.mix ch).defn = some d) :
    x.active ch = (x.baseActive d.p && x.baseActive d.q) := by
  simp [Lane.active, Lane.mixActive, hd, hhi, Nat.not_lt.2 hlo]

/-- An undefined mix is not active (R43). -/
theorem Lane.active_of_undefined {x : Lane} {ch : Nat} (hlo : 16 ≤ ch) (hd : (x.mix ch).defn = none) : x.active ch = false := by
  simp [Lane.active, Lane.mixActive, hd, Nat.not_lt.2 hlo]

theorem Lane.base_setBase {x : Lane} {ch : Nat} (h : ch < x.bases.length) (b : BaseChannel) : (x.setBase ch b).base ch = b := by
  simp [Lane.base, Lane.setBase, List.getD_eq_getElem?_getD, List.getElem?_set_self h]

theorem Lane.mix_setMix {x : Lane} {ch : Nat} (h : ch - 16 < x.mixes.length) (m : MixChannel) : (x.setMix ch m).mix ch = m := by
  simp [Lane.mix, Lane.setMix, List.getD_eq_getElem?_getD, List.getElem?_set_self h]

theorem Lane.setMix_baseActive (x : Lane) (ch n : Nat) (m : MixChannel) : (x.setMix ch m).baseActive n = x.baseActive n := rfl

/-! ### SET_CHANNEL (R48, R49) -/

/-- An accepted SET_CHANNEL (R49). -/
theorem handleSetChannel_accepted {p : List Byte} {s : State} {l : LaneId} {cal : Option CalPart} {k : Parts} (hl : laneOf p = some l)
    (hst : (s.lane l).ctl.state = .idle ∨ (s.lane l).ctl.state = .faulted) (hn : p.length = (channelPlaces p).total)
    (hch : u8At p 4 ≤ 15) (hcal : optionalPart (bitAt p 5 0) (calPartAt p 8) = some cal)
    (hk : partsAt p 5 (channelPlaces p) = some k) :
    handleSetChannel p s =
      .done (s.upd l fun x => x.setBase (u8At p 4) ((x.base (u8At p 4)).apply cal k))
        (((s.lane l).setBase (u8At p 4) (((s.lane l).base (u8At p 4)).apply cal k)).channelReply (u8At p 4)) := by
  rw [handleSetChannel, forSetup_accepted _ hl hst hn]
  simp [within, hch, hcal, hk]

/-- Settles O26: the channel's new settings are `BaseChannel.apply` of the old ones, read part by part. -/
theorem setChannelReplacesThePresentParts : Obligations.SetChannelReplacesThePresentParts := by
  intro s p l cal k ht hask hst hn hch hcal hk hlen
  obtain ⟨hkind, hl⟩ := hask
  have hh := handleSetChannel_accepted (s := s.popRequest) hl (by simpa using hst) hn hch hcal hk
  refine ⟨((s.lane l).base (u8At p 4)).apply cal k, ?_, ?_, rfl, rfl, rfl, ?_⟩
  · cases cal <;> rfl
  · cases cal <;> rfl
  · rw [exec_setChannel, execSetChannel, State.handle_takes s _ _ p ht (by rw [← Option.some.inj hkind]; rfl), hh,
      State.popRequest_conclude_upd, State.popRequest_lane, Lane.channelReply, Lane.base_setBase (by omega),
      Lane.active_of_base _ (by omega)]
    rfl

/-! ### SET_MIX (R50, R51) -/

/-- A SET_MIX that passes its checks replaces the mix and reports its activity. -/
theorem State.conclude_setMix (s : State) (p : List Byte) (l : LaneId) (ch : Nat) (m : MixChannel) :
    s.popRequest.conclude p (s.popRequest.setMix l ch m) =
      (s.setLane l ((s.lane l).setMix ch m)).afterReply (replyTo p .ok (.active (((s.lane l).setMix ch m).active ch))) := by
  rw [State.setMix, State.popRequest_conclude_upd, State.lane_upd, State.popRequest_lane]

/-- An accepted definition (R50). -/
theorem handleSetMix_defines {p : List Byte} {s : State} {l : LaneId} {k : Parts} (hl : laneOf p = some l)
    (hst : (s.lane l).ctl.state = .idle ∨ (s.lane l).ctl.state = .faulted) (hact : u8At p 5 = 1)
    (hn : p.length = (mixPlaces p).total) (hlo : 16 ≤ u8At p 4) (hhi : u8At p 4 ≤ 19) (hok : (mixDefAt p).ok = true)
    (hk : partsAt p 6 (mixPlaces p) = some k) :
    handleSetMix p s = s.setMix l (u8At p 4) (((s.lane l).mix (u8At p 4)).define (mixDefAt p) k) := by
  have hdef : mixDefines p = true := by simp [mixDefines, hact]
  rw [handleSetMix, forSetup_accepted _ hl hst (by rw [mixLength, if_pos hdef, hn])]
  simp [within, hlo, hhi, hact, hdef, hok, hk]

/-- An accepted removal (R51). -/
theorem handleSetMix_removes {p : List Byte} {s : State} {l : LaneId} (hl : laneOf p = some l)
    (hst : (s.lane l).ctl.state = .idle ∨ (s.lane l).ctl.state = .faulted) (hact : u8At p 5 = 0) (hn : p.length = 8)
    (hlo : 16 ≤ u8At p 4) (hhi : u8At p 4 ≤ 19) : handleSetMix p s = s.setMix l (u8At p 4) MixChannel.reset := by
  rw [handleSetMix, forSetup_accepted _ hl hst (by simp [mixLength, mixDefines, hact, hn])]
  simp [within, hlo, hhi, hact]

/-- Settles O27: the mix is `MixChannel.define` of what it was, active where both its sources are. -/
theorem setMixDefinesAMix : Obligations.SetMixDefinesAMix := by
  intro s p l k ht hask hst hact hn hlo hhi hp hq hne hk hlen
  obtain ⟨hkind, hl⟩ := hask
  have hok : (mixDefAt p).ok = true := by simpa [MixDef.ok, mixDefAt, within, hp, hq] using hne
  have hh := handleSetMix_defines (s := s.popRequest) hl (by simpa using hst) hact hn hlo hhi hok hk
  obtain ⟨m, hm⟩ : ∃ m, ((s.lane l).mix (u8At p 4)).define (mixDefAt p) k = m := ⟨_, rfl⟩
  have hdefn : m.defn = some (mixDefAt p) := by rw [← hm]; rfl
  refine ⟨_, m, rfl, hdefn, by rw [← hm]; rfl, ?_⟩
  rw [exec_setMix, execSetMix, State.handle_takes s _ _ p ht (by rw [← Option.some.inj hkind]; rfl), hh, State.popRequest_lane, hm,
    State.conclude_setMix,
    Lane.active_of_mix hlo (by omega) (by rw [Lane.mix_setMix (by omega), hdefn]), Lane.setMix_baseActive, Lane.setMix_baseActive,
    Lane.baseActive_of_lt _ (n := (mixDefAt p).p) (Nat.lt_succ_of_le hp),
    Lane.baseActive_of_lt _ (n := (mixDefAt p).q) (Nat.lt_succ_of_le hq)]
  rfl

/-- Settles O28: the mix takes its power-on state, in which it is undefined and so has no value. -/
theorem setMixRemovesAMix : Obligations.SetMixRemovesAMix := by
  intro s p l ht hask hst hact hn hlo hhi hlen
  obtain ⟨hkind, hl⟩ := hask
  have hh := handleSetMix_removes (s := s.popRequest) hl (by simpa using hst) hact hn hlo hhi
  have hoff : ((s.lane l).setMix (u8At p 4) MixChannel.reset).active (u8At p 4) = false :=
    Lane.active_of_undefined hlo (by rw [Lane.mix_setMix (by omega)]; rfl)
  refine ⟨(s.lane l).setMix (u8At p 4) MixChannel.reset, rfl, fun samples => ?_, ?_⟩
  · rw [Lane.channelValue, hoff]
    rfl
  · rw [exec_setMix, execSetMix, State.handle_takes s _ _ p ht (by rw [← Option.some.inj hkind]; rfl), hh, State.conclude_setMix, hoff]

/-! ### SPAN_CAL and SOLVE_MIX (R55, R56, R59) -/

/-- A span of 2 to 256 lines passes its check (R55). -/
theorem spanOk_of_lines {hi lo : Int} (hlt : lo < hi) (hle : hi - lo + 1 ≤ 256) : spanOk hi lo = true := by
  simp [spanOk, hlt, hle]

/-- A span with both ends in the calibration store is held (R55). -/
theorem Lane.spanHeld_of_mem {x : Lane} {hi lo : Int} (hhi : ∃ k ∈ x.store, k.index = hi) (hlo : ∃ k ∈ x.store, k.index = lo) :
    x.spanHeld hi lo = true := by
  simpa [Lane.spanHeld, Lane.storeHolds] using ⟨hhi, hlo⟩

/-- An accepted SPAN_CAL (R55, R56). -/
theorem handleSpanCal_accepted {p : List Byte} {s : State} {l : LaneId} (hl : laneOf p = some l)
    (hst : (s.lane l).ctl.state = .idle ∨ (s.lane l).ctl.state = .faulted) (hn : p.length = 20) (hch : u8At p 4 ≤ 15)
    (hact : u8At p 4 < (s.lane l).exc.slots.length) (ha : 100 ≤ u16At p 6) (ha' : u16At p 6 ≤ 30000) (hph : u16At p 8 ≤ 3599)
    (hspan : spanOk (s32At p 12) (s32At p 16) = true) (hheld : (s.lane l).spanHeld (s32At p 12) (s32At p 16) = true) :
    handleSpanCal p s =
      .inFlight
        (s.appendJob l
          (.span (u8At p 4) (u16At p 6) (u16At p 8) (slotValues ((s.lane l).storeSpan (s32At p 12) (s32At p 16)) (u8At p 4)))) := by
  have hactive := (s.lane l).active_of_base (Nat.lt_succ_of_le hch)
  rw [handleSpanCal, forSetup_accepted _ hl hst hn]
  simp [within, hch, hactive, hact, ha, ha', hph, hspan, hheld]

/-- An accepted SOLVE_MIX (R59). -/
theorem handleSolveMix_accepted {p : List Byte} {s : State} {l : LaneId} {d : MixDef} (hl : laneOf p = some l)
    (hst : (s.lane l).ctl.state = .idle ∨ (s.lane l).ctl.state = .faulted) (hn : p.length = 16) (hlo : 16 ≤ u8At p 4)
    (hhi : u8At p 4 ≤ 19) (hd : ((s.lane l).mix (u8At p 4)).defn = some d) (hp : (s.lane l).baseActive d.p = true)
    (hq : (s.lane l).baseActive d.q = true) (hspan : spanOk (s32At p 8) (s32At p 12) = true)
    (hheld : (s.lane l).spanHeld (s32At p 8) (s32At p 12) = true) :
    handleSolveMix p s =
      .inFlight
        (s.appendJob l
          (.solve (u8At p 4) ((s.lane l).calibratedSpan ((s.lane l).storeSpan (s32At p 8) (s32At p 12)) d.p)
            ((s.lane l).calibratedSpan ((s.lane l).storeSpan (s32At p 8) (s32At p 12)) d.q))) := by
  have hactive : (s.lane l).mixActive (u8At p 4) = true := by simp [Lane.mixActive, hd, hp, hq]
  rw [handleSolveMix, forSetup_accepted _ hl hst hn]
  simp [within, hlo, hhi, hactive, hd, hspan, hheld]

/-- A job in flight is taken at once by an idle engine whose lane has no other (R78, R178). -/
theorem State.conclude_inFlight_idle {s : State} {l : LaneId} (p : List Byte) (j : Job) (h : s.engine.busy = none)
    (hj : (s.lane l).jobs = []) :
    s.popRequest.conclude p (.inFlight (s.popRequest.appendJob l j)) =
      { s with
        engine := { busy := some { lane := l, job := j, discarded := false, doneAt := s.clock + j.runningTime }, servedLast := l },
        link := { s.link with requests := s.link.requests.tail, handler := .working (headerOf p) } } := by
  rw [State.conclude, State.appendJob_idle s.popRequest l j h (by simpa using hj)]
  simp [State.working, State.popRequest]

/-- A job in flight joins the back of its lane's queue while the engine is busy (R77, R178). -/
theorem State.conclude_inFlight_busy {s : State} {l : LaneId} (p : List Byte) (j : Job) (h : s.engine.busy ≠ none) :
    s.popRequest.conclude p (.inFlight (s.popRequest.appendJob l j)) =
      { s.setLane l { s.lane l with jobs := (s.lane l).jobs ++ [j] } with
        link := { s.link with requests := s.link.requests.tail, handler := .working (headerOf p) } } := by
  have hbusy : s.popRequest.engine.busy.isNone = false := by simpa [Option.isNone_eq_false_iff, Option.isSome_iff_ne_none] using h
  rw [State.conclude, State.appendJob_busy _ l j hbusy]
  cases l <;> simp [State.working, State.popRequest, State.setLane]

/-- Settles O38: the checks of R55 and R59 pass, and the job goes to the engine or to the lane's queue. -/
theorem solvesGoInFlight : Obligations.SolvesGoInFlight := by
  refine ⟨fun s p l hi lo n span j ht hask hst hn hch hact ha ha' hph hhi hlo hlt hle hhold hlhold hspan hcount hj => ?_,
    fun s p l hi lo d n span j ht hask hst hn hclo hchi hd hp hq hpa hqa hhi hlo hlt hle hhold hlhold hspan hcount hj => ?_⟩
  all_goals
    obtain ⟨hkind, hl⟩ := hask
    subst hhi hlo
    have hok := spanOk_of_lines hlt hle
    have hheld := Lane.spanHeld_of_mem hhold hlhold
  · have hh := handleSpanCal_accepted (s := s.popRequest) hl (by simpa using hst) hn hch (by simpa using hact) ha ha' hph
      hok (by rwa [State.popRequest_lane])
    have hjob : j = .span (u8At p 4) (u16At p 6) (u16At p 8)
        (slotValues ((s.lane l).storeSpan (s32At p 12) (s32At p 16)) (u8At p 4)) := by rw [hj, hspan]; rfl
    have hrun : j.runningTime = 4000 + 40 * (n * (n - 1) / 2) := by rw [hj, hcount]; simp [Job.runningTime, Job.lines]
    rw [State.popRequest_lane, ← hjob] at hh
    rw [exec_spanCal, execSpanCal, State.handle_takes s _ _ p ht (by rw [← Option.some.inj hkind]; rfl), hh]
    refine ⟨fun hidle hnone => ?_, fun hbusy => ?_⟩
    · rw [State.conclude_inFlight_idle p j hidle hnone, hrun, Nat.add_assoc]
    · rw [State.conclude_inFlight_busy p j hbusy]
  · have hh := handleSolveMix_accepted (s := s.popRequest) hl (by simpa using hst) hn hclo hchi (by simpa using hd)
      (by simpa [Lane.baseActive_of_lt _ hp] using hpa) (by simpa [Lane.baseActive_of_lt _ hq] using hqa)
      hok (by rwa [State.popRequest_lane])
    have hjob : j = .solve (u8At p 4) ((s.lane l).calibratedSpan ((s.lane l).storeSpan (s32At p 8) (s32At p 12)) d.p)
        ((s.lane l).calibratedSpan ((s.lane l).storeSpan (s32At p 8) (s32At p 12)) d.q) := by rw [hj, hspan]; rfl
    have hrun : j.runningTime = 4000 + 40 * n + 40 * (n * (n - 1) / 2) := by rw [hj, hcount]; simp [Job.runningTime, Job.lines]
    rw [State.popRequest_lane, ← hjob] at hh
    rw [exec_solveMix, execSolveMix, State.handle_takes s _ _ p ht (by rw [← Option.some.inj hkind]; rfl), hh]
    refine ⟨fun hidle hnone => ?_, fun hbusy => ?_⟩
    · rw [State.conclude_inFlight_idle p j hidle hnone, hrun]
      simp only [Nat.add_assoc]
    · rw [State.conclude_inFlight_busy p j hbusy]

/-! ### Rounding (00_scope, 5; R54) -/

/-- A rounded quotient times its divisor has the dividend's sign, and its magnitude `m` is the multiple nearest to the dividend's, the
greater one at a half. -/
theorem roundDiv_nearest (n : Int) {d : Nat} (hd : 0 < d) :
    ∃ m : Nat, roundDiv n d * (d : Int) = (if n < 0 then -(m : Int) else m) ∧ 2 * m ≤ 2 * n.natAbs + d ∧
      2 * n.natAbs < 2 * m + d := by
  have hdiv := Nat.div_add_mod (2 * n.natAbs + d) (2 * d)
  have hmod := Nat.mod_lt (2 * n.natAbs + d) (by omega : 0 < 2 * d)
  refine ⟨(2 * n.natAbs + d) / (2 * d) * d, ?_, ?_⟩
  · unfold roundDiv
    split <;> push_cast <;> ring
  · rw [Nat.mul_assoc, Nat.mul_comm d] at hdiv
    omega

/-- A common factor of dividend and divisor does not change a rounded quotient. -/
theorem roundDiv_mul_right (n : Int) (d : Nat) {k : Nat} (hk : 0 < k) : roundDiv (n * (k : Int)) (d * k) = roundDiv n d := by
  have hneg : n * (k : Int) < 0 ↔ n < 0 := by
    simp [mul_neg_iff, hk]
  have hquot : (2 * (n * (k : Int)).natAbs + d * k) / (2 * (d * k)) = (2 * n.natAbs + d) / (2 * d) := by
    rw [Int.natAbs_mul, Int.natAbs_natCast, ← Nat.mul_assoc, ← Nat.mul_assoc, ← Nat.add_mul, Nat.mul_div_mul_right _ _ hk]
  simp only [roundDiv, hquot, hneg]

/-- The search by bits keeps the root between what it has and the weight of the bits to come. -/
theorem isqrtBits_bounds {n : Nat} (k r : Nat) (hlo : r * r ≤ n) (hhi : n < (r + 2 ^ k) * (r + 2 ^ k)) :
    isqrtBits n k r * isqrtBits n k r ≤ n ∧ n < (isqrtBits n k r + 1) * (isqrtBits n k r + 1) := by
  induction k generalizing r with
  | zero => exact ⟨hlo, hhi⟩
  | succ k ih =>
    have hdouble : r + 2 ^ k + 2 ^ k = r + 2 ^ (k + 1) := by rw [Nat.pow_succ]; omega
    rw [isqrtBits]
    split
    · rename_i hbit
      exact ih _ hbit (by rw [hdouble]; exact hhi)
    · rename_i hbit
      exact ih _ hlo (Nat.lt_of_not_le hbit)

/-- `isqrt` is the whole part of the square root. -/
theorem isqrt_bounds (n : Nat) : isqrt n * isqrt n ≤ n ∧ n < (isqrt n + 1) * (isqrt n + 1) := by
  refine isqrtBits_bounds _ 0 (Nat.zero_le _) ?_
  rw [Nat.zero_add, ← Nat.pow_add]
  exact Nat.lt_log2_self.trans_le (Nat.pow_le_pow_right (by decide) (by omega))

/-- Vpp is the integer nearest to the length of the chord (R54). -/
theorem vppOf_nearest (d : Nat) : 4 * d < (2 * vppOf d + 1) ^ 2 ∧ (0 < vppOf d → (2 * vppOf d - 1) ^ 2 < 4 * d) := by
  obtain ⟨hlo, hhi⟩ := isqrt_bounds d
  unfold vppOf
  generalize isqrt d = v at hlo hhi ⊢
  simp only
  split
  · rename_i hup
    have hpred : 2 * (v + 1) - 1 = 2 * v + 1 := by omega
    rw [hpred]
    constructor
    · nlinarith
    · intro
      have : v + v * v < d := by omega
      nlinarith
  · rename_i hdown
    refine ⟨?_, fun hpos => ?_⟩
    · have : d ≤ v + v * v := by omega
      nlinarith
    · obtain ⟨w, rfl⟩ := Nat.exists_eq_succ_of_ne_zero hpos.ne'
      have hpred : 2 * (w + 1) - 1 = 2 * w + 1 := by omega
      rw [Nat.succ_eq_add_one] at hlo ⊢
      rw [hpred]
      nlinarith

/-- Settles O57: `roundDiv_nearest` names the nearest multiple, `vppOf_nearest` the length. -/
theorem roundingIsNearest : Obligations.RoundingIsNearest := by
  refine ⟨fun n d hd => ?_, vppOf_nearest⟩
  obtain ⟨m, hm, hlo, hhi⟩ := roundDiv_nearest n hd
  rw [hm]
  split <;> omega

end Sys2Proof.Machine

/-! The measurement engine's solves (3.6 to 3.8): what JOB_COMPLETION answers, the span solve, the mix solve, the angle and the max
chord. -/

namespace Sys2Proof.Machine

/-! ### The reply to a request in flight (R178) -/

/-- A request in flight is answered with the reply in the slot or on the line, and the handler is FREE (R178, R179). -/
theorem State.answerFlight_link {s : State} {hdr : Header} (h : s.link.handler = .working hdr) (code : ReplyCode) (body : ReplyBody) :
    (s.answerFlight code body).link.handler = .free ∧ (s.answerFlight code body).link.requests = s.link.requests ∧
    ((s.answerFlight code body).link.slot = some { hdr := hdr, code := code, body := body } ∨
      ∃ due, (s.answerFlight code body).link.tx =
        .sending .reply (frameOf ({ hdr := hdr, code := code, body := body } : Reply).payload) due) := by
  rw [State.answerFlight, h]
  simp only [State.placeReply_link]
  split
  · exact ⟨rfl, rfl, .inr ⟨_, rfl⟩⟩
  · exact ⟨rfl, rfl, .inl rfl⟩

/-- From `s` to `t` the link is all that differs. -/
structure State.SameBehindLink (s t : State) : Prop where
  lane : ∀ l, t.lane l = s.lane l
  layouts : t.layouts = s.layouts
  engine : t.engine = s.engine
  pool : t.pool = s.pool
  clock : t.clock = s.clock

/-- The answer to a request in flight changes the link alone. -/
theorem State.answerFlight_same (s : State) (code : ReplyCode) (body : ReplyBody) :
    s.SameBehindLink (s.answerFlight code body) := by
  unfold State.answerFlight
  split
  · rename_i hdr _
    have hr := State.placeReply_reports { s with link := { s.link with handler := .free } } ⟨hdr, code, body⟩
    exact ⟨fun l => hr.lane l, hr.layouts, hr.engine, State.placeReply_pool _ _, hr.clock⟩
  · exact ⟨fun _ => rfl, rfl, rfl, rfl, rfl⟩

/-! ### The engine's choice and FINISH's wait leave the rest alone (R78, R148) -/

/-- The engine's choice takes a job from a queue and leaves the rest of both lanes, the link and record memory (R78). -/
theorem State.engineChoose_frame (s : State) :
    s.engineChoose.pool = s.pool ∧ s.engineChoose.link = s.link ∧ s.engineChoose.layouts = s.layouts ∧
    s.engineChoose.clock = s.clock ∧ ∀ l, s.engineChoose.lane l = { s.lane l with jobs := (s.engineChoose.lane l).jobs } := by
  have take : ∀ (t : State) (l : LaneId), (t.engineTake l).pool = t.pool ∧ (t.engineTake l).link = t.link ∧
      (t.engineTake l).layouts = t.layouts ∧ (t.engineTake l).clock = t.clock ∧
      ∀ k, (t.engineTake l).lane k = { t.lane k with jobs := ((t.engineTake l).lane k).jobs } := fun t l => by
    obtain ⟨_, h⟩ | ⟨j, rest, _, h⟩ := t.engineTake_cases l <;> rw [h]
    · exact ⟨rfl, rfl, rfl, rfl, fun _ => rfl⟩
    · cases l <;> exact ⟨rfl, rfl, rfl, rfl, fun k => by cases k <;> rfl⟩
  have freed := take { s with engine := { s.engine with busy := none } }
  unfold State.engineChoose
  dsimp only
  split
  · exact ⟨rfl, rfl, rfl, rfl, fun l => by cases l <;> rfl⟩
  · exact freed .a
  · exact freed .b
  · exact freed _

/-- FINISH's wait, when it ends, changes the tube's record and nothing else; out of FINISH it changes nothing (R148). -/
theorem State.finishWait_cases (s : State) (l : LaneId) :
    s.finishWait l = s ∨ ((s.lane l).ctl.state = .finish ∧ ∃ f : Tube → Tube, s.finishWait l = s.upd l fun x => x.updTube f) := by
  unfold State.finishWait
  dsimp only
  split
  · rename_i hst _
    split
    · exact .inl rfl
    · exact .inr ⟨hst, fun u => u.locate (s.lane l).detector.landmarks, rfl⟩
  · exact .inl rfl

/-- What the engine takes next depends on the two queues, the lane served last and the clock alone. -/
theorem State.tookNext_congr {s s' t t' : State} (hs : ∀ l, (s'.lane l).jobs = (s.lane l).jobs)
    (hserved : s'.engine.servedLast = s.engine.servedLast) (ht : ∀ l, (t'.lane l).jobs = (t.lane l).jobs)
    (hengine : t'.engine = t.engine) (hclock : t'.clock = t.clock) (h : s.tookNext t) : s'.tookNext t' := by
  have hsa : s'.laneA.jobs = s.laneA.jobs := hs .a
  have hsb : s'.laneB.jobs = s.laneB.jobs := hs .b
  have hta : t'.laneA.jobs = t.laneA.jobs := ht .a
  have htb : t'.laneB.jobs = t.laneB.jobs := ht .b
  unfold State.tookNext at h ⊢
  simpa only [hsa, hsb, hta, htb, hs, ht, hserved, hengine, hclock] using h

/-! ### A completed SPAN or SOLVE job (R57 to R61, R178) -/

/-- The completion of job `e` takes `s` to `t`: the request in flight is answered with `r`, lane `e.lane` is `x` but for its queue and,
in FINISH, its tube record, and the engine has taken the next job. -/
structure State.JobAnswered (s : State) (e : EngineJob) (x : Lane) (r : Reply) (t : State) : Prop where
  exec : exec .jobCompletion s = .next t
  clock : t.clock = max s.clock e.doneAt
  pool : t.pool = s.pool
  layouts : t.layouts = s.layouts
  next : s.tookNext t
  handler : t.link.handler = .free
  requests : t.link.requests = s.link.requests
  reply : t.link.slot = some r ∨ ∃ due, t.link.tx = .sending .reply (frameOf r.payload) due
  other : t.lane (otherLane e.lane) = { s.lane (otherLane e.lane) with jobs := (t.lane (otherLane e.lane)).jobs }
  lane : t.lane e.lane = { x with jobs := (t.lane e.lane).jobs, ctl := (t.lane e.lane).ctl }
  ctl : (s.lane e.lane).ctl.state ≠ .finish → (t.lane e.lane).ctl = (s.lane e.lane).ctl

/-- A job whose delivery sets its lane to `x` and answers the request in flight is answered as the statement says. -/
theorem State.jobAnswered_of_deliver {s : State} {e : EngineJob} {hdr : Header} {x : Lane} {code : ReplyCode} {body : ReplyBody}
    (hbusy : s.engine.busy = some e) (hkept : e.discarded = false) (hwork : s.link.handler = .working hdr)
    (hdel : (s.reach e.doneAt).deliver e.lane e.job = ((s.reach e.doneAt).setLane e.lane x).answerFlight code body)
    (hjobs : x.jobs = (s.lane e.lane).jobs) (hctl : x.ctl = (s.lane e.lane).ctl) :
    ∃ t, s.JobAnswered e x { hdr := hdr, code := code, body := body } t := by
  have hexec : exec .jobCompletion s =
      .next ((((s.reach e.doneAt).setLane e.lane x).answerFlight code body).engineChoose.finishWait e.lane) := by
    rw [exec_jobCompletion, ← hdel]
    simp [execJobCompletion, hbusy, hkept]
  have hwork' : ((s.reach e.doneAt).setLane e.lane x).link.handler = .working hdr := by simpa using hwork
  obtain ⟨hhandler, hrequests, hreply⟩ := State.answerFlight_link hwork' code body
  have hsame := ((s.reach e.doneAt).setLane e.lane x).answerFlight_same code body
  generalize ((s.reach e.doneAt).setLane e.lane x).answerFlight code body = u at *
  have hlane : u.lane e.lane = x := by rw [hsame.lane, State.lane_setLane]
  have hother : u.lane (otherLane e.lane) = s.lane (otherLane e.lane) := by
    rw [hsame.lane, State.lane_setLane_other, State.reach_lane]
  have hqueues : ∀ l, (s.lane l).jobs = (u.lane l).jobs := fun l => by
    obtain rfl | rfl := eq_or_eq_otherLane e.lane l
    · rw [hlane, hjobs]
    · rw [hother]
  have hserved : s.engine.servedLast = u.engine.servedLast := by rw [hsame.engine]; simp
  have hnext := u.engineChoose_tookNext
  obtain ⟨hpool, hlink, hlayouts, hclock, hlanes⟩ := u.engineChoose_frame
  have hcl := hlanes e.lane
  have hco := hlanes (otherLane e.lane)
  rw [hlane] at hcl
  rw [hother] at hco
  have hctl' : (u.engineChoose.lane e.lane).ctl = (s.lane e.lane).ctl := (congrArg Lane.ctl hcl).trans hctl
  have hclock' : u.engineChoose.clock = max s.clock e.doneAt := by rw [hclock, hsame.clock]; simp
  have hpool' : u.engineChoose.pool = s.pool := by rw [hpool, hsame.pool]; simp
  have hlayouts' : u.engineChoose.layouts = s.layouts := by rw [hlayouts, hsame.layouts]; simp
  rw [← hlink] at hhandler hrequests hreply
  rw [State.setLane_link, State.reach_link] at hrequests
  generalize u.engineChoose = w at *
  refine ⟨w.finishWait e.lane, ?_⟩
  obtain hfin | ⟨hst, f, hfin⟩ := w.finishWait_cases e.lane
  · rw [hfin] at hexec ⊢
    exact ⟨hexec, hclock', hpool', hlayouts', State.tookNext_congr hqueues hserved (fun _ => rfl) rfl rfl hnext, hhandler, hrequests,
      hreply, hco, by rw [hcl], fun _ => hctl'⟩
  · rw [hfin] at hexec ⊢
    have hkeep : ∀ l, ((w.upd e.lane fun y => y.updTube f).lane l).jobs = (w.lane l).jobs := fun l => by
      obtain rfl | rfl := eq_or_eq_otherLane e.lane l
      · rw [State.lane_upd, Lane.updTube_jobs]
      · rw [State.lane_upd_other]
    refine ⟨hexec, ?_, ?_, ?_, State.tookNext_congr hqueues hserved hkeep (State.upd_engine ..) (State.upd_clock ..) hnext, ?_, ?_, ?_,
      ?_, ?_, fun hne => absurd (hctl' ▸ hst) hne⟩
    · rw [State.upd_clock, hclock']
    · rw [State.upd_pool, hpool']
    · rw [State.upd_layouts, hlayouts']
    · rw [State.upd_link, hhandler]
    · rw [State.upd_link, hrequests]
    · rw [State.upd_link]
      exact hreply
    · rw [State.lane_upd_other]
      exact hco
    · rw [State.lane_upd, hcl]
      rfl

/-- A SPAN job's delivery installs the coefficient found, or nothing, and answers (R57, R58). -/
theorem State.deliver_span_cases (s : State) (l : LaneId) (ch amplitude phase : Nat) {values : List Vec} {k : Chord}
    (hk : maxChord values = some k) :
    ∃ (bases : List BaseChannel) (code : ReplyCode) (body : ReplyBody),
      s.deliver l (.span ch amplitude phase values) = (s.setLane l { s.lane l with bases := bases }).answerFlight code body ∧
      ((∃ kc ks, solveSpan amplitude phase k = .ok (kc, ks) ∧
          bases = (s.lane l).bases.set ch { (s.lane l).base ch with kc := kc, ks := ks } ∧ code = .ok ∧
          body = .spanCal (angleTenths k.c) (vppOf k.d) (some (kc, ks))) ∨
        (solveSpan amplitude phase k = .error .spanWeak ∧ bases = (s.lane l).bases ∧ code = .spanWeak ∧
          body = .spanCal (angleTenths k.c) (vppOf k.d) none) ∨
        (solveSpan amplitude phase k = .error .gainRange ∧ bases = (s.lane l).bases ∧ code = .gainRange ∧
          body = .spanCal (angleTenths k.c) (vppOf k.d) none)) := by
  rw [State.deliver, State.deliverSpan, hk, Option.getD_some]
  rcases solveSpan amplitude phase k with (_ | _) | ⟨kc, ks⟩
  · exact ⟨_, _, _, by rw [State.setLane_lane]; rfl, .inr (.inl ⟨rfl, rfl, rfl, rfl⟩)⟩
  · exact ⟨_, _, _, by rw [State.setLane_lane]; rfl, .inr (.inr ⟨rfl, rfl, rfl, rfl⟩)⟩
  · exact ⟨_, _, _, rfl, .inl ⟨kc, ks, rfl, rfl, rfl, rfl⟩⟩

/-- The residual Vpp is that of the mix values' max chord (R60). -/
theorem residualVpp_eq {mc ms : Int} {ps qs : List Vec} {k : Chord} (h : maxChord (List.zipWith (mixValue mc ms) ps qs) = some k) :
    residualVpp mc ms ps qs = vppOf k.d := by rw [residualVpp, h]

/-- A SOLVE job's delivery to a defined mix installs the coefficient found, or nothing, and answers (R60, R61). -/
theorem State.deliver_solve_cases (s : State) (l : LaneId) (ch : Nat) (ps qs : List Vec) {d : MixDef}
    (hd : ((s.lane l).mix ch).defn = some d) :
    ∃ (mixes : List MixChannel) (code : ReplyCode) (body : ReplyBody),
      s.deliver l (.solve ch ps qs) = (s.setLane l { s.lane l with mixes := mixes }).answerFlight code body ∧
      ((∃ mc ms, solveMixCoefficient ps qs = .ok (mc, ms) ∧
          mixes = (s.lane l).mixes.set (ch - 16) { (s.lane l).mix ch with defn := some { d with mc := mc, ms := ms } } ∧
          code = .ok ∧ body = .solveMix mc ms (residualVpp mc ms ps qs)) ∨
        (solveMixCoefficient ps qs = .error .spanWeak ∧ mixes = (s.lane l).mixes ∧ code = .spanWeak ∧ body = .empty) ∨
        (solveMixCoefficient ps qs = .error .gainRange ∧ mixes = (s.lane l).mixes ∧ code = .gainRange ∧ body = .empty)) := by
  rw [State.deliver, State.deliverSolve]
  rcases solveMixCoefficient ps qs with (_ | _) | ⟨mc, ms⟩
  · exact ⟨_, _, _, by rw [State.setLane_lane]; rfl, .inr (.inl ⟨rfl, rfl, rfl, rfl⟩)⟩
  · exact ⟨_, _, _, by rw [State.setLane_lane]; rfl, .inr (.inr ⟨rfl, rfl, rfl, rfl⟩)⟩
  · exact ⟨_, _, _, rfl, .inl ⟨mc, ms, rfl, by rw [hd]; rfl, rfl, rfl⟩⟩

/-! ### The mix solve (R60) -/

/-- The sums of a mix solve are the sums over the pairs of values (R60). -/
theorem mixSums_eq {ps qs : List Vec} (h : ps.length = qs.length) :
    (mixSums ps qs).1 = (List.zipWith (fun p q : Vec => p.x * q.x + p.y * q.y) ps qs).sum ∧
    (mixSums ps qs).2.1 = (List.zipWith (fun p q : Vec => p.y * q.x - p.x * q.y) ps qs).sum ∧
    ((mixSums ps qs).2.2 : Int) = (qs.map fun q => q.x * q.x + q.y * q.y).sum := by
  induction ps generalizing qs with
  | nil => cases List.length_eq_zero_iff.1 h.symm; exact ⟨rfl, rfl, rfl⟩
  | cons p ps ih =>
    cases qs with
    | nil => cases h
    | cons q qs =>
      obtain ⟨hr, hi, hden⟩ := ih (Nat.succ.inj h)
      have hsq : ((q.x * q.x + q.y * q.y).natAbs : Int) = q.x * q.x + q.y * q.y :=
        Int.natAbs_of_nonneg (add_nonneg (mul_self_nonneg _) (mul_self_nonneg _))
      simp only [mixSums, List.zipWith_cons_cons, List.map_cons, List.sum_cons, hr, hi, ← hden, Nat.cast_add, hsq, true_and]

theorem fitsS16_and_iff (a b : Int) :
    (fitsS16 a && fitsS16 b) = true ↔ -32768 ≤ a ∧ a ≤ 32767 ∧ -32768 ≤ b ∧ b ≤ 32767 := by
  simp [fitsS16, and_assoc]

/-- The coefficient of a mix solve: the rounded quotients of the sums, where they fit 16 bits (R60). -/
theorem solveMixCoefficient_eq {ps qs : List Vec} {nr ni den : Int} (hr : (mixSums ps qs).1 = nr) (hi : (mixSums ps qs).2.1 = ni)
    (hden : ((mixSums ps qs).2.2 : Int) = den) :
    (den = 0 → solveMixCoefficient ps qs = .error .spanWeak) ∧
    (den ≠ 0 → ∀ mc ms : Int, mc = roundDiv (4096 * nr) den.natAbs → ms = roundDiv (4096 * ni) den.natAbs →
      solveMixCoefficient ps qs =
        if -32768 ≤ mc ∧ mc ≤ 32767 ∧ -32768 ≤ ms ∧ ms ≤ 32767 then .ok (mc, ms) else .error .gainRange) := by
  have habs : den.natAbs = (mixSums ps qs).2.2 := by rw [← hden, Int.natAbs_natCast]
  refine ⟨fun h0 => ?_, fun h0 mc ms hmc hms => ?_⟩
  · rw [solveMixCoefficient, if_pos (by rw [← habs, h0]; rfl)]
  · rw [solveMixCoefficient, if_neg (by rw [← habs]; exact Int.natAbs_ne_zero.2 h0), hr, hi, ← habs, ← hmc, ← hms]
    simp only [fitsS16_and_iff]

/-! ### The max chord (R54) -/

/-- Of the chords from `p` to the values behind it, the first of the longest, where it is longer than the best so far (R54). -/
theorem chordsFrom_cases (p : Vec) (rest : List Vec) (best : Option Chord) :
    (chordsFrom p rest best = best ∧ ∀ q ∈ rest, ∃ b ∈ best, (chordOf p q).d ≤ b.d) ∨
    ∃ (j : Nat) (q : Vec), rest[j]? = some q ∧ chordsFrom p rest best = some (chordOf p q) ∧
      (∀ b ∈ best, b.d < (chordOf p q).d) ∧
      ∀ (j' : Nat) (q' : Vec), rest[j']? = some q' →
        (chordOf p q').d ≤ (chordOf p q).d ∧ ((chordOf p q').d = (chordOf p q).d → j ≤ j') := by
  induction rest generalizing best with
  | nil => exact .inl ⟨rfl, nofun⟩
  | cons q rest ih =>
    rw [chordsFrom]
    by_cases hb : ∃ b ∈ best, (chordOf p q).d ≤ b.d
    · have hstay : betterChord best (chordOf p q) = best := by
        obtain ⟨b, hmem, hle⟩ := hb
        cases hmem
        exact if_neg (Nat.not_lt.2 hle)
      rw [hstay]
      obtain ⟨heq, hall⟩ | ⟨j, q₁, hj, heq, hlt, hfirst⟩ := ih best
      · exact .inl ⟨heq, List.forall_mem_cons.2 ⟨hb, hall⟩⟩
      · refine .inr ⟨j + 1, q₁, hj, heq, hlt, fun j' q' hj' => ?_⟩
        cases j' with
        | zero =>
          cases hj'
          obtain ⟨b, hmem, hle⟩ := hb
          have := hlt b hmem
          omega
        | succ j' =>
          have := hfirst j' q' hj'
          omega
    · have htake : betterChord best (chordOf p q) = some (chordOf p q) := by
        cases best with
        | none => rfl
        | some b => exact if_pos (Nat.lt_of_not_le fun hle => hb ⟨b, rfl, hle⟩)
      have hlonger : ∀ b ∈ best, b.d < (chordOf p q).d := fun b hmem => Nat.lt_of_not_le fun hle => hb ⟨b, hmem, hle⟩
      rw [htake]
      obtain ⟨heq, hall⟩ | ⟨j, q₁, hj, heq, hlt, hfirst⟩ := ih (some (chordOf p q))
      · refine .inr ⟨0, q, rfl, heq, hlonger, fun j' q' hj' => ?_⟩
        cases j' with
        | zero => cases hj'; exact ⟨le_rfl, fun _ => le_rfl⟩
        | succ j' =>
          obtain ⟨b, hmem, hle⟩ := hall q' (List.mem_of_getElem? hj')
          cases hmem
          exact ⟨hle, fun _ => Nat.zero_le _⟩
      · have hq := hlt _ rfl
        refine .inr ⟨j + 1, q₁, hj, heq, fun b hmem => (hlonger b hmem).trans hq, fun j' q' hj' => ?_⟩
        cases j' with
        | zero => cases hj'; omega
        | succ j' =>
          have := hfirst j' q' hj'
          omega

/-- The chord of the pair (i, j) of the values, which is the first of the longest (R54). -/
def FirstLongest (values : List Vec) (k : Chord) (i j : Nat) : Prop :=
  ∃ p q : Vec, i < j ∧ values[i]? = some p ∧ values[j]? = some q ∧ k = chordOf p q ∧
    ∀ (i' j' : Nat) (p' q' : Vec), i' < j' → values[i']? = some p' → values[j']? = some q' →
      (chordOf p' q').d ≤ k.d ∧ ((chordOf p' q').d = k.d → i < i' ∨ (i = i' ∧ j ≤ j'))

/-- A pair of a sequence is one of its first value with a later one, or one of the values behind the first. -/
theorem pair_cons {p : Vec} {rest : List Vec} {i j : Nat} {p' q' : Vec} (hij : i < j) (hi : (p :: rest)[i]? = some p')
    (hj : (p :: rest)[j]? = some q') :
    (i = 0 ∧ p' = p ∧ ∃ m, j = m + 1 ∧ rest[m]? = some q') ∨
    (∃ n m, i = n + 1 ∧ j = m + 1 ∧ n < m ∧ rest[n]? = some p' ∧ rest[m]? = some q') := by
  obtain ⟨m, rfl⟩ := Nat.exists_eq_succ_of_ne_zero (by omega : j ≠ 0)
  cases i with
  | zero => exact .inl ⟨rfl, (Option.some.inj hi).symm, m, rfl, hj⟩
  | succ n => exact .inr ⟨n, m, rfl, rfl, by omega, hi, hj⟩

/-- The search keeps the best chord so far, or finds the first of the longest, which is then longer (R54). -/
theorem maxChordFrom_cases (values : List Vec) (best : Option Chord) :
    (maxChordFrom values best = best ∧
      ∀ (i j : Nat) (p q : Vec), i < j → values[i]? = some p → values[j]? = some q → ∃ b ∈ best, (chordOf p q).d ≤ b.d) ∨
    ∃ (k : Chord) (i j : Nat), maxChordFrom values best = some k ∧ FirstLongest values k i j ∧ ∀ b ∈ best, b.d < k.d := by
  induction values generalizing best with
  | nil => exact .inl ⟨rfl, fun _ _ _ _ _ h => by cases h⟩
  | cons p rest ih =>
    rw [maxChordFrom]
    obtain ⟨heq, hall⟩ | ⟨j, q, hj, heq, hlt, hfirst⟩ := chordsFrom_cases p rest best <;> rw [heq]
    · obtain ⟨hmax, hpairs⟩ | ⟨k, i₁, j₁, hmax, ⟨p₁, q₁, hij, hi₁, hj₁, hk, hlongest⟩, hbest⟩ := ih best
      · refine .inl ⟨hmax, fun i' j' p' q' hij' hi' hj' => ?_⟩
        obtain ⟨rfl, rfl, m, rfl, hm⟩ | ⟨n, m, rfl, rfl, hnm, hn, hm⟩ := pair_cons hij' hi' hj'
        · exact hall q' (List.mem_of_getElem? hm)
        · exact hpairs n m p' q' hnm hn hm
      · refine .inr ⟨k, i₁ + 1, j₁ + 1, hmax, ⟨p₁, q₁, by omega, hi₁, hj₁, hk, fun i' j' p' q' hij' hi' hj' => ?_⟩, hbest⟩
        obtain ⟨rfl, rfl, m, rfl, hm⟩ | ⟨n, m, rfl, rfl, hnm, hn, hm⟩ := pair_cons hij' hi' hj'
        · obtain ⟨b, hmem, hle⟩ := hall q' (List.mem_of_getElem? hm)
          have := hbest b hmem
          omega
        · have := hlongest n m p' q' hnm hn hm
          omega
    · obtain ⟨hmax, hpairs⟩ | ⟨k, i₁, j₁, hmax, ⟨p₁, q₁, hij, hi₁, hj₁, hk, hlongest⟩, hbest⟩ := ih (some (chordOf p q))
      · refine .inr ⟨chordOf p q, 0, j + 1, hmax, ⟨p, q, by omega, rfl, hj, rfl, fun i' j' p' q' hij' hi' hj' => ?_⟩, hlt⟩
        obtain ⟨rfl, rfl, m, rfl, hm⟩ | ⟨n, m, rfl, rfl, hnm, hn, hm⟩ := pair_cons hij' hi' hj'
        · have := hfirst m q' hm
          omega
        · obtain ⟨b, hmem, hle⟩ := hpairs n m p' q' hnm hn hm
          cases hmem
          omega
      · have hlonger := hbest _ rfl
        refine .inr ⟨k, i₁ + 1, j₁ + 1, hmax, ⟨p₁, q₁, by omega, hi₁, hj₁, hk, fun i' j' p' q' hij' hi' hj' => ?_⟩,
          fun b hmem => (hlt b hmem).trans hlonger⟩
        obtain ⟨rfl, rfl, m, rfl, hm⟩ | ⟨n, m, rfl, rfl, hnm, hn, hm⟩ := pair_cons hij' hi' hj'
        · have := hfirst m q' hm
          omega
        · have := hlongest n m p' q' hnm hn hm
          omega

/-- Fewer than two values have no chord; of two or more the max chord is the first of the longest (R54). -/
theorem maxChord_firstLongest (values : List Vec) :
    (values.length < 2 → maxChord values = none) ∧
    (2 ≤ values.length → ∃ (k : Chord) (i j : Nat), maxChord values = some k ∧ FirstLongest values k i j) := by
  obtain ⟨hmax, hpairs⟩ | ⟨k, i, j, hmax, hk, -⟩ := maxChordFrom_cases values none
  · refine ⟨fun _ => hmax, fun hlen => ?_⟩
    obtain ⟨b, hb, -⟩ := hpairs 0 1 _ _ Nat.zero_lt_one (List.getElem?_eq_getElem (by omega)) (List.getElem?_eq_getElem (by omega))
    cases hb
  · refine ⟨fun hlen => ?_, fun _ => ⟨k, i, j, hmax, hk⟩⟩
    obtain ⟨p, q, hij, -, hj, -⟩ := hk
    have := (List.getElem?_eq_some_iff.1 hj).1
    omega

/-! ### The span solve (R57) -/

section SpanSolve

open Real

/-- The whole numbers that `twiceCos` gives are twice the cosine (R57). -/
theorem twiceCos_cos {phi : ℕ} {h : ℤ} (e : twiceCos phi = some h) : cos (phi * (π / 1800)) = h / 2 := by
  unfold twiceCos at e
  split at e <;> cases e
  · simp
  · rw [show ((600 : ℕ) : ℝ) * (π / 1800) = π / 3 by push_cast; ring, cos_pi_div_three]; norm_num
  · rw [show ((900 : ℕ) : ℝ) * (π / 1800) = π / 2 by push_cast; ring, cos_pi_div_two]; norm_num
  · rw [show ((1200 : ℕ) : ℝ) * (π / 1800) = π - π / 3 by push_cast; ring, cos_pi_sub, cos_pi_div_three]; norm_num
  · rw [show ((1800 : ℕ) : ℝ) * (π / 1800) = π by push_cast; ring, cos_pi]; norm_num
  · rw [show ((2400 : ℕ) : ℝ) * (π / 1800) = π / 3 + π by push_cast; ring, cos_add_pi, cos_pi_div_three]; norm_num
  · rw [show ((2700 : ℕ) : ℝ) * (π / 1800) = π / 2 + π by push_cast; ring, cos_add_pi, cos_pi_div_two]; norm_num
  · rw [show ((3000 : ℕ) : ℝ) * (π / 1800) = 2 * π - π / 3 by push_cast; ring, cos_two_pi_sub, cos_pi_div_three]; norm_num

/-- Three quarter turns on, the cosine is the sine. -/
theorem cos_three_quarters_on {phi : ℕ} (h : phi < 3600) :
    cos (((phi + 2700) % 3600 : ℕ) * (π / 1800)) = sin (phi * (π / 1800)) := by
  have hon : cos (((phi + 2700 : ℕ) : ℝ) * (π / 1800)) = sin (phi * (π / 1800)) := by
    have e : ((phi + 2700 : ℕ) : ℝ) * (π / 1800) = (phi * (π / 1800) - π / 2) + 2 * π := by push_cast; ring
    rw [e, cos_add_two_pi, cos_sub_pi_div_two]
  obtain hlt | hge := Nat.lt_or_ge (phi + 2700) 3600
  · rw [Nat.mod_eq_of_lt hlt, hon]
  · have e : ((phi + 2700 : ℕ) : ℝ) * (π / 1800) = (((phi + 2700) % 3600 : ℕ) : ℝ) * (π / 1800) + 2 * π := by
      have : phi + 2700 = (phi + 2700) % 3600 + 3600 := by omega
      have h' : ((phi + 2700 : ℕ) : ℝ) = (((phi + 2700) % 3600 : ℕ) : ℝ) + 3600 := by exact_mod_cast this
      rw [h']; ring
    rw [← hon, e, cos_add_two_pi]

/-- A bounded value lies within its bound of the true one, and the bound is no greater than the fixed point's (log entry 22). -/
theorem bounded_close {p : ℕ} (hp : 1 ≤ p) {exact : Option ℤ} {approx : ℤ} {w : ℝ} (he : ∀ h, exact = some h → w = h / 2)
    (ha : |(approx : ℝ) - 2 ^ p * w| ≤ 2 ^ (p / 2)) :
    |((bounded p exact approx).1 : ℝ) - 2 ^ p * w| ≤ (bounded p exact approx).2 ∧
    ((bounded p exact approx).2 : ℝ) ≤ 2 ^ (p / 2) := by
  cases exact with
  | none => simpa [bounded] using ha
  | some h =>
    have hpow : (2 : ℝ) ^ p = 2 ^ (p - 1) * 2 := by rw [← pow_succ, Nat.sub_add_cancel hp]
    have hzero : (h : ℝ) * 2 ^ (p - 1) - 2 ^ p * w = 0 := by
      rw [he h rfl, hpow]
      ring
    simp [bounded, hzero]

/-- A rounded scaled sum lies within a half, and the scaled error of its terms, of the true value. -/
theorem roundDiv_scaled_close {amplitude d p : ℕ} (hd : 0 < d) {m : ℤ} {T E : ℝ} (h : |(m : ℝ) - 2 ^ p * T| ≤ E) :
    |(roundDiv (4096 * amplitude * m) (d * 2 ^ p) : ℝ) - 4096 * amplitude * T / d| ≤
      1 / 2 + 4096 * amplitude * E / (d * 2 ^ p) := by
  have hd' : (0 : ℝ) < d := by exact_mod_cast hd
  have hP : (0 : ℝ) < 2 ^ p := by positivity
  have hr := roundDiv_real (4096 * amplitude * m) (b := d * 2 ^ p) (by positivity)
  have hq : |((4096 * amplitude * m : ℤ) : ℝ) / ((d * 2 ^ p : ℕ) : ℝ) - 4096 * amplitude * T / d| ≤
      4096 * amplitude * E / (d * 2 ^ p) := by
    have e : ((4096 * amplitude * m : ℤ) : ℝ) / ((d * 2 ^ p : ℕ) : ℝ) - 4096 * amplitude * T / d =
        4096 * amplitude * (m - 2 ^ p * T) / (d * 2 ^ p) := by
      push_cast
      field_simp
    rw [e, abs_div, abs_mul, abs_of_nonneg (by positivity : (0 : ℝ) ≤ 4096 * amplitude), abs_of_pos (mul_pos hd' hP)]
    gcongr
  exact (abs_sub_le _ _ _).trans (add_le_add hr hq)

/-- Two terms with errors `e` and `f` of their factors. -/
theorem weighted_pair_close {u v c s : ℤ} {P C S e f : ℝ} (hc : |(c : ℝ) - P * C| ≤ e) (hs : |(s : ℝ) - P * S| ≤ f) :
    |((u * c + v * s : ℤ) : ℝ) - P * (u * C + v * S)| ≤ (u.natAbs : ℝ) * e + (v.natAbs : ℝ) * f := by
  have h : ((u * c + v * s : ℤ) : ℝ) - P * (u * C + v * S) = u * (c - P * C) + v * (s - P * S) := by push_cast; ring
  rw [h, Nat.cast_natAbs, Nat.cast_natAbs, Int.cast_abs, Int.cast_abs]
  refine (abs_add_le _ _).trans (add_le_add ?_ ?_) <;> rw [abs_mul] <;> gcongr

/-- Whatever precision decides, a turned value is the true one but for its rounding and the error of 128 places (R57; log entry
22). -/
theorem turnedFrom_close {amplitude d phi : ℕ} (hd : 0 < d) (hphi : phi < 3600) (u v : ℤ) (fuel p : ℕ) (hp : 128 ≤ p) :
    |(turnedFrom amplitude d u v phi fuel p : ℝ) -
        4096 * amplitude * (u * cos (phi * (π / 1800)) + v * sin (phi * (π / 1800))) / d| ≤
      1 / 2 + 4096 * amplitude * (2 * ((u.natAbs : ℝ) + v.natAbs)) / (d * 2 ^ 64) := by
  have hd' : (0 : ℝ) < d := by exact_mod_cast hd
  have units : ∀ (q : ℕ) (E : ℝ), 128 ≤ q → E ≤ 2 * ((u.natAbs : ℝ) + v.natAbs) * 2 ^ (q / 2) →
      1 / 2 + 4096 * amplitude * E / (d * 2 ^ q) ≤
        1 / 2 + 4096 * amplitude * (2 * ((u.natAbs : ℝ) + v.natAbs)) / (d * 2 ^ 64) := fun q E hq hE => by
    have hpow : (2 : ℝ) ^ (q / 2) * 2 ^ 64 ≤ 2 ^ q := by
      rw [← pow_add]
      exact pow_le_pow_right₀ (by norm_num) (by omega)
    have hcoef : (0 : ℝ) ≤ 4096 * amplitude * (2 * ((u.natAbs : ℝ) + v.natAbs)) := by positivity
    gcongr 1 / 2 + ?_
    rw [div_le_div_iff₀ (by positivity) (by positivity)]
    calc 4096 * amplitude * E * (d * 2 ^ 64)
        ≤ 4096 * amplitude * (2 * ((u.natAbs : ℝ) + v.natAbs) * 2 ^ (q / 2)) * (d * 2 ^ 64) := by gcongr
      _ = 4096 * amplitude * (2 * ((u.natAbs : ℝ) + v.natAbs)) * (d * (2 ^ (q / 2) * 2 ^ 64)) := by ring
      _ ≤ 4096 * amplitude * (2 * ((u.natAbs : ℝ) + v.natAbs)) * (d * 2 ^ q) := by gcongr
  induction fuel generalizing p with
  | zero =>
    obtain ⟨hc, hs⟩ := cosSinTenths_close hp hphi
    refine (roundDiv_scaled_close hd (weighted_pair_close (u := u) (v := v) hc hs)).trans (units p _ hp ?_)
    have : (0 : ℝ) ≤ ((u.natAbs : ℝ) + v.natAbs) * 2 ^ (p / 2) := by positivity
    linarith
  | succ fuel ih =>
    obtain ⟨hc, hs⟩ := cosSinTenths_close hp hphi
    obtain ⟨hbc, hbc'⟩ := bounded_close (by omega) (fun h e => twiceCos_cos e) hc
    obtain ⟨hbs, hbs'⟩ := bounded_close (by omega)
      (fun h e => (cos_three_quarters_on hphi).symm.trans (twiceCos_cos (phi := (phi + 2700) % 3600) e)) hs
    rw [turnedFrom]
    split
    · generalize bounded p (twiceCos phi) (cosSinTenths p phi).1 = c at *
      generalize bounded p (twiceCos ((phi + 2700) % 3600)) (cosSinTenths p phi).2 = s at *
      have hsum := weighted_pair_close (u := u) (v := v) hbc hbs
      have hE : (((u.natAbs * c.2 + v.natAbs * s.2 : ℕ) : ℤ) : ℝ) = (u.natAbs : ℝ) * c.2 + (v.natAbs : ℝ) * s.2 := by
        rw [Int.cast_natCast, Nat.cast_add, Nat.cast_mul, Nat.cast_mul]
      refine (roundDiv_scaled_close hd (E := 2 * ((u.natAbs : ℝ) * c.2 + (v.natAbs : ℝ) * s.2)) ?_).trans (units p _ hp ?_)
      · rw [Int.cast_sub, hE]
        rw [abs_le] at hsum ⊢
        constructor <;> linarith [hsum.1, hsum.2]
      · have h1 := mul_le_mul_of_nonneg_left hbc' (Nat.cast_nonneg (α := ℝ) u.natAbs)
        have h2 := mul_le_mul_of_nonneg_left hbs' (Nat.cast_nonneg (α := ℝ) v.natAbs)
        linarith
    · exact ih (2 * p) (by omega)

/-- A chord of 64 counts or more has components that are small beside its squared length. -/
theorem natAbs_add_natAbs_le {x y : ℤ} {d : ℕ} (hd : (d : ℤ) = x * x + y * y) (h : 4096 ≤ d) : 32 * (x.natAbs + y.natAbs) ≤ d := by
  have hsq : d = x.natAbs * x.natAbs + y.natAbs * y.natAbs := by
    zify
    rw [hd, abs_mul_abs_self, abs_mul_abs_self]
  generalize x.natAbs = a at hsq ⊢
  generalize y.natAbs = b at hsq ⊢
  by_contra hlt
  have hmean : (a + b) * (a + b) ≤ 2 * d := by
    zify at hsq ⊢
    nlinarith [sq_nonneg ((a : ℤ) - b)]
  have hsquare : d * d ≤ 32 * (a + b) * (32 * (a + b)) := Nat.mul_self_le_mul_self (Nat.le_of_not_le hlt)
  nlinarith

/-- A turned value of a chord of 64 counts or more is the true one but for its rounding and 2^-40 of a unit (R57; log entry 22). -/
theorem turned_close {amplitude d phi : ℕ} {u v : ℤ} (ha : amplitude ≤ 30000) (hphi : phi < 3600) (hd : (d : ℤ) = u * u + v * v)
    (h : 4096 ≤ d) :
    |(turned amplitude d u v phi : ℝ) -
        4096 * amplitude * (u * cos (phi * (π / 1800)) + v * sin (phi * (π / 1800))) / d| ≤ 1 / 2 + 1 / 2 ^ 40 := by
  refine (turnedFrom_close (by omega) hphi u v 12 128 le_rfl).trans ?_
  have hsmall : (32 : ℝ) * ((u.natAbs : ℝ) + v.natAbs) ≤ d := by exact_mod_cast natAbs_add_natAbs_le hd h
  have ha' : (amplitude : ℝ) ≤ 30000 := by exact_mod_cast ha
  have hd' : (0 : ℝ) < d := by exact_mod_cast (by omega : 0 < d)
  gcongr 1 / 2 + ?_
  rw [div_le_div_iff₀ (by positivity) (by positivity)]
  calc 4096 * (amplitude : ℝ) * (2 * ((u.natAbs : ℝ) + v.natAbs)) * (2 : ℝ) ^ 40
      = 256 * amplitude * (32 * ((u.natAbs : ℝ) + v.natAbs)) * (2 : ℝ) ^ 40 := by ring
    _ ≤ 256 * 30000 * d * (2 : ℝ) ^ 40 := by gcongr
    _ ≤ 1 * (d * (2 : ℝ) ^ 64) := by nlinarith

/-- At a whole quarter turn a turned value is the rounded quotient itself, whatever the precision (R57). -/
theorem turnedFrom_exact {amplitude d phi : ℕ} {u v c s : ℤ} (hc : twiceCos phi = some (2 * c))
    (hs : twiceCos ((phi + 2700) % 3600) = some (2 * s)) (fuel p : ℕ) :
    turnedFrom amplitude d u v phi (fuel + 1) (p + 1) = roundDiv (4096 * (amplitude : ℤ) * (u * c + v * s)) d := by
  have hscaled : roundDiv (4096 * (amplitude : ℤ) * (u * (2 * c * 2 ^ p) + v * (2 * s * 2 ^ p))) (d * 2 ^ (p + 1)) =
      roundDiv (4096 * (amplitude : ℤ) * (u * c + v * s)) d := by
    have hfactor : 4096 * (amplitude : ℤ) * (u * (2 * c * 2 ^ p) + v * (2 * s * 2 ^ p)) =
        4096 * (amplitude : ℤ) * (u * c + v * s) * ((2 ^ (p + 1) : ℕ) : ℤ) := by
      push_cast
      ring
    rw [hfactor, roundDiv_mul_right _ _ (Nat.two_pow_pos _)]
  rw [turnedFrom]
  simp only [hc, hs, bounded, Nat.add_sub_cancel, Nat.mul_zero, Nat.cast_zero, sub_zero, add_zero, if_true, hscaled]

theorem turned_exact {amplitude d phi : ℕ} {u v c s : ℤ} (hc : twiceCos phi = some (2 * c))
    (hs : twiceCos ((phi + 2700) % 3600) = some (2 * s)) :
    turned amplitude d u v phi = roundDiv (4096 * (amplitude : ℤ) * (u * c + v * s)) d := turnedFrom_exact hc hs 11 127

/-- The sine and cosine of the angle from a chord to the target phase, by the chord's components (R57). -/
theorem chord_turn {x y d a φ θ : ℝ} (hd : 0 < d) (hx : x = √d * cos θ) (hy : y = √d * sin θ) :
    4096 * (a / √d) * cos (φ - θ) = 4096 * a * (x * cos φ + y * sin φ) / d ∧
    4096 * (a / √d) * sin (φ - θ) = 4096 * a * (-y * cos φ + x * sin φ) / d := by
  obtain ⟨r, hr, rfl⟩ : ∃ r : ℝ, 0 < r ∧ d = r * r := ⟨√d, Real.sqrt_pos.2 hd, (Real.mul_self_sqrt hd.le).symm⟩
  rw [Real.sqrt_mul_self hr.le] at hx hy ⊢
  rw [cos_sub, sin_sub, hx, hy]
  constructor <;> field_simp
  ring

/-- The coefficient of a span solve: SPAN_WEAK below 64 counts; from there on the chord turned and scaled to the target, rounded, where
it fits 16 bits (R57). -/
theorem solveSpan_eq {amplitude phi : ℕ} {k : Chord} :
    (k.d < 4096 → solveSpan amplitude phi k = .error .spanWeak) ∧
    (4096 ≤ k.d → ∀ kc ks : ℤ, kc = turned amplitude k.d k.c.x k.c.y phi → ks = turned amplitude k.d (-k.c.y) k.c.x phi →
      solveSpan amplitude phi k =
        if -32768 ≤ kc ∧ kc ≤ 32767 ∧ -32768 ≤ ks ∧ ks ≤ 32767 then .ok (kc, ks) else .error .gainRange) := by
  refine ⟨fun h => if_pos h, fun h kc ks hkc hks => ?_⟩
  rw [solveSpan, if_neg (Nat.not_lt.2 h), ← hkc, ← hks]
  simp only [fitsS16_and_iff]

/-- The components of a span solve are those of R57's g and r, but for their rounding and 2^-40 of a unit (log entry 22). -/
theorem turned_chord_close {amplitude phi : ℕ} {k : Chord} (ha : amplitude ≤ 30000) (hphi : phi < 3600)
    (hd : (k.d : ℤ) = k.c.x * k.c.x + k.c.y * k.c.y) (h : 4096 ≤ k.d) {θ : ℝ} (hx : (k.c.x : ℝ) = √(k.d : ℝ) * cos θ)
    (hy : (k.c.y : ℝ) = √(k.d : ℝ) * sin θ) :
    |(turned amplitude k.d k.c.x k.c.y phi : ℝ) - 4096 * ((amplitude : ℝ) / √(k.d : ℝ)) * cos (phi * (π / 1800) - θ)| ≤
      1 / 2 + 1 / 2 ^ 40 ∧
    |(turned amplitude k.d (-k.c.y) k.c.x phi : ℝ) - 4096 * ((amplitude : ℝ) / √(k.d : ℝ)) * sin (phi * (π / 1800) - θ)| ≤
      1 / 2 + 1 / 2 ^ 40 := by
  have hpos : (0 : ℝ) < k.d := by exact_mod_cast (by omega : 0 < k.d)
  obtain ⟨hc, hs⟩ := chord_turn (a := amplitude) (φ := phi * (π / 1800)) hpos hx hy
  have hks := turned_close (u := -k.c.y) (v := k.c.x) ha hphi (by rw [hd]; ring) h
  rw [Int.cast_neg] at hks
  rw [hc, hs]
  exact ⟨turned_close ha hphi hd h, hks⟩

end SpanSolve

/-! ### The angle of a chord (R54, R82) -/

section Angle

open Real

/-- An angle whose sine passes 0 by 2^-63 at most passes 0 by 2^-40 of a tenth of a degree at most. -/
theorem tenths_le_of_sin_le {x : ℝ} (h : sin x ≤ 1 / 2 ^ 63) (hx : x ≤ π / 2) : x * (1800 / π) ≤ 1 / 2 ^ 40 := by
  have hpi := pi_pos
  obtain hneg | hpos := le_total x 0
  · have : x * (1800 / π) ≤ 0 := mul_nonpos_of_nonpos_of_nonneg hneg (by positivity)
    exact this.trans (by positivity)
  · have hjordan := (mul_le_sin hpos hx).trans h
    calc x * (1800 / π) = 900 * (2 / π * x) := by ring
      _ ≤ 900 * (1 / 2 ^ 63) := by gcongr
      _ ≤ 1 / 2 ^ 40 := by norm_num

/-- The half-way angle of n + 1/2 tenths, in tenths. -/
theorem halfAngle_tenths (n : ℝ) : π * (2 * n + 1) / 3600 * (1800 / π) = n + 1 / 2 := by
  have := pi_pos
  field_simp
  ring

/-- Components on a circle of radius `r`, compared through an angle `h`, up to the error of the fixed point. -/
theorem sin_sub_le_of_components {a b r h θ : ℝ} (hr : 0 < r) (ha : a = r * cos θ) (hb : b = r * sin θ)
    (hle : a * sin h ≤ b * cos h + (a + b) / 2 ^ 64) : sin (h - θ) ≤ 1 / 2 ^ 63 := by
  have hsum : a + b ≤ 2 * r := by
    rw [ha, hb]
    nlinarith [cos_le_one θ, sin_le_one θ]
  have hscaled : r * sin (h - θ) ≤ r * (1 / 2 ^ 63) := by
    rw [sin_sub]
    calc r * (sin h * cos θ - cos h * sin θ) = a * sin h - b * cos h := by rw [ha, hb]; ring
      _ ≤ (a + b) / 2 ^ 64 := by linarith
      _ ≤ 2 * r / 2 ^ 64 := by gcongr
      _ = r * (1 / 2 ^ 63) := by ring
  exact le_of_mul_le_mul_left hscaled hr

/-- The same comparison from the other side. -/
theorem sin_sub_le_of_components' {a b r h θ : ℝ} (hr : 0 < r) (ha : a = r * cos θ) (hb : b = r * sin θ)
    (hle : b * cos h ≤ a * sin h + (a + b) / 2 ^ 64) : sin (θ - h) ≤ 1 / 2 ^ 63 := by
  have hmirror := sin_sub_le_of_components (a := b) (b := a) (h := π / 2 - h) (θ := π / 2 - θ) hr (by rw [cos_pi_div_two_sub, hb])
    (by rw [sin_pi_div_two_sub, ha]) (by rw [sin_pi_div_two_sub, cos_pi_div_two_sub, add_comm b a]; exact hle)
  rwa [show π / 2 - h - (π / 2 - θ) = θ - h by ring] at hmirror

/-- The tenth found by bisection is the nearest to the angle, up to 2^-40 of a tenth (R54; log entry 22). -/
theorem octantTenths_close {a b : ℕ} {r θ : ℝ} (hle : b ≤ a) (hr : 0 < r) (ha : (a : ℝ) = r * cos θ) (hb : (b : ℝ) = r * sin θ)
    (h0 : 0 ≤ θ) (h1 : θ ≤ π / 2) :
    octantTenths a b ≤ 450 ∧ |θ * (1800 / π) - octantTenths a b| ≤ 1 / 2 + 1 / 2 ^ 40 := by
  obtain ⟨hrange, hlower, hupper⟩ := octantTenths_brackets a b
  generalize octantTenths a b = k at hrange hlower hupper ⊢
  have hpi := pi_pos
  have hk : (k : ℝ) ≤ 450 := by exact_mod_cast hrange
  refine ⟨hrange, abs_le.2 ⟨?_, ?_⟩⟩
  · obtain hzero | hpos := Nat.eq_zero_or_pos k
    · have : 0 ≤ θ * (1800 / π) := by positivity
      rw [hzero]
      push_cast
      linarith [(by positivity : (0 : ℝ) < 1 / 2 ^ 40)]
    · have habove := hlower.resolve_left hpos.ne'
      have hsin := sin_sub_le_of_components hr ha hb ((aboveHalf_close a b (k - 1) (by omega)).1 habove)
      have hcast : ((k - 1 : ℕ) : ℝ) = k - 1 := by push_cast [hpos]; ring
      have hquarter : π * (2 * ((k - 1 : ℕ) : ℝ) + 1) / 3600 ≤ π / 2 := by
        rw [hcast, div_le_div_iff₀ (by norm_num) (by norm_num)]
        nlinarith
      have htenths := tenths_le_of_sin_le hsin (by linarith)
      rw [sub_mul, halfAngle_tenths, hcast] at htenths
      linarith
  · obtain hlast | hbelow := hupper
    · have hfull : k = 450 := by omega
      have hdiag : sin (θ - π / 4) ≤ 1 / 2 ^ 63 := by
        have hba : r * sin θ ≤ r * cos θ := by rw [← ha, ← hb]; exact_mod_cast hle
        have hsc : sin θ ≤ cos θ := le_of_mul_le_mul_left hba hr
        rw [sin_sub, sin_pi_div_four, cos_pi_div_four]
        have : (sin θ - cos θ) * (√2 / 2) ≤ 0 := mul_nonpos_of_nonpos_of_nonneg (by linarith) (by positivity)
        linarith [(by positivity : (0 : ℝ) < 1 / 2 ^ 63)]
      have htenths := tenths_le_of_sin_le hdiag (by linarith)
      have heighth : π / 4 * (1800 / π) = 450 := by field_simp; norm_num
      rw [sub_mul, heighth] at htenths
      rw [hfull]
      push_cast
      linarith
    · rw [Nat.add_sub_cancel] at hbelow
      have hsin := sin_sub_le_of_components' hr ha hb ((aboveHalf_close a b k (by omega)).2 hbelow)
      have hhalf : 0 ≤ π * (2 * (k : ℝ) + 1) / 3600 := by positivity
      have htenths := tenths_le_of_sin_le hsin (by linarith)
      rw [sub_mul, halfAngle_tenths] at htenths
      linarith

/-- A vector of the first quadrant has an angle there. -/
theorem exists_quadrant_angle {x y : ℝ} (hx : 0 ≤ x) (hy : 0 ≤ y) (hr : 0 < √(x ^ 2 + y ^ 2)) :
    ∃ θ, 0 ≤ θ ∧ θ ≤ π / 2 ∧ x = √(x ^ 2 + y ^ 2) * cos θ ∧ y = √(x ^ 2 + y ^ 2) * sin θ := by
  have hsq : √(x ^ 2 + y ^ 2) ^ 2 = x ^ 2 + y ^ 2 := Real.sq_sqrt (by positivity)
  generalize √(x ^ 2 + y ^ 2) = r at hr hsq ⊢
  have hyr : y / r ≤ 1 := by rw [div_le_one hr]; nlinarith
  have hyr0 : 0 ≤ y / r := by positivity
  have hcos : √(1 - (y / r) ^ 2) = x / r := by
    rw [show 1 - (y / r) ^ 2 = (x / r) ^ 2 by field_simp; linarith, Real.sqrt_sq (by positivity)]
  refine ⟨arcsin (y / r), arcsin_nonneg.2 hyr0, arcsin_le_pi_div_two _, ?_, ?_⟩
  · rw [cos_arcsin, hcos]
    field_simp
  · rw [sin_arcsin (by linarith) hyr]
    field_simp

/-- The tenth of the first quadrant nearest to the angle, up to 2^-40 of a tenth (R54; log entry 22). -/
theorem quadrantTenths_close {x y : ℕ} (h : 0 < √((x : ℝ) ^ 2 + (y : ℝ) ^ 2)) :
    quadrantTenths x y ≤ 900 ∧
    ∃ θ : ℝ, (x : ℝ) = √((x : ℝ) ^ 2 + (y : ℝ) ^ 2) * cos θ ∧ (y : ℝ) = √((x : ℝ) ^ 2 + (y : ℝ) ^ 2) * sin θ ∧
      |θ * (1800 / π) - quadrantTenths x y| ≤ 1 / 2 + 1 / 2 ^ 40 := by
  obtain ⟨θ, h0, h1, hx, hy⟩ := exists_quadrant_angle (Nat.cast_nonneg x) (Nat.cast_nonneg y) h
  unfold quadrantTenths
  split
  · rename_i hle
    obtain ⟨hrange, hclose⟩ := octantTenths_close hle h hx hy h0 h1
    exact ⟨by omega, θ, hx, hy, hclose⟩
  · rename_i hlt
    obtain ⟨hrange, hclose⟩ := octantTenths_close (a := y) (b := x) (θ := π / 2 - θ) (by omega) h (by rw [cos_pi_div_two_sub, ← hy])
      (by rw [sin_pi_div_two_sub, ← hx]) (by linarith) (by linarith)
    refine ⟨by omega, θ, hx, hy, ?_⟩
    have hright : π / 2 * (1800 / π) = 900 := by
      have := pi_pos
      field_simp
      norm_num
    have hmirror : θ * (1800 / π) - ((900 - octantTenths y x : ℕ) : ℝ) = -((π / 2 - θ) * (1800 / π) - octantTenths y x) := by
      rw [sub_mul, hright, Nat.cast_sub (by omega)]
      push_cast
      ring
    rw [hmirror, abs_neg]
    exact hclose

/-- The zero vector has no angle (R54). -/
theorem angleTenths_zero {c : Vec} (h : c.x = 0 ∧ c.y = 0) : angleTenths c = none := if_pos h

/-- The angle of a vector is the nearest tenth of a degree, below 3600, up to 2^-40 of a tenth (R54, R82; log entry 22). -/
theorem angleTenths_close {c : Vec} (h : c.x ≠ 0 ∨ c.y ≠ 0) :
    ∃ (k : ℕ) (θ : ℝ), angleTenths c = some k ∧ k < 3600 ∧ (c.x : ℝ) = √((c.x : ℝ) ^ 2 + (c.y : ℝ) ^ 2) * cos θ ∧
      (c.y : ℝ) = √((c.x : ℝ) ^ 2 + (c.y : ℝ) ^ 2) * sin θ ∧ |θ * (1800 / π) - k| ≤ 1 / 2 + 1 / 2 ^ 40 := by
  have hpi := pi_pos
  have hsq : ∀ z : ℤ, ((z.natAbs : ℕ) : ℝ) ^ 2 = (z : ℝ) ^ 2 := fun z => by rw [Nat.cast_natAbs, Int.cast_abs, sq_abs]
  have hr : 0 < √((c.x.natAbs : ℝ) ^ 2 + (c.y.natAbs : ℝ) ^ 2) := by
    rw [hsq, hsq, Real.sqrt_pos]
    obtain hx | hy := h
    · have : (c.x : ℝ) ≠ 0 := by exact_mod_cast hx
      positivity
    · have : (c.y : ℝ) ≠ 0 := by exact_mod_cast hy
      positivity
  obtain ⟨hq, φ, hx, hy, hclose⟩ := quadrantTenths_close hr
  rw [hsq, hsq] at hx hy
  rw [angleTenths, if_neg (by omega)]
  generalize √((c.x : ℝ) ^ 2 + (c.y : ℝ) ^ 2) = r at hx hy ⊢
  generalize quadrantTenths c.x.natAbs c.y.natAbs = q at hq hclose ⊢
  have hpos : ∀ z : ℤ, 0 ≤ z → ((z.natAbs : ℕ) : ℝ) = z := fun z hz => by rw [Nat.cast_natAbs, abs_of_nonneg hz]
  have hneg : ∀ z : ℤ, ¬ 0 ≤ z → ((z.natAbs : ℕ) : ℝ) = -z := fun z hz => by
    rw [Nat.cast_natAbs, abs_of_neg (not_le.1 hz), Int.cast_neg]
  have hhalf : π * (1800 / π) = 1800 := by field_simp
  by_cases h0 : 0 ≤ c.x <;> by_cases h1 : 0 ≤ c.y
  · rw [hpos _ h0] at hx
    rw [hpos _ h1] at hy
    refine ⟨q, φ, ?_, by omega, hx, hy, hclose⟩
    simp only [if_pos h0, if_pos h1, Nat.mod_eq_of_lt (by omega : q < 3600)]
  · rw [hpos _ h0] at hx
    rw [hneg _ h1] at hy
    obtain rfl | hqpos := Nat.eq_zero_or_pos q
    · refine ⟨0, -φ, ?_, by omega, by rw [cos_neg, hx], by rw [sin_neg, mul_neg, ← hy, neg_neg], ?_⟩
      · simp only [if_pos h0, if_neg h1, Nat.sub_zero, Nat.mod_self]
      · rw [Nat.cast_zero, sub_zero] at hclose ⊢
        rwa [neg_mul, abs_neg]
    · refine ⟨3600 - q, 2 * π - φ, ?_, by omega, by rw [cos_two_pi_sub, hx], by rw [sin_two_pi_sub, mul_neg, ← hy, neg_neg], ?_⟩
      · simp only [if_pos h0, if_neg h1, Nat.mod_eq_of_lt (by omega : 3600 - q < 3600)]
      · have : (2 * π - φ) * (1800 / π) - ((3600 - q : ℕ) : ℝ) = -(φ * (1800 / π) - q) := by
          rw [Nat.cast_sub (by omega), sub_mul, mul_assoc, hhalf]
          push_cast
          ring
        rwa [this, abs_neg]
  · rw [hneg _ h0] at hx
    rw [hpos _ h1] at hy
    refine ⟨1800 - q, π - φ, ?_, by omega, by rw [cos_pi_sub, mul_neg, ← hx, neg_neg], by rw [sin_pi_sub, hy], ?_⟩
    · simp only [if_neg h0, if_pos h1, Nat.mod_eq_of_lt (by omega : 1800 - q < 3600)]
    · have : (π - φ) * (1800 / π) - ((1800 - q : ℕ) : ℝ) = -(φ * (1800 / π) - q) := by
        rw [Nat.cast_sub (by omega), sub_mul, hhalf]
        push_cast
        ring
      rwa [this, abs_neg]
  · rw [hneg _ h0] at hx
    rw [hneg _ h1] at hy
    refine ⟨1800 + q, φ + π, ?_, by omega, by rw [cos_add_pi, mul_neg, ← hx, neg_neg], by rw [sin_add_pi, mul_neg, ← hy, neg_neg], ?_⟩
    · simp only [if_neg h0, if_neg h1, Nat.mod_eq_of_lt (by omega : 1800 + q < 3600)]
    · have : (φ + π) * (1800 / π) - ((1800 + q : ℕ) : ℝ) = φ * (1800 / π) - q := by
        rw [add_mul, hhalf]
        push_cast
        ring
      rwa [this]

end Angle

/-! ### A completed solve (R57 to R61, R178) -/

/-- Settles O56: `State.jobAnswered_of_deliver` gives the state after the completion, the lemmas about each computation its values. -/
theorem solvesAreAnsweredAtCompletion : Obligations.SolvesAreAnsweredAtCompletion := by
  refine ⟨fun s e ch amplitude phase values k hdr hbusy hjob hkept hk hwork _ _ => ?_,
    fun s e ch ps qs hdr d hbusy hjob hkept hwork _ _ _ _ _ hd => ?_,
    fun amplitude phase k ha hphase hd => ?_, fun ps qs nr ni den mc ms hlen hr hi hden hmc hms => ?_,
    fun c => ⟨angleTenths_zero, angleTenths_close⟩, fun values => ?_⟩
  · obtain ⟨bases, code, body, hdel, hcases⟩ := (s.reach e.doneAt).deliver_span_cases e.lane ch amplitude phase hk
    rw [← hjob] at hdel
    obtain ⟨t, a⟩ := State.jobAnswered_of_deliver hbusy hkept hwork hdel rfl rfl
    rw [State.reach_lane] at hcases a
    refine ⟨t, _, bases, a.exec, a.clock, a.pool, a.layouts, a.next, a.handler, a.requests, a.reply, rfl, a.other, a.lane, a.ctl, ?_⟩
    obtain ⟨kc, ks, hsol, h⟩ | ⟨hsol, h⟩ | ⟨hsol, h⟩ := hcases <;> rw [hsol] <;> exact h
  · obtain ⟨mixes, code, body, hdel, hcases⟩ := (s.reach e.doneAt).deliver_solve_cases e.lane ch ps qs
      (by rw [State.reach_lane]; exact hd)
    rw [← hjob] at hdel
    obtain ⟨t, a⟩ := State.jobAnswered_of_deliver hbusy hkept hwork hdel rfl rfl
    rw [State.reach_lane] at hcases a
    refine ⟨t, _, mixes, a.exec, a.clock, a.pool, a.layouts, a.next, a.handler, a.requests, a.reply, rfl, a.other, a.lane, a.ctl, ?_⟩
    obtain ⟨mc, ms, hsol, hmixes, hcode, hbody⟩ | ⟨hsol, h⟩ | ⟨hsol, h⟩ := hcases <;> rw [hsol]
    · exact ⟨hmixes, hcode, fun k hk => by rw [hbody, residualVpp_eq hk]⟩
    · exact h
    · exact h
  · obtain ⟨hweak, hsolved⟩ := solveSpan_eq (amplitude := amplitude) (phi := phase) (k := k)
    refine ⟨hweak, fun h => ⟨_, _, hsolved h _ _ rfl rfl, fun θ hx hy => turned_chord_close ha hphase hd h hx hy, fun c s hmem => ?_⟩⟩
    have hquarter : twiceCos phase = some (2 * c) ∧ twiceCos ((phase + 2700) % 3600) = some (2 * s) := by
      simp only [List.mem_cons, Prod.mk.injEq, List.not_mem_nil, or_false] at hmem
      obtain ⟨rfl, rfl, rfl⟩ | ⟨rfl, rfl, rfl⟩ | ⟨rfl, rfl, rfl⟩ | ⟨rfl, rfl, rfl⟩ := hmem <;> exact ⟨rfl, rfl⟩
    obtain ⟨hc, hs⟩ := hquarter
    have hkc : k.c.x * c + k.c.y * s = c * k.c.x + s * k.c.y := by ring
    have hks : -k.c.y * c + k.c.x * s = s * k.c.x - c * k.c.y := by ring
    rw [turned_exact hc hs, turned_exact hc hs, hkc, hks]
    exact ⟨rfl, rfl⟩
  · obtain ⟨hsr, hsi, hsden⟩ := mixSums_eq hlen
    obtain ⟨hweak, hsolved⟩ := solveMixCoefficient_eq (hsr.trans hr.symm) (hsi.trans hi.symm) (hsden.trans hden.symm)
    exact ⟨hweak, fun h0 => hsolved h0 mc ms hmc hms⟩
  · obtain ⟨hshort, hlong⟩ := maxChord_firstLongest values
    refine ⟨hshort, fun hlen => ?_⟩
    obtain ⟨k, i, j, hmax, p, q, hij, hi, hj, hk, hfirst⟩ := hlong hlen
    exact ⟨k, i, j, p, q, hmax, hij, hi, hj, hk, hfirst⟩

end Sys2Proof.Machine

/-! Committed lines (3.3, chapter 4, chapter 9): channel values, screen states, spans, the region of interest, hand-on, assemblers. -/

namespace Sys2Proof.Machine

/-! ### Channel values (R44 to R46) -/

theorem Lane.channelValue_inactive {x : Lane} {ch : Nat} (samples : List Vec) (h : x.active ch = false) :
    x.channelValue samples ch = none := by
  rw [Lane.channelValue, h]
  rfl

/-- An active base channel's value is its calibrated sample (R45). -/
theorem Lane.channelValue_base {x : Lane} {ch : Nat} (samples : List Vec) (h : ch < 16) (hact : ch < x.exc.slots.length) :
    x.channelValue samples ch = some (x.baseValue samples ch) := by
  rw [Lane.channelValue, x.active_of_base h, if_pos (decide_eq_true hact), if_pos h]

/-- A base channel with a value is active, and the value is its calibrated sample (R45). -/
theorem Lane.channelValue_base_some {x : Lane} {ch : Nat} {samples : List Vec} {v : Vec} (h : ch < 16)
    (hv : x.channelValue samples ch = some v) : x.baseActive ch = true ∧ x.baseValue samples ch = v := by
  rw [x.baseActive_of_lt h, decide_eq_true_eq]
  by_cases hact : ch < x.exc.slots.length
  · rw [Lane.channelValue_base samples h hact] at hv
    exact ⟨hact, Option.some.inj hv⟩
  · rw [Lane.channelValue_inactive samples (by rw [x.active_of_base h]; exact decide_eq_false hact)] at hv
    cases hv

/-- An active mix's value is formed from its sources' values (R46). -/
theorem Lane.channelValue_mix {x : Lane} {ch : Nat} {samples : List Vec} {d : MixDef} {p q : Vec} (hlo : 16 ≤ ch) (hhi : ch < 20)
    (hd : (x.mix ch).defn = some d) (hp : d.p < 16) (hq : d.q < 16) (hvp : x.channelValue samples d.p = some p)
    (hvq : x.channelValue samples d.q = some q) : x.channelValue samples ch = some (mixValue d.mc d.ms p q) := by
  obtain ⟨hap, hp'⟩ := Lane.channelValue_base_some hp hvp
  obtain ⟨haq, hq'⟩ := Lane.channelValue_base_some hq hvq
  rw [Lane.channelValue, Lane.active_of_mix hlo hhi hd, hap, haq, Bool.and_true, if_pos rfl, if_neg (Nat.not_lt.2 hlo), hd, ← hp', ← hq']
  rfl

/-! ### The screen states (R66 to R72) -/

section Steps

variable {set : Screening} {k : Screen} {index : Int} {v b : Vec} {ovr rep : Bool} {d : Nat} {span : List SpanEntry}

/-- A line in QUIET (R66, R67). -/
theorem stepScreen_quiet (hphase : k.phase = .quiet) (hb : k.baseline.getD v = b) (hd : deviation set.component v b = d)
    (hspan : k.span ++ [{ index := index, value := v, dev := d, ovr := ovr, rep := rep }] = span) :
    stepScreen set k index v ovr rep =
      if set.openTh ≤ d then confirmLine set b 1 span
      else ScreenStep.keep { phase := .quiet, baseline := some (followBaseline set.shift v b), count := 0, span := k.span } := by
  subst hb hd hspan
  rw [stepScreen, hphase]

/-- A line in CONFIRMING (R68). -/
theorem stepScreen_confirming (hphase : k.phase = .confirming) (hb : k.baseline.getD v = b)
    (hd : deviation set.component v b = d)
    (hspan : k.span ++ [{ index := index, value := v, dev := d, ovr := ovr, rep := rep }] = span) :
    stepScreen set k index v ovr rep =
      if set.openTh ≤ d then confirmLine set b (k.count + 1) span
      else ScreenStep.keep { phase := .quiet, baseline := some b, count := 0, span := [] } := by
  subst hb hd hspan
  rw [stepScreen, hphase]

/-- A line in OPEN or RELEASING, with the release count that a tail line would reach (R69, R70, R72). -/
theorem stepScreen_open {n : Nat} (hphase : k.phase = .opened ∧ n = 1 ∨ k.phase = .releasing ∧ n = k.count + 1)
    (hb : k.baseline.getD v = b) (hd : deviation set.component v b = d)
    (hspan : k.span ++ [{ index := index, value := v, dev := d, ovr := ovr, rep := rep }] = span) :
    stepScreen set k index v ovr rep =
      longClose span v
        (if set.closeTh ≤ d then ScreenStep.keep { phase := .opened, baseline := some b, count := 0, span := span }
        else tailLine set b n span) := by
  subst hb hd hspan
  obtain ⟨h, rfl⟩ | ⟨h, rfl⟩ := hphase <;> rw [stepScreen, h]

/-- A line at or above the open threshold confirms or opens (R67, R68). -/
theorem confirmLine_eq (n : Nat) :
    (confirmLine set b n span).closed = none ∧
    (confirmLine set b n span).screen =
      if set.confirm ≤ n then { phase := .opened, baseline := some b, count := 0, span := span }
      else { phase := .confirming, baseline := some b, count := n, span := span } := by
  unfold confirmLine
  split <;> exact ⟨rfl, rfl⟩

end Steps

/-! ### The span of an indication (R71) -/

/-- The tail below the close threshold is left out (R71). -/
theorem trimTail_append {closeTh : Nat} {core tail : List SpanEntry} {last : SpanEntry} (hlast : core.getLast? = some last)
    (hdev : closeTh ≤ last.dev) (htail : ∀ e ∈ tail, e.dev < closeTh) : trimTail closeTh (core ++ tail) = core := by
  obtain ⟨front, rfl⟩ := List.getLast?_eq_some_iff.1 hlast
  have hdrop : (tail.reverse.dropWhile fun e => decide (e.dev < closeTh)) = [] := by
    rw [List.dropWhile_eq_nil_iff]
    exact fun e he => decide_eq_true (htail e (List.mem_reverse.1 he))
  rw [trimTail, List.reverse_append, List.dropWhile_append, hdrop, List.reverse_append]
  simp [Nat.not_lt.2 hdev]

/-- The peak is the first of the entries of greatest deviation (R71). -/
theorem peakOf_first (e : SpanEntry) (rest : List SpanEntry) :
    ∃ i : Nat, (e :: rest)[i]? = some (rest.foldl peakOf e) ∧
      ∀ (j : Nat) (q : SpanEntry), (e :: rest)[j]? = some q →
        q.dev ≤ (rest.foldl peakOf e).dev ∧ (j < i → q.dev < (rest.foldl peakOf e).dev) := by
  induction rest generalizing e with
  | nil =>
    refine ⟨0, rfl, fun j q hj => ?_⟩
    cases j with
    | zero => cases hj; exact ⟨le_rfl, fun h => absurd h (Nat.lt_irrefl 0)⟩
    | succ j => cases hj
  | cons k rest ih =>
    obtain ⟨i, hi, hfirst⟩ := ih (peakOf e k)
    rw [List.foldl_cons]
    generalize rest.foldl peakOf (peakOf e k) = peak at hi hfirst ⊢
    by_cases hlt : e.dev < k.dev
    · rw [peakOf, if_pos hlt] at hi hfirst
      refine ⟨i + 1, hi, fun j q hj => ?_⟩
      cases j with
      | zero =>
        cases hj
        have := (hfirst 0 k rfl).1
        omega
      | succ j =>
        have := hfirst j q hj
        omega
    · rw [peakOf, if_neg hlt] at hi hfirst
      obtain ⟨hle, hearlier⟩ := hfirst 0 e rfl
      refine ⟨if i = 0 then 0 else i + 1, ?_, fun j q hj => ?_⟩
      · cases i with
        | zero => exact hi
        | succ i => exact hi
      · match j with
        | 0 =>
          cases hj
          exact ⟨hle, fun h => hearlier (by split at h <;> omega)⟩
        | 1 =>
          cases hj
          refine ⟨by omega, fun h => ?_⟩
          have := hearlier (by split at h <;> omega)
          omega
        | j + 2 =>
          obtain ⟨hle', hearlier'⟩ := hfirst (j + 1) q hj
          exact ⟨hle', fun h => hearlier' (by split at h <;> omega)⟩

/-- The indication of a span store whose entries from the first to the last at or above the close threshold are `first :: rest` (R71). -/
theorem indicationOf_eq {ch closeTh : Nat} {span : List SpanEntry} {first last : SpanEntry} {rest : List SpanEntry}
    {long truncated : Bool} {correction : Int} (htrim : trimTail closeTh span = first :: rest)
    (hlast : (first :: rest).getLast? = some last) :
    indicationOf ch closeTh span long truncated correction =
      some
        { channel := ch, first := first.index, last := last.index, peak := (rest.foldl peakOf first).index,
          values := (first :: rest).map fun e => e.value, ovr := (first :: rest).any fun e => e.ovr,
          rep := (first :: rest).any fun e => e.rep, long := long, truncated := truncated, correction := correction } := by
  rw [indicationOf, htrim]
  simp only [hlast, Option.map_some, Option.getD_some]

/-! ### The region of interest (R75) -/

theorem roiStep_none (left outside : Bool) :
    roiStep none left outside =
      if left then (some 0, { within := true, first := true, last := false })
      else (none, { within := false, first := false, last := false }) := rfl

theorem roiStep_some (quiet : Nat) (left outside : Bool) :
    roiStep (some quiet) left outside =
      if outside then (some 0, { within := true, first := false, last := false })
      else if quiet < 31 then (some (quiet + 1), { within := true, first := false, last := false })
      else (none, { within := true, first := false, last := true }) := by
  have hlast : quiet + 1 < Config.roiQuietMax ↔ quiet < 31 := by unfold Config.roiQuietMax; omega
  simp only [roiStep, hlast]

/-! ### Hand-on (R76, R106) -/

/-- With room in the queue an indication becomes a MEASURE job (R76). -/
theorem State.handOn_room {s : State} {l : LaneId} (ind : Indication) (h : (s.lane l).jobs.length < 4) :
    s.handOn l ind = s.appendJob l (.measure ((s.lane l).tag.getD 0) ind) := if_pos h

/-- With four jobs queued an indication joins the catalogue UNMEASURED (R106). -/
theorem State.handOn_full {s : State} {l : LaneId} (ind : Indication) (h : 4 ≤ (s.lane l).jobs.length) :
    s.handOn l ind = s.upd l fun y => y.updTube fun t => t.join (entryOf y.pitch ind none) := if_neg (Nat.not_lt.2 h)

/-- A change of the tube's record where there is none. -/
theorem Lane.updTube_none {x : Lane} (h : x.ctl.tube = none) (f : Tube → Tube) : x.updTube f = x := by
  rw [Lane.updTube, h, Option.map_none, ← h]

/-- A change of the tube's record where there is one. -/
theorem Lane.updTube_some {x : Lane} {u : Tube} (h : x.ctl.tube = some u) (f : Tube → Tube) :
    x.updTube f = { x with ctl := { x.ctl with tube := some (f u) } } := by rw [Lane.updTube, h, Option.map_some]

/-! ### The flush (R37) -/

/-- With an empty window the flush only disarms (R37). -/
theorem State.flush_empty {s : State} {l : LaneId} (h : (s.lane l).capture.window = []) :
    s.flush l = s.setLane l { s.lane l with capture := { armed := false, window := [] } } := by
  rw [State.flush, h, List.foldl_nil, State.upd_upd, State.upd_eq_setLane]

/-- Otherwise it commits the highest line and flushes the rest (R37). -/
theorem State.flush_cons {s t : State} {l : LaneId} {h : CapLine} {rest : List CapLine}
    (hw : (s.lane l).capture.window = h :: rest)
    (ht : t = State.commitLine l (s.setLane l { s.lane l with capture := { (s.lane l).capture with window := [] } }) h) :
    s.flush l = (t.setLane l { t.lane l with capture := { (t.lane l).capture with window := rest } }).flush l := by
  have hcapture : (t.lane l).capture = { (s.lane l).capture with window := [] } := by
    have := State.commitLines_capture (s.setLane l { s.lane l with capture := { (s.lane l).capture with window := [] } }) l [h]
    rwa [List.foldl_cons, List.foldl_nil, ← ht, State.lane_setLane] at this
  have hback : ((t.setLane l { t.lane l with capture := { (t.lane l).capture with window := rest } }).upd l fun x =>
      { x with capture := { x.capture with window := [] } }) = t := by
    rw [State.upd_eq_setLane, State.setLane_setLane, State.lane_setLane, hcapture]
    dsimp only
    rw [← hcapture, State.setLane_lane]
  rw [State.flush, hw, List.foldl_cons, State.upd_eq_setLane s, ← ht, State.flush, hback, State.lane_setLane]

/-! ### Screening channel by channel (R74)

The channels are screened in turn, and each hands its closing span on before the next is screened. A hand-on neither reads nor
writes what a channel's screening writes, so that all the writes may be made first and the hand-ons after. -/

/-- A change of a lane that a hand-on neither reads nor writes. -/
structure Lane.Aside (f : Lane → Lane) : Prop where
  facets : ∀ x ch, (f x).facets ch = x.facets ch
  detector : ∀ x, (f x).detector = x.detector
  motion : ∀ x, (f x).motion = x.motion
  tag : ∀ x, (f x).tag = x.tag
  jobs : ∀ x, (f x).jobs = x.jobs
  setJobs : ∀ x jobs, f { x with jobs := jobs } = { f x with jobs := jobs }
  join : ∀ x e, f (x.updTube fun t => t.join e) = (f x).updTube fun t => t.join e

theorem Lane.Aside.pitch {f : Lane → Lane} (h : Lane.Aside f) (x : Lane) : (f x).pitch = x.pitch := by
  rw [Lane.pitch, h.motion]
  rfl

theorem State.upd_engine_comm (s : State) (l : LaneId) (f : Lane → Lane) (e : Engine) :
    { s.upd l f with engine := e } = ({ s with engine := e } : State).upd l f := by cases l <;> rfl

/-- A change of the queue commutes with one aside of it. -/
theorem Lane.Aside.upd_jobs {f : Lane → Lane} (hf : Lane.Aside f) (s : State) (l : LaneId) (g : List Job → List Job) :
    ((s.upd l f).upd l fun x => { x with jobs := g x.jobs }) = (s.upd l fun x => { x with jobs := g x.jobs }).upd l f := by
  rw [State.upd_upd, State.upd_upd]
  congr 1
  funext x
  rw [hf.jobs]
  exact (hf.setJobs x (g x.jobs)).symm

theorem State.engineTake_upd {f : Lane → Lane} (hf : Lane.Aside f) (s : State) (l : LaneId) :
    (s.upd l f).engineTake l = (s.engineTake l).upd l f := by
  unfold State.engineTake
  rw [State.lane_upd, hf.jobs]
  split
  · rfl
  · rename_i rest _
    dsimp only
    rw [hf.upd_jobs s l fun _ => rest, State.upd_engine_comm, State.upd_clock]

theorem State.appendJob_upd {f : Lane → Lane} (hf : Lane.Aside f) (s : State) (l : LaneId) (j : Job) :
    (s.upd l f).appendJob l j = (s.appendJob l j).upd l f := by
  unfold State.appendJob
  rw [hf.upd_jobs s l fun jobs => jobs ++ [j], State.upd_engine]
  dsimp only
  split
  · exact State.engineTake_upd hf _ l
  · rfl

theorem State.handOn_upd {f : Lane → Lane} (hf : Lane.Aside f) (s : State) (l : LaneId) (ind : Indication) :
    (s.upd l f).handOn l ind = (s.handOn l ind).upd l f := by
  unfold State.handOn
  simp only [State.lane_upd, hf.jobs, hf.tag]
  split
  · exact State.appendJob_upd hf s l _
  · simp only [State.upd_upd, hf.pitch, hf.join]

/-- A close does not see a change aside of hand-on, and leaves it. -/
theorem State.closeSpan_upd {f : Lane → Lane} (hf : Lane.Aside f) (s : State) (l : LaneId) (ch : Nat) (span : List SpanEntry)
    (long truncated : Bool) : (s.upd l f).closeSpan l ch span long truncated = (s.closeSpan l ch span long truncated).upd l f := by
  unfold State.closeSpan
  simp only [State.lane_upd, hf.facets, hf.detector]
  split
  · exact State.handOn_upd hf s l _
  · rfl

/-- Steps that each make a change of the lane and then act on the state, where no action sees or undoes a change and no step touches
what another channel's step depends on: all the changes may be made first. -/
theorem foldl_changes_first {l : LaneId} {step act : State → Nat → State} {change : Nat → Lane → Lane} {holds : Nat → Lane → Prop}
    (hstep : ∀ s ch, holds ch (s.lane l) → step s ch = act (s.upd l (change ch)) ch)
    (hcomm : ∀ s ch ch', act (s.upd l (change ch')) ch = (act s ch).upd l (change ch'))
    (hchange : ∀ x ch ch', ch ≠ ch' → holds ch' x → holds ch' (change ch x))
    (hact : ∀ s ch ch', holds ch' (s.lane l) → holds ch' ((act s ch).lane l)) :
    ∀ (chs : List Nat) (s : State), chs.Nodup → (∀ ch ∈ chs, holds ch (s.lane l)) →
      chs.foldl step s = chs.foldl act (s.upd l fun x => chs.foldl (fun y ch => change ch y) x) := by
  have hcomms : ∀ (chs : List Nat) (s : State) (ch : Nat), act (s.upd l fun x => chs.foldl (fun y ch => change ch y) x) ch =
      (act s ch).upd l fun x => chs.foldl (fun y ch => change ch y) x := fun chs => by
    induction chs with
    | nil =>
      intro s ch
      exact (congrArg (act · ch) (s.setLane_lane l)).trans ((act s ch).setLane_lane l).symm
    | cons c chs ih =>
      intro s ch
      have h := ih (s.upd l (change c)) ch
      rw [hcomm, State.upd_upd, State.upd_upd] at h
      exact h
  intro chs
  induction chs with
  | nil => exact fun s _ _ => (s.setLane_lane l).symm
  | cons ch chs ih =>
    intro s hnodup hholds
    obtain ⟨hfresh, hrest⟩ := List.nodup_cons.1 hnodup
    have hnext : ∀ ch' ∈ chs, holds ch' ((act (s.upd l (change ch)) ch).lane l) := fun ch' hmem =>
      hact _ _ _ (by
        rw [State.lane_upd]
        exact hchange _ _ _ (fun h => hfresh (h ▸ hmem)) (hholds ch' (List.mem_cons_of_mem _ hmem)))
    rw [List.foldl_cons, hstep s ch (hholds ch List.mem_cons_self), ih _ hrest hnext, ← hcomms, State.upd_upd]
    rfl

/-! ### A screened line (R65 to R75) -/

/-- What a line does to a channel's screen; nothing to a channel that is not screened (R65). -/
def Lane.screenOut (x : Lane) (line : ChanLine) (ch : Nat) : Option ScreenStep :=
  if x.screened ch then
    (line.value ch).map fun v => stepScreen (x.facets ch).screening (x.screen ch) line.index v line.ovr line.rep
  else none

/-- A channel's screen after a line. -/
def Lane.screenAfter (x : Lane) (line : ChanLine) (ch : Nat) : Screen :=
  ((x.screenOut line ch).map fun r => r.screen).getD (x.screen ch)

/-- The closing span of a channel's step, handed on. -/
def State.closeOut (l : LaneId) (out : Nat → Option ScreenStep) (s : State) (ch : Nat) : State :=
  match out ch with
  | some { screen := _, closed := some span, long := long } => s.closeSpan l ch span long false
  | _ => s

/-- A lane's screen states replaced by the screens `new`, for channel `ch`. -/
def Lane.setScreen (new : Nat → Screen) (ch : Nat) (x : Lane) : Lane := { x with screens := x.screens.set ch (new ch) }

/-- Of its lane a channel's screening reads what these three equations pin down. -/
structure Lane.SameChannel (x : Lane) (ch : Nat) (y : Lane) : Prop where
  screened : y.screened ch = x.screened ch
  facets : y.facets ch = x.facets ch
  screen : y.screen ch = x.screen ch

theorem Lane.SameChannel.refl (x : Lane) (ch : Nat) : x.SameChannel ch x := ⟨rfl, rfl, rfl⟩

theorem Lane.SameChannel.screenOut {x y : Lane} {ch : Nat} (h : x.SameChannel ch y) (line : ChanLine) :
    y.screenOut line ch = x.screenOut line ch := by rw [Lane.screenOut, Lane.screenOut, h.screened, h.facets, h.screen]

theorem Lane.SameChannel.closeSpan {x : Lane} {s : State} {l : LaneId} {ch : Nat} (h : x.SameChannel ch (s.lane l)) (k : Nat)
    (span : List SpanEntry) (long truncated : Bool) : x.SameChannel ch ((s.closeSpan l k span long truncated).lane l) := by
  obtain ⟨jobs, tube, hlane⟩ := s.closeSpan_lane l k span long truncated
  rw [hlane]
  exact ⟨h.screened, h.facets, h.screen⟩

theorem Lane.SameChannel.setScreen {x y : Lane} {ch k : Nat} (h : x.SameChannel ch y) (new : Nat → Screen) (hne : k ≠ ch) :
    x.SameChannel ch (y.setScreen new k) := by
  refine ⟨h.screened, h.facets, ?_⟩
  rw [← h.screen]
  simp [Lane.setScreen, Lane.screen, List.getD_eq_getElem?_getD, List.getElem?_set_ne hne]

theorem Lane.SameChannel.closeOut {x : Lane} {s : State} {l : LaneId} {ch : Nat} (h : x.SameChannel ch (s.lane l))
    (out : Nat → Option ScreenStep) (k : Nat) : x.SameChannel ch ((s.closeOut l out k).lane l) := by
  unfold State.closeOut
  split
  · exact h.closeSpan k _ _ _
  · exact h

theorem Lane.aside_setScreen (new : Nat → Screen) (ch : Nat) : Lane.Aside (Lane.setScreen new ch) :=
  ⟨fun _ _ => rfl, fun _ => rfl, fun _ => rfl, fun _ => rfl, fun _ => rfl, fun _ _ => rfl, fun _ _ => rfl⟩

theorem Lane.aside_setRoi (roi : Option Nat) : Lane.Aside fun x => { x with roi := roi } :=
  ⟨fun _ _ => rfl, fun _ => rfl, fun _ => rfl, fun _ => rfl, fun _ => rfl, fun _ _ => rfl, fun _ _ => rfl⟩

/-- A screen replaced by itself. -/
theorem Lane.setScreen_self {x : Lane} {new : Nat → Screen} {ch : Nat} (h : new ch = x.screen ch) : x.setScreen new ch = x := by
  have hset : x.screens.set ch (x.screen ch) = x.screens := by
    apply List.ext_getElem?
    intro i
    rw [List.getElem?_set']
    split
    · rename_i heq
      rw [← heq, Lane.screen, List.getD_eq_getElem?_getD]
      cases x.screens[ch]? <;> rfl
    · rfl
  rw [Lane.setScreen, h, hset]

/-- Replacing every screen in turn leaves the list of the new ones. -/
theorem Lane.foldl_setScreen {x : Lane} (h : x.screens.length = 20) (new : Nat → Screen) :
    channelNumbers.foldl (fun y ch => y.setScreen new ch) x = { x with screens := channelNumbers.map new } := by
  have upTo : ∀ n ≤ 20, (List.range n).foldl (fun y ch => y.setScreen new ch) x =
      { x with screens := (List.range n).map new ++ x.screens.drop n } := fun n => by
    induction n with
    | zero => exact fun _ => rfl
    | succ n ih =>
      intro hn
      have hset : ((List.range n).map new ++ x.screens.drop n).set n (new n) =
          (List.range (n + 1)).map new ++ x.screens.drop (n + 1) := by
        have hlen : ((List.range n).map new).length = n := by rw [List.length_map, List.length_range]
        rw [List.set_append_right _ _ hlen.le, hlen, Nat.sub_self, List.drop_eq_getElem_cons (by omega : n < x.screens.length),
          List.set_cons_zero, List.range_succ, List.map_append, List.append_assoc]
        rfl
      rw [List.range_succ, List.foldl_append, ih (by omega), ← List.range_succ, ← hset]
      rfl
  have hall := upTo 20 le_rfl
  rwa [List.drop_of_length_le (by omega), List.append_nil] at hall

theorem State.closeOut_upd {f : Lane → Lane} (hf : Lane.Aside f) (l : LaneId) (out : Nat → Option ScreenStep) (s : State) (ch : Nat) :
    (s.upd l f).closeOut l out ch = (s.closeOut l out ch).upd l f := by
  unfold State.closeOut
  split
  · exact State.closeSpan_upd hf s l ch _ _ _
  · rfl

/-- A channel takes a line: its screen is replaced, then its closing span is handed on (R65 to R72, R76). -/
theorem State.screenChannel_eq {line : ChanLine} {l : LaneId} {x : Lane} {s : State} {ch : Nat} (h : x.SameChannel ch (s.lane l)) :
    s.screenChannel line l ch = (s.upd l (Lane.setScreen (x.screenAfter line) ch)).closeOut l (x.screenOut line) ch := by
  have hout := h.screenOut line
  have idle : x.screenOut line ch = none →
      s = (s.upd l (Lane.setScreen (x.screenAfter line) ch)).closeOut l (x.screenOut line) ch := fun hnone => by
    have hnew : x.screenAfter line ch = (s.lane l).screen ch := by
      rw [Lane.screenAfter, hnone, h.screen]
      rfl
    rw [State.upd_eq_setLane, Lane.setScreen_self hnew, State.setLane_lane, State.closeOut, hnone]
  unfold State.screenChannel
  dsimp only
  rw [Lane.screenOut] at hout
  cases hon : (s.lane l).screened ch with
  | false => exact idle (by rw [← hout, hon]; rfl)
  | true =>
    cases hv : line.value ch with
    | none => exact idle (by rw [← hout, hon, hv]; rfl)
    | some v =>
      rw [hon, hv, if_pos rfl, Option.map_some] at hout
      dsimp only
      generalize stepScreen ((s.lane l).facets ch).screening ((s.lane l).screen ch) line.index v line.ovr line.rep = r at hout ⊢
      have hnew : x.screenAfter line ch = r.screen := by
        rw [Lane.screenAfter, ← hout]
        rfl
      have hset : (Lane.setScreen (x.screenAfter line) ch) = fun y => { y with screens := y.screens.set ch r.screen } := by
        funext y
        rw [Lane.setScreen, hnew]
      rw [State.closeOut, ← hout, hset]
      rcases r with ⟨screen, _ | span, long⟩ <;> rfl

/-- All channels take a line: their screens are replaced, then the closing spans are handed on in turn (R74, R76). -/
theorem State.screenChannels_eq {s : State} {l : LaneId} (line : ChanLine) (hlen : (s.lane l).screens.length = 20) :
    channelNumbers.foldl (State.screenChannel line l) s =
      channelNumbers.foldl (State.closeOut l ((s.lane l).screenOut line))
        (s.setLane l { s.lane l with screens := channelNumbers.map ((s.lane l).screenAfter line) }) := by
  rw [foldl_changes_first (l := l) (step := State.screenChannel line l)
    (act := State.closeOut l ((s.lane l).screenOut line))
    (change := Lane.setScreen ((s.lane l).screenAfter line))
    (holds := fun ch y => (s.lane l).SameChannel ch y)
    (fun t ch h => State.screenChannel_eq h)
    (fun t ch ch' => State.closeOut_upd (Lane.aside_setScreen _ ch') l _ t ch)
    (fun y ch ch' hne h => h.setScreen _ hne)
    (fun t ch ch' h => h.closeOut _ ch)
    channelNumbers s List.nodup_range (fun ch _ => .refl _ ch), State.upd_eq_setLane, Lane.foldl_setScreen hlen]

/-- A screened channel ends a line outside QUIET. -/
def Lane.endsOutside (x : Lane) (line : ChanLine) (ch : Nat) : Bool := x.screened ch && (x.screenAfter line ch).phase != .quiet

/-- The ROI after a line and the line's marks (R75). -/
def Lane.roiAfter (x : Lane) (line : ChanLine) : Option Nat × RegionMarks :=
  roiStep x.roi (channelNumbers.any fun ch => x.endsOutside line ch && !x.outsideQuiet ch) (channelNumbers.any (x.endsOutside line))

/-- The screening unit takes a line: the screens and the ROI are replaced, then the closing spans are handed on in turn (R74 to R76). -/
theorem State.screenLine_eq {s : State} {l : LaneId} (line : ChanLine) (hlen : (s.lane l).screens.length = 20) :
    s.screenLine l line =
      (channelNumbers.foldl (State.closeOut l ((s.lane l).screenOut line))
        (s.setLane l
          { s.lane l with
            screens := channelNumbers.map ((s.lane l).screenAfter line), roi := ((s.lane l).roiAfter line).1 }),
        ((s.lane l).roiAfter line).2) := by
  obtain ⟨y, hy⟩ : ∃ y : Lane, y = { s.lane l with screens := channelNumbers.map ((s.lane l).screenAfter line) } := ⟨_, rfl⟩
  have hsame : ∀ (ch : Nat) (chs : List Nat) (t : State), y.SameChannel ch (t.lane l) →
      y.SameChannel ch ((chs.foldl (State.closeOut l ((s.lane l).screenOut line)) t).lane l) := fun ch chs => by
    induction chs with
    | nil => exact fun _ h => h
    | cons k chs ih => exact fun t h => ih _ (h.closeOut _ k)
  have houtside : ∀ ch ∈ channelNumbers,
      ((channelNumbers.foldl (State.closeOut l ((s.lane l).screenOut line)) (s.setLane l y)).lane l).outsideQuiet ch =
        (s.lane l).endsOutside line ch := fun ch hmem => by
    have h := hsame ch channelNumbers (s.setLane l y) (by rw [State.lane_setLane]; exact .refl y ch)
    have hscreen : y.screen ch = (s.lane l).screenAfter line ch := by
      have hlt : ch < 20 := List.mem_range.1 hmem
      simp [hy, Lane.screen, channelNumbers, List.getD_eq_getElem?_getD, hlt]
    rw [Lane.outsideQuiet, h.screened, h.screen, hscreen, hy]
    rfl
  have hleft : (channelNumbers.any fun ch =>
      ((channelNumbers.foldl (State.closeOut l ((s.lane l).screenOut line)) (s.setLane l y)).lane l).outsideQuiet ch &&
        !(s.lane l).outsideQuiet ch) = channelNumbers.any fun ch => (s.lane l).endsOutside line ch && !(s.lane l).outsideQuiet ch := by
    rw [Bool.eq_iff_iff, List.any_eq_true, List.any_eq_true]
    exact exists_congr fun ch => and_congr_right fun hmem => by rw [houtside ch hmem]
  have hout : channelNumbers.any
      ((channelNumbers.foldl (State.closeOut l ((s.lane l).screenOut line)) (s.setLane l y)).lane l).outsideQuiet =
      channelNumbers.any ((s.lane l).endsOutside line) := by
    rw [Bool.eq_iff_iff, List.any_eq_true, List.any_eq_true]
    exact exists_congr fun ch => and_congr_right fun hmem => by rw [houtside ch hmem]
  have hroi : ∀ roi, (channelNumbers.foldl (State.closeOut l ((s.lane l).screenOut line)) (s.setLane l y)).upd l
      (fun x => { x with roi := roi }) =
      channelNumbers.foldl (State.closeOut l ((s.lane l).screenOut line)) (s.setLane l { y with roi := roi }) := fun roi => by
    rw [← List.foldl_hom (fun t : State => t.upd l fun x => { x with roi := roi })
      (fun t ch => State.closeOut_upd (Lane.aside_setRoi roi) l _ t ch), State.upd_eq_setLane, State.setLane_setLane, State.lane_setLane]
  unfold State.screenLine
  dsimp only
  rw [State.screenChannels_eq line hlen, ← hy, hleft, hout, hroi, hy]
  rfl

/-! ### A committed line (R39, R65 to R75, R90) -/

/-- Before the screening unit, a committed line changes the store, the detector and the tube's record. -/
theorem Lane.landmarkLine_storeLine (x : Lane) (f : Tube → Tube) (c : CapLine) (line : ChanLine) :
    ∃ store detector tube, ((x.updTube f).storeLine c).landmarkLine line =
      { x with store := store, detector := detector, ctl := { x.ctl with tube := tube } } := by
  have hstore : ∃ store, (x.updTube f).storeLine c = { x.updTube f with store := store } := by
    unfold Lane.storeLine
    split
    · exact ⟨_, rfl⟩
    · exact ⟨x.store, rfl⟩
  obtain ⟨store, hstore⟩ := hstore
  rw [hstore, Lane.landmarkLine]
  dsimp only
  split
  · rename_i v _ _
    generalize runStep _ _ _ _ _ = r
    rcases r with ⟨run, _ | candidate⟩ <;> exact ⟨_, _, _, rfl⟩
  · exact ⟨_, _, _, rfl⟩

theorem Lane.screens_screenAfter {x : Lane} {line : ChanLine} {ch : Nat} (h : ch < 20) :
    (channelNumbers.map (x.screenAfter line))[ch]? = some (x.screenAfter line ch) := by
  simp [channelNumbers, h]

theorem Lane.outsideQuiet_iff (x : Lane) (ch : Nat) :
    x.outsideQuiet ch = true ↔ x.screened ch = true ∧ (x.screen ch).phase ≠ .quiet := by
  rw [Lane.outsideQuiet, Bool.and_eq_true, bne_iff_ne]

theorem Lane.endsOutside_iff (x : Lane) (line : ChanLine) (ch : Nat) :
    x.endsOutside line ch = true ↔ x.screened ch = true ∧ (x.screenAfter line ch).phase ≠ .quiet := by
  rw [Lane.endsOutside, Bool.and_eq_true, bne_iff_ne]

/-- A channel leaves QUIET where it was quiet and ends the line outside QUIET (R75). -/
theorem Lane.leavesQuiet_iff (x : Lane) (line : ChanLine) (ch : Nat) :
    (x.endsOutside line ch && !x.outsideQuiet ch) = true ↔
      x.screened ch = true ∧ (x.screen ch).phase = .quiet ∧ (x.screenAfter line ch).phase ≠ .quiet := by
  rw [Bool.and_eq_true, Bool.not_eq_true', ← Bool.not_eq_true, Lane.endsOutside_iff, Lane.outsideQuiet_iff]
  tauto

theorem any_channel_iff {p : Nat → Bool} {q : Nat → Prop} (h : ∀ ch < 20, p ch = true ↔ q ch) :
    channelNumbers.any p = true ↔ ∃ ch < 20, q ch := by
  rw [List.any_eq_true]
  exact exists_congr fun ch => by
    rw [show ch ∈ channelNumbers ↔ ch < 20 from List.mem_range]
    exact and_congr_right (h ch)

/-- What a committed line does: the tube's counts, the store and the landmark detector; the screens and the ROI; the closing spans
in turn; the assemblers (R39, R74 to R76, R163). -/
theorem State.commitLine_eq {s : State} {l : LaneId} {x y : Lane} {c : CapLine} {line : ChanLine} (hx : x = s.lane l)
    (hlen : x.screens.length = 20) (hline : line = x.chanLine c)
    (hy : y = ((x.updTube fun u => u.countCommit s.clock c).storeLine c).landmarkLine line) :
    State.commitLine l s c =
      ((((channelNumbers.foldl (State.closeOut l (x.screenOut line))
          (s.setLane l { y with screens := channelNumbers.map (x.screenAfter line), roi := (x.roiAfter line).1 })).lineAssembler l line
            (x.roiAfter line).2)).regionAssembler l line (x.roiAfter line).2) := by
  obtain ⟨store, detector, tube, hform⟩ := x.landmarkLine_storeLine (fun u => u.countCommit s.clock c) c line
  have hout : y.screenOut line = x.screenOut line := by rw [hy, hform]; rfl
  have hafter : y.screenAfter line = x.screenAfter line := by rw [hy, hform]; rfl
  have hroi : y.roiAfter line = x.roiAfter line := by rw [hy, hform]; rfl
  have hscreened := State.screenLine_eq (s := s.setLane l y) (l := l) line (by rw [State.lane_setLane, hy, hform]; exact hlen)
  rw [State.lane_setLane, State.setLane_setLane, hout, hafter, hroi] at hscreened
  rw [State.commitLine, State.upd_eq_setLane, ← hx, ← hline, ← hy]
  rw [hscreened]

/-- A committed line with its screen steps, its screens and its two ROI conditions laid open (R74, R75). -/
theorem State.commitLine_screened {s : State} {l : LaneId} {x y : Lane} {c : CapLine} {line : ChanLine} (hx : x = s.lane l)
    (hlen : x.screens.length = 20) (hline : line = x.chanLine c)
    (hy : y = ((x.updTube fun u => u.countCommit s.clock c).storeLine c).landmarkLine line) :
    ∃ (w : State) (out : Nat → Option ScreenStep) (after : List Screen) (left outside : Bool),
      State.commitLine l s c =
        (w.lineAssembler l line (roiStep x.roi left outside).2).regionAssembler l line (roiStep x.roi left outside).2 ∧
      (∀ ch < 20,
        out ch =
          if x.screened ch then
            (line.value ch).map fun v => stepScreen (x.facets ch).screening (x.screens.getD ch Screen.reset) c.index v c.ovr c.rep
          else none) ∧
      after.length = 20 ∧
      (∀ ch < 20, after[ch]? = some (((out ch).map fun r => r.screen).getD (x.screens.getD ch Screen.reset))) ∧
      (left = true ↔
        ∃ ch < 20, x.screened ch = true ∧ (x.screens.getD ch Screen.reset).phase = .quiet ∧
          (after.getD ch Screen.reset).phase ≠ .quiet) ∧
      (outside = true ↔ ∃ ch < 20, x.screened ch = true ∧ (after.getD ch Screen.reset).phase ≠ .quiet) ∧
      w = channelNumbers.foldl (State.closeOut l out)
        (s.setLane l { y with screens := after, roi := (roiStep x.roi left outside).1 }) := by
  have hgetD : ∀ ch < 20, (channelNumbers.map (x.screenAfter line)).getD ch Screen.reset = x.screenAfter line ch := fun ch hch => by
    rw [List.getD_eq_getElem?_getD, Lane.screens_screenAfter hch, Option.getD_some]
  refine ⟨_, x.screenOut line, channelNumbers.map (x.screenAfter line), _, _,
    State.commitLine_eq hx hlen hline hy, fun ch _ => by rw [hline]; rfl, rfl, fun ch hch => Lane.screens_screenAfter hch,
    any_channel_iff fun ch hch => ?_, any_channel_iff fun ch hch => ?_, rfl⟩
  · rw [hgetD ch hch]
    exact x.leavesQuiet_iff line ch
  · rw [hgetD ch hch]
    exact x.endsOutside_iff line ch

/-! ### The end of the pull (R73) -/

/-- A channel's screen after the end of the pull: a candidate and an open indication leave it quiet (R73). -/
def Lane.screenEnded (x : Lane) (ch : Nat) : Screen :=
  if x.outsideQuiet ch then { x.screen ch with phase := .quiet, count := 0, span := [] } else x.screen ch

/-- A channel whose open indication the end of the pull closes (R73). -/
def Lane.closesAtEnd (x : Lane) (ch : Nat) : Bool :=
  x.screened ch && ((x.screen ch).phase == .opened || (x.screen ch).phase == .releasing)

/-- The tube's TRUNCATED flag, raised on a condition (R73). -/
def Lane.flagTruncated (raise : Bool) (x : Lane) : Lane := x.updFlags fun f => { f with truncated := f.truncated || raise }

/-- An open indication that the end of the pull closes, handed on (R73). -/
def State.closeEnded (l : LaneId) (x : Lane) (s : State) (ch : Nat) : State :=
  if x.closesAtEnd ch then s.closeSpan l ch (x.screen ch).span false true else s

/-- What the end of the pull writes for a channel before the hand-on. -/
def Lane.endScreen (x : Lane) (ch : Nat) (y : Lane) : Lane := (y.setScreen x.screenEnded ch).flagTruncated (x.closesAtEnd ch)

theorem Lane.flagTruncated_false (x : Lane) : x.flagTruncated false = x := by
  have hid : (fun t : Tube => { t with flags := { t.flags with truncated := t.flags.truncated || false } }) = id := by
    funext t
    simp only [Bool.or_false]
    rfl
  rw [Lane.flagTruncated, Lane.updFlags, Lane.updTube, hid, Option.map_id_fun, id_eq]

theorem Lane.flagTruncated_flagTruncated (a b : Bool) (x : Lane) :
    (x.flagTruncated a).flagTruncated b = x.flagTruncated (a || b) := by
  simp only [Lane.flagTruncated, Lane.updFlags, Lane.updTube, Option.map_map, Function.comp_def, Bool.or_assoc]

theorem Lane.setScreen_flagTruncated (new : Nat → Screen) (ch : Nat) (raise : Bool) (x : Lane) :
    (x.flagTruncated raise).setScreen new ch = (x.setScreen new ch).flagTruncated raise := rfl

/-- An entry joins the catalogue without regard to the tube's TRUNCATED flag. -/
theorem Tube.join_truncated (t : Tube) (e : CatEntry) (raise : Bool) :
    ({ t with flags := { t.flags with truncated := t.flags.truncated || raise } } : Tube).join e =
      { t.join e with flags := { (t.join e).flags with truncated := (t.join e).flags.truncated || raise } } := by
  unfold Tube.join
  dsimp only
  split
  · rfl
  · split
    · rfl
    · split <;> rfl

theorem Lane.aside_flagTruncated (raise : Bool) : Lane.Aside (Lane.flagTruncated raise) where
  facets _ _ := rfl
  detector _ := rfl
  motion _ := rfl
  tag x := by
    rw [Lane.tag, Lane.flagTruncated, Lane.updFlags, Lane.updTube]
    exact Option.map_map ..
  jobs _ := rfl
  setJobs _ _ := rfl
  join x e := by
    simp only [Lane.flagTruncated, Lane.updFlags, Lane.updTube, Option.map_map, Function.comp_def, Tube.join_truncated]

theorem Lane.Aside.comp {f g : Lane → Lane} (hg : Lane.Aside g) (hf : Lane.Aside f) : Lane.Aside fun x => g (f x) where
  facets x ch := (hg.facets _ ch).trans (hf.facets x ch)
  detector x := (hg.detector _).trans (hf.detector x)
  motion x := (hg.motion _).trans (hf.motion x)
  tag x := (hg.tag _).trans (hf.tag x)
  jobs x := (hg.jobs _).trans (hf.jobs x)
  setJobs x jobs := by rw [hf.setJobs, hg.setJobs]
  join x e := by rw [hf.join, hg.join]

theorem Lane.aside_endScreen (x : Lane) (ch : Nat) : Lane.Aside (x.endScreen ch) :=
  (Lane.aside_flagTruncated _).comp (Lane.aside_setScreen _ ch)

theorem Lane.SameChannel.endScreen {x y : Lane} {ch k : Nat} (h : x.SameChannel ch y) (hne : k ≠ ch) :
    x.SameChannel ch (x.endScreen k y) := by
  obtain ⟨hscreened, hfacets, hscreen⟩ := h.setScreen x.screenEnded hne
  exact ⟨hscreened, hfacets, hscreen⟩

theorem Lane.SameChannel.closeEnded {x : Lane} {s : State} {l : LaneId} {ch : Nat} (h : x.SameChannel ch (s.lane l)) (k : Nat) :
    x.SameChannel ch ((s.closeEnded l x k).lane l) := by
  unfold State.closeEnded
  split
  · exact h.closeSpan k _ _ _
  · exact h

theorem State.closeEnded_upd {f : Lane → Lane} (hf : Lane.Aside f) (l : LaneId) (x : Lane) (s : State) (ch : Nat) :
    (s.upd l f).closeEnded l x ch = (s.closeEnded l x ch).upd l f := by
  unfold State.closeEnded
  split
  · exact State.closeSpan_upd hf s l ch _ _ _
  · rfl

/-- A channel that is quiet or not screened does not see the end of the pull (R73). -/
theorem State.screenEndChannel_quiet {s : State} {l : LaneId} {ch : Nat} (h : (s.lane l).outsideQuiet ch = false) :
    s.screenEndChannel l ch = s := by
  unfold State.screenEndChannel
  rw [Lane.outsideQuiet] at h
  dsimp only
  split
  · rename_i hon
    rw [hon, Bool.true_and, bne_eq_false_iff_eq] at h
    rw [h]
  · rfl

/-- A candidate is discarded at the end of the pull (R73). -/
theorem State.screenEndChannel_confirming {s : State} {l : LaneId} {ch : Nat} (hon : (s.lane l).screened ch = true)
    (h : ((s.lane l).screen ch).phase = .confirming) :
    s.screenEndChannel l ch =
      s.upd l fun y => { y with screens := y.screens.set ch { (s.lane l).screen ch with phase := .quiet, count := 0, span := [] } } := by
  unfold State.screenEndChannel
  dsimp only
  rw [if_pos hon, h]

/-- An open indication closes TRUNCATED at the end of the pull, with the tube's flag (R73). -/
theorem State.screenEndChannel_open {s : State} {l : LaneId} {ch : Nat} (h : (s.lane l).closesAtEnd ch = true) :
    s.screenEndChannel l ch =
      (s.upd l fun y =>
        ({ y with screens := y.screens.set ch { (s.lane l).screen ch with phase := .quiet, count := 0, span := [] } } : Lane).updFlags
          fun f => { f with truncated := true }).closeSpan l ch ((s.lane l).screen ch).span false true := by
  rw [Lane.closesAtEnd, Bool.and_eq_true, Bool.or_eq_true, beq_iff_eq, beq_iff_eq] at h
  obtain ⟨hon, h | h⟩ := h <;>
  · unfold State.screenEndChannel
    dsimp only
    rw [if_pos hon, h]
    exact congrArg (fun t : State => t.closeSpan l ch _ false true) (s.upd_upd l _ _)

theorem Lane.SameChannel.outsideQuiet {x y : Lane} {ch : Nat} (h : x.SameChannel ch y) : y.outsideQuiet ch = x.outsideQuiet ch := by
  rw [Lane.outsideQuiet, Lane.outsideQuiet, h.screened, h.screen]

theorem Lane.SameChannel.closesAtEnd {x y : Lane} {ch : Nat} (h : x.SameChannel ch y) : y.closesAtEnd ch = x.closesAtEnd ch := by
  rw [Lane.closesAtEnd, Lane.closesAtEnd, h.screened, h.screen]

/-- A channel takes the end of the pull: its screen and the tube's flag are written, then its open indication is handed on (R73). -/
theorem State.screenEndChannel_eq {s : State} {l : LaneId} {x : Lane} {ch : Nat} (h : x.SameChannel ch (s.lane l)) :
    s.screenEndChannel l ch = (s.upd l (x.endScreen ch)).closeEnded l x ch := by
  have hended : x.outsideQuiet ch = true →
      x.screenEnded ch = { (s.lane l).screen ch with phase := .quiet, count := 0, span := [] } := fun hout => by
    rw [h.screen]
    exact if_pos hout
  cases hcloses : x.closesAtEnd ch with
  | true =>
    have hout : x.outsideQuiet ch = true := by
      rw [Lane.closesAtEnd, Bool.and_eq_true, Bool.or_eq_true, beq_iff_eq, beq_iff_eq] at hcloses
      obtain ⟨hon, hphase⟩ := hcloses
      exact (x.outsideQuiet_iff ch).2 ⟨hon, fun hq => by simp [hq] at hphase⟩
    rw [State.screenEndChannel_open (h.closesAtEnd.trans hcloses), ← hended hout, h.screen, State.closeEnded, if_pos hcloses]
    congr 2
    funext y
    rw [Lane.endScreen, hcloses, Lane.flagTruncated]
    simp only [Bool.or_true]
    rfl
  | false =>
    rw [State.closeEnded, hcloses, if_neg Bool.false_ne_true]
    have hend : x.endScreen ch = Lane.setScreen x.screenEnded ch := by
      funext y
      rw [Lane.endScreen, hcloses, Lane.flagTruncated_false]
    rw [hend]
    cases hout : x.outsideQuiet ch with
    | false =>
      rw [State.screenEndChannel_quiet (h.outsideQuiet.trans hout), State.upd_eq_setLane, Lane.setScreen_self, State.setLane_lane]
      rw [h.screen, Lane.screenEnded, hout]
      rfl
    | true =>
      obtain ⟨hon, hne⟩ := (x.outsideQuiet_iff ch).1 hout
      have hphase : (x.screen ch).phase = .confirming := by
        rw [Lane.closesAtEnd, hon] at hcloses
        cases hp : (x.screen ch).phase <;> simp_all
      rw [State.screenEndChannel_confirming (h.screened.trans hon) (by rw [h.screen, hphase]), ← hended hout]
      rfl

/-- What the end of the pull writes for the channels in turn. -/
theorem Lane.foldl_endScreen (x : Lane) (chs : List Nat) : ∀ y : Lane,
    chs.foldl (fun y ch => x.endScreen ch y) y =
      (chs.foldl (fun y ch => y.setScreen x.screenEnded ch) y).flagTruncated (chs.any x.closesAtEnd) := by
  induction chs with
  | nil => exact fun y => y.flagTruncated_false.symm
  | cons ch chs ih =>
    intro y
    have hflag : ∀ (ks : List Nat) (raise : Bool) (z : Lane),
        ks.foldl (fun y ch => y.setScreen x.screenEnded ch) (z.flagTruncated raise) =
          (ks.foldl (fun y ch => y.setScreen x.screenEnded ch) z).flagTruncated raise := fun ks raise z =>
      List.foldl_hom (Lane.flagTruncated raise) fun y k => Lane.setScreen_flagTruncated _ k raise y
    rw [List.foldl_cons, ih, Lane.endScreen, hflag, Lane.flagTruncated_flagTruncated, List.foldl_cons, List.any_cons]

/-- The end of the pull: the screens, the ROI and the tube's flag are written, then the open indications are handed on in turn (R73). -/
theorem State.screenEnd_eq {s : State} {l : LaneId} {x : Lane} (hx : x = s.lane l) (hlen : x.screens.length = 20) :
    s.screenEnd l =
      channelNumbers.foldl (State.closeEnded l x)
        (s.setLane l
          (({ x with screens := channelNumbers.map x.screenEnded, roi := none } : Lane).flagTruncated
            (channelNumbers.any x.closesAtEnd))) := by
  have hfirst := foldl_changes_first (l := l) (step := State.screenEndChannel l) (act := State.closeEnded l x)
    (change := x.endScreen) (holds := fun ch y => x.SameChannel ch y)
    (fun t ch h => State.screenEndChannel_eq h)
    (fun t ch ch' => State.closeEnded_upd (Lane.aside_endScreen x ch') l x t ch)
    (fun y ch ch' hne h => h.endScreen hne)
    (fun t ch ch' h => h.closeEnded ch)
    channelNumbers s List.nodup_range (fun ch _ => by rw [← hx]; exact .refl x ch)
  rw [State.screenEnd, hfirst, State.upd_eq_setLane s, ← hx, Lane.foldl_endScreen, Lane.foldl_setScreen hlen,
    ← List.foldl_hom (fun t : State => t.upd l fun y => { y with roi := none })
      (fun t ch => State.closeEnded_upd (Lane.aside_setRoi none) l x t ch),
    State.upd_eq_setLane (s.setLane l _), State.setLane_setLane, State.lane_setLane]
  rfl

theorem Lane.closesAtEnd_iff (x : Lane) (ch : Nat) :
    x.closesAtEnd ch = true ↔ x.screened ch = true ∧ ((x.screen ch).phase = .opened ∨ (x.screen ch).phase = .releasing) := by
  rw [Lane.closesAtEnd, Bool.and_eq_true, Bool.or_eq_true, beq_iff_eq, beq_iff_eq]

theorem Lane.screenEnded_eq {x : Lane} {ch : Nat} {k : Screen} (h : x.screens[ch]? = some k) :
    x.screenEnded ch =
      if x.screened ch = true ∧ k.phase ≠ .quiet then { phase := .quiet, baseline := k.baseline, count := 0, span := [] } else k := by
  have hk : x.screen ch = k := by rw [Lane.screen, List.getD_eq_getElem?_getD, h, Option.getD_some]
  simp only [Lane.screenEnded, Lane.outsideQuiet_iff, hk]

/-- The screens after the end of the pull, found channel by channel. -/
theorem Lane.screens_screenEnded {x : Lane} {after : List Screen} (hx : x.screens.length = 20) (hlen : after.length = 20)
    (h : ∀ (ch : Nat) (k : Screen), x.screens[ch]? = some k →
      after[ch]? =
        some
          (if x.screened ch = true ∧ k.phase ≠ .quiet then { phase := .quiet, baseline := k.baseline, count := 0, span := [] }
          else k)) : channelNumbers.map x.screenEnded = after := by
  apply List.ext_getElem?
  intro ch
  by_cases hch : ch < 20
  · have hk : x.screens[ch]? = some x.screens[ch] := List.getElem?_eq_getElem (by omega)
    rw [h ch _ hk, ← Lane.screenEnded_eq hk]
    simp [channelNumbers, hch]
  · rw [List.getElem?_eq_none (by rw [List.length_map]; exact Nat.le_of_not_lt hch), List.getElem?_eq_none (by omega)]

/-! ### The assemblers (chapter 9) -/

/-- A close puts the open block at the back of the outbound queue (R163). -/
theorem State.closeBlock_some {s : State} {l : LaneId} {kind : BlockKind} {b : Block} (h : (s.lane l).block kind = some b) :
    (s.closeBlock l kind).pool = { s.pool with queue := s.pool.queue ++ [.lineBlock l b] } := by
  unfold State.closeBlock
  rw [h]
  dsimp only
  rw [State.enqueue_pool, State.upd_pool]

theorem State.closeBlock_none {s : State} {l : LaneId} {kind : BlockKind} (h : (s.lane l).block kind = none) :
    s.closeBlock l kind = s := by
  unfold State.closeBlock
  rw [h]

/-- A close adds the open block, if there is one, to the outbound queue (R163). -/
theorem State.closeBlock_pool (s : State) (l : LaneId) (kind : BlockKind) :
    (s.closeBlock l kind).pool =
      { s.pool with queue := s.pool.queue ++ ((s.lane l).block kind).toList.map fun b => .lineBlock l b } := by
  cases h : (s.lane l).block kind with
  | none => rw [State.closeBlock_none h, Option.toList_none, List.map_nil, List.append_nil]
  | some b => exact State.closeBlock_some h

theorem State.closeBlock_engine (s : State) (l : LaneId) (kind : BlockKind) : (s.closeBlock l kind).engine = s.engine := by
  obtain ⟨_, h⟩ | ⟨b, _, h⟩ := s.closeBlock_cases l kind <;> rw [h]
  rw [(State.enqueue_reports _ _).engine, State.upd_engine]

theorem Lane.setBlock_setBlock (x : Lane) (kind : BlockKind) (a b : Option Block) :
    (x.setBlock kind a).setBlock kind b = x.setBlock kind b := by cases kind <;> rfl

theorem Lane.mask_length_le (x : Lane) (kind : BlockKind) : (x.mask kind).length ≤ 20 := List.length_filter_le _ _

/-- A block has room for more than one line (R162). -/
theorem one_lt_capacity {k : Nat} (h : k ≤ 20) : 0 + 1 < capacity k := by
  have : 2 ≤ 1984 / (4 + 4 * k) := (Nat.le_div_iff_mul_le (by omega)).2 (by omega)
  rw [capacity]
  omega

/-- The block that a line opens, with the lines it holds (R163). -/
def Lane.newBlock (x : Lane) (kind : BlockKind) (line : RingLine) (lines : List BlockLine) : Block :=
  { kind := kind, tag := x.tag.getD 0, first := line.index, mask := x.mask kind, correction := line.correction, lines := lines }

section Placing

variable {s : State} {l : LaneId} {kind : BlockKind} {line : RingLine} {b : Block}

/-- A line joins an open block of its correction (R163). -/
theorem State.placeLine_open (hb : (s.lane l).block kind = some b) (hcor : b.correction = line.correction) :
    s.placeLine l kind line = s.appendLine l kind line := by
  have hmoved : (s.lane l).correctionMoved kind line = false := by
    rw [Lane.correctionMoved, hb]
    exact bne_eq_false_iff_eq.2 hcor
  rw [State.placeLine, hmoved]
  rw [if_neg Bool.false_ne_true, hb]
  rfl

/-- An open block of another correction is closed first (R163). -/
theorem State.placeLine_moved (hb : (s.lane l).block kind = some b) (hcor : b.correction ≠ line.correction) :
    s.placeLine l kind line = (s.closeBlock l kind).placeLine l kind line := by
  have hmoved : (s.lane l).correctionMoved kind line = true := by
    rw [Lane.correctionMoved, hb]
    exact bne_iff_ne.2 hcor
  have hstill : ((s.closeBlock l kind).lane l).correctionMoved kind line = false := by
    rw [State.closeBlock_lane, Lane.correctionMoved, Lane.block_setBlock]
  rw [State.placeLine, State.placeLine, hmoved, hstill]
  rfl

/-- Without an open block one is opened, if it can be, before the line is appended (R163). -/
theorem State.placeLine_none (hb : (s.lane l).block kind = none) :
    s.placeLine l kind line = (s.openBlock l kind line).appendLine l kind line := by
  have hmoved : (s.lane l).correctionMoved kind line = false := by rw [Lane.correctionMoved, hb]
  rw [State.placeLine, hmoved]
  rw [if_neg Bool.false_ne_true, hb]
  rfl

/-- A block with room takes a line (R163). -/
theorem State.appendLine_room (hb : (s.lane l).block kind = some b) (hroom : b.lines.length + 1 < capacity b.mask.length) :
    s.appendLine l kind line =
      s.setLane l
        ((s.lane l).setBlock kind (some { b with lines := b.lines ++ [{ flags := line.flags, values := line.values }] })) := by
  unfold State.appendLine
  rw [hb]
  dsimp only
  rw [List.length_append, List.length_singleton, if_neg (Nat.not_le.2 hroom), State.upd_eq_setLane]

/-- The line that fills a block closes it (R163). -/
theorem State.appendLine_full (hb : (s.lane l).block kind = some b) (hfull : capacity b.mask.length ≤ b.lines.length + 1) :
    s.appendLine l kind line =
      (s.setLane l
        ((s.lane l).setBlock kind (some { b with lines := b.lines ++ [{ flags := line.flags, values := line.values }] }))).closeBlock
          l kind := by
  unfold State.appendLine
  rw [hb]
  dsimp only
  rw [List.length_append, List.length_singleton, if_pos hfull, State.upd_eq_setLane]

/-- A block takes a buffer while more than 16 are free (R161, R163). -/
theorem State.openBlock_free (hfree : 16 < s.pool.free) :
    s.openBlock l kind line =
      (s.setLane l ((s.lane l).setBlock kind (some ((s.lane l).newBlock kind line [])))).takeBuffer :=
  if_pos hfree

/-- Without an open block and with more than 16 buffers free, a line opens a block and is its first (R163). -/
theorem State.placeLine_opens (hb : (s.lane l).block kind = none) (hfree : 16 < s.pool.free) :
    s.placeLine l kind line =
      (s.openBlock l kind line).setLane l
        ((s.lane l).setBlock kind
          (some ((s.lane l).newBlock kind line [{ flags := line.flags, values := line.values }]))) := by
  have hlane : ((s.openBlock l kind line).lane l) = (s.lane l).setBlock kind (some ((s.lane l).newBlock kind line [])) := by
    rw [State.openBlock_free hfree, (State.takeBuffer_reports _).lane, State.lane_setLane]
  have hblock : ((s.openBlock l kind line).lane l).block kind = some ((s.lane l).newBlock kind line []) := by
    rw [hlane, Lane.block_setBlock]
  rw [State.placeLine_none hb, State.appendLine_room hblock (one_lt_capacity (Lane.mask_length_le _ kind)), hlane,
    Lane.setBlock_setBlock]
  rfl

/-- Without an open block and with at most 16 buffers free, a line is lost (R161, R164). -/
theorem State.placeLine_lost (hb : (s.lane l).block kind = none) (hfree : s.pool.free ≤ 16) :
    s.placeLine l kind line = s.loseLine l := by
  rw [State.placeLine_none hb, State.openBlock, if_neg (show ¬ Config.reserve < s.pool.free from Nat.not_lt.2 hfree),
    State.appendLine, hb]

/-- A lost line of a tube whose count has room (R164). -/
theorem State.loseLine_below {u : Tube} (hu : (s.lane l).ctl.tube = some u) (hlost : u.lost < 4294967295) :
    s.loseLine l =
      s.setLane l
        { s.lane l with
          ctl :=
            { (s.lane l).ctl with
              tube := some { u with lost := u.lost + 1, flags := { u.flags with dataGap := true } } } } := by
  rw [State.loseLine, State.upd_eq_setLane, Lane.updTube_some hu, countTube_below _ _ hlost]

end Placing

/-! ### A buffer taken for a block (R159) -/

/-- A buffer taken with the pool clear of its levels (R159). -/
theorem State.takeBuffer_stays {s : State} (hfree : 0 < s.pool.free)
    (h : s.pool.tight = true ∧ s.pool.free ≤ s.pool.resume ∨ s.pool.tight = false ∧ s.pool.low + 1 < s.pool.free) :
    s.takeBuffer.pool = { s.pool with free := s.pool.free - 1 } := by
  unfold State.takeBuffer
  obtain ⟨_, _, htest⟩ | ⟨htight, hlevel, _⟩ | ⟨_, _, htest⟩ | ⟨htight, hlevel, _⟩ :=
    State.testPool_cases { s with pool := { s.pool with free := s.pool.free - 1 } }
  · rw [htest]
  · dsimp only at htight hlevel
    obtain ⟨_, h⟩ | ⟨h, _⟩ := h
    · omega
    · rw [htight] at h
      cases h
  · rw [htest]
  · dsimp only at htight hlevel
    obtain ⟨h, _⟩ | ⟨_, h⟩ := h
    · rw [htight] at h
      cases h
    · omega

/-- A buffer taken down to the low level makes the pool TIGHT, whose notice takes another (R159). -/
theorem State.takeBuffer_tightens {s : State} (hfree : 1 < s.pool.free) (htight : s.pool.tight = false)
    (hlevel : s.pool.free ≤ s.pool.low + 1) :
    s.takeBuffer.pool =
      { s.pool with tight := true, free := s.pool.free - 2, queue := s.pool.queue ++ [.notice (unitNotice .poolTight)] } := by
  rw [State.takeBuffer, State.testPool]
  dsimp only
  rw [htight, if_neg Bool.false_ne_true, if_pos (by omega), State.becomeTight, State.rawNotice_pool]
  dsimp only
  rw [if_neg (by omega), Nat.sub_sub]

/-! ### The region assembler and the end of the pull (R165 to R168) -/

/-- The history ring holds the last 32 lines (R165). -/
theorem pushRing_eq {ring : List RingLine} (line : RingLine) (h : ring.length ≤ 32) :
    pushRing ring line = (ring ++ [line]).drop (ring.length + 1 - 32) := by
  unfold pushRing Config.ringMax
  split
  · have hlen : ring.length = 32 := by omega
    rw [hlen, List.drop_append_of_le_length (by omega)]
  · rw [show ring.length + 1 - 32 = 0 by omega, List.drop_zero]

section Region

variable {s : State} {l : LaneId} {line : ChanLine} {m : RegionMarks}

/-- With an empty mask the region assembler takes no line (R162). -/
theorem State.regionAssembler_empty (h : (s.lane l).mask .region = []) : s.regionAssembler l line m = s := by
  rw [State.regionAssembler, h]
  rfl

/-- A line outside a region goes to the history ring (R165). -/
theorem State.regionAssembler_outside (h : (s.lane l).mask .region ≠ []) (hwithin : m.within = false) :
    s.regionAssembler l line m =
      s.upd l fun y => { y with ring := pushRing y.ring ((s.lane l).assemblyLine .region line m) } := by
  rw [State.regionAssembler]
  dsimp only
  rw [if_neg (by rwa [List.isEmpty_iff]), hwithin]
  rfl

/-- The lines that a region's line places: on the region's first the history lines before it (R166). -/
def Lane.regionLines (x : Lane) (line : ChanLine) (m : RegionMarks) : List RingLine :=
  if m.first then x.ring.map RingLine.asHistory ++ [x.assemblyLine .region line m] else [x.assemblyLine .region line m]

/-- The lines of a region's line are placed in turn, the ring being emptied as its lines go (R166). -/
def State.placeRegion (s : State) (l : LaneId) (line : ChanLine) (m : RegionMarks) : State :=
  ((s.lane l).regionLines line m).foldl (fun u h => u.placeLine l .region h)
    (if m.first then s.setLane l { s.lane l with ring := [] } else s)

/-- A line within a region is placed, and the region's last closes the block (R166, R167). -/
theorem State.regionAssembler_within (h : (s.lane l).mask .region ≠ []) (hwithin : m.within = true) :
    s.regionAssembler l line m =
      if m.last then (s.placeRegion l line m).closeBlock l .region else s.placeRegion l line m := by
  rw [State.regionAssembler]
  dsimp only
  rw [if_neg (by rwa [List.isEmpty_iff]), hwithin, State.placeRegion, Lane.regionLines]
  cases m.first with
  | false => rfl
  | true =>
    simp only [if_true, List.foldl_append, List.foldl_cons, List.foldl_nil]
    rfl

end Region

/-- At the end of the pull both blocks join the outbound queue, the line assembler's first (R168). -/
theorem State.assemblersEnd_pool (s : State) (l : LaneId) :
    (s.assemblersEnd l).pool =
      { s.pool with
        queue :=
          s.pool.queue ++
            ((s.lane l).lineBlock.toList ++ (s.lane l).regionBlock.toList).map fun b => .lineBlock l b } := by
  have hregion : ((s.closeBlock l .full).lane l).block .region = (s.lane l).regionBlock := by
    rw [State.closeBlock_lane]
    rfl
  rw [State.assemblersEnd, State.upd_pool, State.closeBlock_pool, hregion, State.closeBlock_pool, List.map_append, List.append_assoc]
  rfl

theorem State.assemblersEnd_engine (s : State) (l : LaneId) : (s.assemblersEnd l).engine = s.engine := by
  rw [State.assemblersEnd, State.upd_engine, State.closeBlock_engine, State.closeBlock_engine]

/-! ### Committed lines, screened and placed -/

/-- A span store below 256 lines is not closed by force (R72). -/
theorem longClose_short {span : List SpanEntry} {v : Vec} {r : ScreenStep} (h : span.length < 256) : longClose span v r = r :=
  if_neg (show ¬ Config.spanMax ≤ span.length from Nat.not_le.2 h)

/-- The running time of a MEASURE job (R79). -/
theorem Job.runningTime_measure (tag : Nat) (ind : Indication) :
    (Job.measure tag ind).runningTime = 4000 + 40 * (ind.values.length * (ind.values.length - 1) / 2) := rfl

/-- Settles O58: each block that takes a committed line, by its equations above. -/
theorem committedLinesAreScreenedAndPlaced : Obligations.CommittedLinesAreScreenedAndPlaced := by
  unfold Obligations.CommittedLinesAreScreenedAndPlaced
  refine ⟨fun x samples ch => ⟨Lane.channelValue_inactive samples, ?_, ?_⟩, ?_, ?_, ?_, ?_, ?_, ?_, ?_, ?_, ?_, ?_, ?_⟩
  -- channel values
  · intro dx dy hch hact hdx hdy
    rw [Lane.channelValue_base samples hch hact, hdx, hdy]
    rfl
  · intro d p q hlo hhi hd hp hq hvp hvq
    rw [Lane.channelValue_mix hlo hhi hd hp hq hvp hvq]
    rfl
  -- screen states
  · intro set k index v b ovr rep d n span out hout hb hd hspan
    have hdev : deviation set.component v b = d := hd.symm
    subst hout
    refine ⟨fun hphase hbelow => ?_, fun hphase hbelow => ?_, fun hphase habove => ?_, fun hphase => ?_⟩
    · rw [stepScreen_quiet hphase hb.symm hdev hspan.symm, if_neg (Nat.not_le.2 hbelow)]
      exact ⟨rfl, rfl⟩
    · rw [stepScreen_confirming hphase hb.symm hdev hspan.symm, if_neg (Nat.not_le.2 hbelow)]
      exact ⟨rfl, rfl⟩
    · obtain ⟨hphase, rfl⟩ | ⟨hphase, rfl⟩ := hphase
      · rw [stepScreen_quiet hphase hb.symm hdev hspan.symm, if_pos habove]
        exact confirmLine_eq 1
      · rw [stepScreen_confirming hphase hb.symm hdev hspan.symm, if_pos habove]
        exact confirmLine_eq (k.count + 1)
    · rw [stepScreen_open hphase hb.symm hdev hspan.symm]
      refine ⟨fun hlong => if_pos hlong, fun hshort habove => ?_, fun hshort hbelow => ⟨fun hcount => ?_, fun hcount => ?_⟩⟩
      · rw [longClose_short hshort, if_pos habove]
        exact ⟨rfl, rfl⟩
      · rw [longClose_short hshort, if_neg (Nat.not_le.2 hbelow), tailLine, if_neg (Nat.not_le.2 hcount)]
        exact ⟨rfl, rfl⟩
      · rw [longClose_short hshort, if_neg (Nat.not_le.2 hbelow), tailLine, if_pos hcount]
  -- the span
  · intro ch closeTh core tail first last long truncated correction hfirst hlast hdev htail
    have htrim := trimTail_append hlast hdev htail
    obtain ⟨rest, rfl⟩ := List.head?_eq_some_iff.1 hfirst
    obtain ⟨i, hi, hpeak⟩ := peakOf_first first rest
    exact ⟨_, i, hi, hpeak, indicationOf_eq htrim hlast⟩
  -- the ROI
  · exact fun left outside => ⟨roiStep_none left outside, fun quiet => roiStep_some quiet left outside⟩
  -- a committed line
  · intro s l x y c line hx hlen hline hy
    obtain ⟨w, out, after, left, outside, hcommit, hout, hafter, hscreens, hleft, houtside, hw⟩ :=
      State.commitLine_screened hx hlen hline hy
    refine ⟨w, out, after, left, outside, hcommit, hout, hafter, fun ch hch => ?_, hleft, houtside, hw⟩
    rw [hscreens ch hch]
    cases out ch <;> rfl
  -- the end of the pull
  · intro s l x closes after hx hlen hcloses hafter hscreens
    obtain rfl : closes = x.closesAtEnd := funext fun ch => by
      rw [Bool.eq_iff_iff, hcloses]
      exact (x.closesAtEnd_iff ch).symm
    rw [State.screenEnd_eq hx hlen, Lane.screens_screenEnded hlen hafter hscreens]
    rfl
  -- a close
  · exact fun s l ch span long truncated => rfl
  -- hand-on
  · intro s l x ind n hx hn
    subst hx hn
    refine ⟨fun hroom hbusy => ?_, fun hjobs hidle => ?_, fun hfull => ⟨fun hu => ?_, fun u hu => ?_⟩⟩
    · rw [State.handOn_room ind hroom, State.appendJob_busy _ _ _ (Option.isNone_eq_false_iff.2 (Option.isSome_iff_ne_none.2 hbusy))]
    · rw [State.handOn_room ind (by rw [hjobs]; decide), State.appendJob_idle _ _ _ hidle hjobs, Job.runningTime_measure, ← Nat.add_assoc]
    · rw [State.handOn_full ind hfull, State.upd_eq_setLane, Lane.updTube_none hu, State.setLane_lane]
    · rw [State.handOn_full ind hfull, State.upd_eq_setLane, Lane.updTube_some hu]
      rfl
  -- the flush
  · exact fun s l => ⟨State.flush_empty, fun h rest hw => ⟨_, rfl, State.flush_cons hw rfl⟩⟩
  -- placing
  · intro s l kind line entry hentry
    subst hentry
    refine ⟨fun b hb hcor hroom => ?_, fun b hb hcor hfull => ?_, fun b hb hcor => ?_, fun hb hfree => ?_, fun hb hfree u hu hlost => ?_⟩
    · rw [State.placeLine_open hb hcor, State.appendLine_room hb hroom]
    · refine ⟨_, rfl, ?_, (s.placeLine_keeps l kind line).other, ?_⟩ <;>
        rw [State.placeLine_open hb hcor, State.appendLine_full hb hfull]
      · rw [State.closeBlock_lane, State.lane_setLane, Lane.setBlock_setBlock]
      · rw [State.closeBlock_some (by rw [State.lane_setLane, Lane.block_setBlock]), State.setLane_pool]
    · exact ⟨_, State.placeLine_moved hb hcor, s.closeBlock_lane l kind, (s.closeBlock_keeps l kind).other, State.closeBlock_some hb⟩
    · have hpool : (s.placeLine l kind line).pool =
          (s.setLane l ((s.lane l).setBlock kind (some ((s.lane l).newBlock kind line [])))).takeBuffer.pool := by
        rw [State.placeLine_opens hb hfree, State.setLane_pool, State.openBlock_free hfree]
      refine ⟨_, rfl, (s.placeLine_keeps l kind line).other, ?_, fun hlevels => ?_, fun htight hlevel => ?_⟩
      · rw [State.placeLine_opens hb hfree, State.lane_setLane]
        rfl
      · rw [hpool, State.takeBuffer_stays] <;> rw [State.setLane_pool]
        · omega
        · exact hlevels
      · rw [hpool, State.takeBuffer_tightens] <;> rw [State.setLane_pool]
        · omega
        · exact htight
        · exact hlevel
    · rw [State.placeLine_lost hb hfree, State.loseLine_below hu hlost]
  -- the two assemblers
  · intro s l line m full region hfull hregion
    obtain rfl : region = (s.lane l).assemblyLine .region line m := by
      rw [hregion, hfull]
      rfl
    refine ⟨?_, State.regionAssembler_empty, fun hmask hwithin hring => ?_, fun hmask hwithin => ?_⟩
    · rw [hfull]
      unfold State.lineAssembler
      simp only [List.isEmpty_iff]
      rfl
    · rw [State.regionAssembler_outside hmask hwithin, State.upd_eq_setLane, pushRing_eq _ hring]
    · refine ⟨s.placeRegion l line m, (s.lane l).regionLines line m, rfl, rfl, fun hlast => ?_, fun hlast => ?_⟩
      · rw [State.regionAssembler_within hmask hwithin, hlast]
        rfl
      · refine ⟨_, rfl, (s.regionAssembler_keeps l line m).other, ?_, ?_⟩ <;>
          rw [State.regionAssembler_within hmask hwithin, if_pos hlast]
        · exact State.closeBlock_lane _ l .region
        · cases hblock : ((s.placeRegion l line m).lane l).regionBlock with
          | none => exact congrArg State.pool (State.closeBlock_none (kind := .region) hblock)
          | some b => exact State.closeBlock_some (kind := .region) hblock
  -- the assemblers' end
  · intro s l
    have h := s.assemblersEnd_keeps l
    exact ⟨_, rfl, h.other, h.layouts, s.assemblersEnd_engine l, h.clock, h.pending, s.assemblersEnd_lane l, s.assemblersEnd_pool l⟩

end Sys2Proof.Machine

/-! Handler, engine and job queues in agreement (R56, R77, R78, R81, R178): what every step keeps of them. -/

namespace Sys2Proof.Machine

/-! ### What record memory and the transmitter do with an empty reply slot (R179, R180) -/

/-- From `s` to `t` only record memory, the reply slot and the transmitter may differ, and no reply enters an empty slot. -/
structure State.Transmits (s t : State) : Prop extends s.Reports t where
  slot : s.link.slot = none → t.link.slot = none

namespace State.Transmits

theorem refl (s : State) : s.Transmits s := ⟨.refl s, id⟩

theorem trans {s t u : State} (h : s.Transmits t) (k : t.Transmits u) : s.Transmits u :=
  ⟨h.toReports.trans k.toReports, k.slot ∘ h.slot⟩

theorem pool (s : State) (p : Pool) : s.Transmits { s with pool := p } := ⟨.pool s p, id⟩

end State.Transmits

theorem State.choose_transmits (s : State) : s.Transmits s.choose := by
  refine ⟨s.choose_reports, fun hslot => ?_⟩
  obtain ⟨_, _, hreply, _⟩ | ⟨_, _, _, _, _, h⟩ | ⟨_, h⟩ := s.choose_cases
  · rw [hslot] at hreply
    cases hreply
  all_goals
    rw [h]
    exact hslot

theorem State.kick_transmits (s : State) : s.Transmits s.kick := by
  obtain ⟨_, h⟩ | ⟨_, _, _, _, h⟩ := s.kick_cases <;> rw [h]
  · exact s.choose_transmits
  · exact .refl s

theorem State.enqueue_transmits (s : State) (r : Record) : s.Transmits (s.enqueue r) :=
  (Transmits.pool s _).trans (State.kick_transmits _)

theorem State.rawNotice_transmits (s : State) (n : Notice) : s.Transmits (s.rawNotice n) := by
  unfold State.rawNotice
  split
  · exact .pool s _
  · exact (Transmits.pool s _).trans (State.enqueue_transmits _ _)

theorem State.testPool_transmits (s : State) : s.Transmits s.testPool := by
  have easy : s.Transmits s.becomeEasy := (Transmits.pool s _).trans (State.rawNotice_transmits _ _)
  have tight : ∀ t : State, t.Transmits t.becomeTight := fun t => (Transmits.pool t _).trans (State.rawNotice_transmits _ _)
  obtain ⟨_, _, h⟩ | ⟨_, _, h | h⟩ | ⟨_, _, h⟩ | ⟨_, _, h⟩ := s.testPool_cases <;> rw [h]
  · exact .refl s
  · exact easy
  · exact easy.trans (tight _)
  · exact .refl s
  · exact tight s

theorem State.takeBuffer_transmits (s : State) : s.Transmits s.takeBuffer := (Transmits.pool s _).trans (State.testPool_transmits _)

theorem State.returnBuffer_transmits (s : State) : s.Transmits s.returnBuffer := (Transmits.pool s _).trans (State.testPool_transmits _)

theorem State.queueRecord_transmits (s : State) (r : Record) : s.Transmits (s.queueRecord r) :=
  ((Transmits.pool s _).trans (State.enqueue_transmits _ _)).trans (State.testPool_transmits _)

theorem State.formNotice_transmits (s : State) (n : Notice) : s.Transmits (s.formNotice n) := by
  unfold State.formNotice
  split
  · exact s.rawNotice_transmits n
  · exact s.queueRecord_transmits _

theorem State.emit_transmits (s : State) (l : LaneId) (kind : NoticeKind) (cause : Option FaultCause) :
    s.Transmits (s.emit l kind cause) := by
  unfold State.emit
  split
  · exact s.formNotice_transmits _
  · exact .refl s

/-! ### The stage of a lane

`Lane.stage` is what the legality of a job queue depends on: the lane's state, its held phase and the state a retraction returns to, its
armed stops and motion phase, whether line capture is armed and FINISH's wait over, and the queue. An update of anything else leaves it
as it is. -/

/-- The part of a lane that the legality of its job queue depends on. -/
structure Stage where
  /-- The lane state. -/
  state : LaneState
  /-- The held phase (R151). -/
  heldPhase : Option LaneState
  /-- The state a retraction returns to (R154). -/
  returnTo : Option LaneState
  /-- Stop A is armed (R25). -/
  armedA : Bool
  /-- Stop B is armed (R25). -/
  armedB : Bool
  /-- The motion phase of the drive (R121). -/
  motion : MotionPhase
  /-- Line capture is ARMED (R31). -/
  armed : Bool
  /-- FINISH's wait is over (R148). -/
  located : Bool
  /-- The job queue (R77). -/
  jobs : List Job

/-- The stage of a lane. -/
def Lane.stage (x : Lane) : Stage :=
  { state := x.ctl.state, heldPhase := x.ctl.heldPhase, returnTo := x.ctl.returnTo, armedA := x.pos.armedA, armedB := x.pos.armedB,
    motion := x.drive.phase, armed := x.capture.armed, located := x.ctl.tube.any Tube.located, jobs := x.jobs }

/-- The lane's state, or its held phase while HELD (R153). -/
def Stage.phase (k : Stage) : LaneState := if k.state = .held then k.heldPhase.getD .held else k.state

theorem Lane.stage_phase (x : Lane) : x.stage.phase = x.phaseOrHeld := rfl

/-- MEASURE jobs can wait in this phase (R80, R148). -/
abbrev LaneState.measures (st : LaneState) : Prop := st = .pull ∨ st = .withdraw ∨ st = .finish

/-- A stage in which the job queue is legal (R77, R31, R148) and the phases agree as the motor law has it (R26, R121, R151). -/
structure Stage.Orderly (k : Stage) : Prop where
  few : k.jobs.length ≤ Config.jobQueueMax
  measuring : k.jobs.any Job.isMeasure = true → k.phase.measures
  capturing : k.armed = true → k.phase = .pull
  located : k.located = true → k.state = .finish ∧ k.jobs.any Job.isMeasure = false
  held : k.state = .held ↔ k.heldPhase.isSome = true
  holdable : ∀ st, k.heldPhase = some st → st.holdable = true
  returning : ∀ st, k.returnTo = some st → st = .idle ∨ st = .faulted
  stopA : k.armedA = true → k.phase = .insert
  stopB : k.armedB = true → k.phase = .pull
  withdrawing : k.motion = .withdraw → k.state = .withdraw

/-- A stage before FINISH's wait is over, in which line capture is DISARMED. -/
structure Stage.Settled (k : Stage) : Prop where
  armed : k.armed = false
  located : k.located = false

/-- A settled stage without an armed stop, in which no MEASURE job waits. -/
structure Stage.Quiet (k : Stage) : Prop extends k.Settled where
  stopA : k.armedA = false
  stopB : k.armedB = false
  measure : k.jobs.any Job.isMeasure = false

/-- The stage after power-on and LANE_RESET. -/
def Stage.reset : Stage :=
  { state := .idle, heldPhase := none, returnTo := none, armedA := false, armedB := false, motion := .none, armed := false,
    located := false, jobs := [] }

/-- The lane is in an orderly stage. -/
def Lane.Orderly (x : Lane) : Prop := x.stage.Orderly

theorem Stage.phase_of_not_held {k : Stage} (h : k.state ≠ .held) : k.phase = k.state := if_neg h

theorem Stage.phase_eq {k : Stage} {st : LaneState} (hst : k.state = st) (hn : st ≠ .held) : k.phase = st :=
  (Stage.phase_of_not_held (hst ▸ hn)).trans hst

theorem Stage.state_ne_finish {k : Stage} (h : k.phase ≠ .finish) : k.state ≠ .finish := fun hf =>
  h (by rw [Stage.phase_of_not_held (by rw [hf]; decide), hf])

namespace Stage.Orderly

variable {k : Stage}

/-- Outside HELD no phase is remembered. -/
theorem heldPhase_none (h : k.Orderly) (hst : k.state ≠ .held) : k.heldPhase = none := by
  rw [← Option.not_isSome_iff_eq_none, ← h.held]
  exact hst

/-- FINISH's wait is not over in another state than FINISH. -/
theorem not_located (h : k.Orderly) (hst : k.state ≠ .finish) : k.located = false :=
  Bool.eq_false_iff.2 fun hl => hst (h.located hl).1

/-- No MEASURE job waits in another phase than those of a pull, a withdrawal and FINISH. -/
theorem no_measure (h : k.Orderly) (hp : ¬k.phase.measures) : k.jobs.any Job.isMeasure = false :=
  Bool.eq_false_iff.2 fun hm => hp (h.measuring hm)

/-- Line capture is DISARMED outside PULL. -/
theorem disarmed (h : k.Orderly) (hp : k.phase ≠ .pull) : k.armed = false := Bool.eq_false_iff.2 fun ha => hp (h.capturing ha)

/-- A phase other than PULL and FINISH is settled. -/
theorem settled (h : k.Orderly) (hp : k.phase ≠ .pull) (hf : k.phase ≠ .finish) : k.Settled :=
  ⟨h.disarmed hp, h.not_located (state_ne_finish hf)⟩

/-- A state in which nothing is under way. -/
theorem quiet (h : k.Orderly) (hp : ¬k.phase.measures ∧ k.phase ≠ .insert) : k.Quiet where
  toSettled := h.settled (fun hpull => hp.1 (.inl hpull)) fun hfinish => hp.1 (.inr (.inr hfinish))
  stopA := Bool.eq_false_iff.2 fun ha => hp.2 (h.stopA ha)
  stopB := Bool.eq_false_iff.2 fun hb => hp.1 (.inl (h.stopB hb))
  measure := h.no_measure hp.1

theorem of_reset : Stage.reset.Orderly :=
  { few := Nat.zero_le _, measuring := nofun, capturing := nofun, located := nofun, held := ⟨nofun, nofun⟩, holdable := nofun,
    returning := nofun, stopA := nofun, stopB := nofun, withdrawing := nofun }

/-- The lane enters a state other than HELD: what is armed belongs to the new state, and MEASURE jobs wait only where they may. -/
theorem enter (h : k.Orderly) {st : LaneState} {a b armed : Bool} {m : MotionPhase} (hst : st ≠ .held)
    (hmeasure : k.jobs.any Job.isMeasure = true → st.measures) (hlocated : k.located = false) (ha : a = true → st = .insert)
    (hb : b = true → st = .pull) (harmed : armed = true → st = .pull) (hm : m = .withdraw → st = .withdraw) :
    ({ k with state := st, heldPhase := none, armedA := a, armedB := b, motion := m, armed := armed } : Stage).Orderly := by
  have hphase : ({ k with state := st, heldPhase := none, armedA := a, armedB := b, motion := m, armed := armed } : Stage).phase = st :=
    phase_of_not_held hst
  exact
    { few := h.few, measuring := fun hj => by rw [hphase]; exact hmeasure hj, capturing := hphase.trans ∘ harmed,
      located := fun hl => absurd hl (Bool.eq_false_iff.1 hlocated), held := ⟨fun hh => absurd hh hst, nofun⟩, holdable := nofun,
      returning := h.returning, stopA := hphase.trans ∘ ha, stopB := hphase.trans ∘ hb, withdrawing := hm }

/-- The same from a state that is not HELD, where no held phase is to be forgotten. -/
theorem move (h : k.Orderly) (hk : k.state ≠ .held) {st : LaneState} {a b armed : Bool} {m : MotionPhase} (hst : st ≠ .held)
    (hmeasure : k.jobs.any Job.isMeasure = true → st.measures) (hlocated : k.located = false) (ha : a = true → st = .insert)
    (hb : b = true → st = .pull) (harmed : armed = true → st = .pull) (hm : m = .withdraw → st = .withdraw) :
    ({ k with state := st, armedA := a, armedB := b, motion := m, armed := armed } : Stage).Orderly := by
  rw [h.heldPhase_none hk]
  exact h.enter hst hmeasure hlocated ha hb harmed hm

/-- A state in which nothing is under way is entered from another. -/
theorem rest (h : k.Orderly) (hq : k.Quiet) {st : LaneState} {m : MotionPhase} (hst : st ≠ .held)
    (hm : m = .withdraw → st = .withdraw) :
    ({ k with state := st, heldPhase := none, motion := m } : Stage).Orderly :=
  h.enter hst (fun hj => absurd hj (Bool.eq_false_iff.1 hq.measure)) hq.located (fun ha => absurd ha (Bool.eq_false_iff.1 hq.stopA))
    (fun hb => absurd hb (Bool.eq_false_iff.1 hq.stopB)) (fun hc => absurd hc (Bool.eq_false_iff.1 hq.armed)) hm

/-- The same from a state that is not HELD. -/
theorem restMove (h : k.Orderly) (hq : k.Quiet) (hk : k.state ≠ .held) {st : LaneState} {m : MotionPhase} (hst : st ≠ .held)
    (hm : m = .withdraw → st = .withdraw) : ({ k with state := st, motion := m } : Stage).Orderly := by
  have hrest := h.rest hq hst hm
  rwa [← h.heldPhase_none hk] at hrest

/-- The lane leaves HELD for its held phase (R152). -/
theorem unhold (h : k.Orderly) {st : LaneState} (hk : k.state = .held) (hst : k.heldPhase = some st) :
    ({ k with state := st, heldPhase := none } : Stage).Orderly := by
  have hholds := h.holdable st hst
  have hheld : st ≠ .held := fun he => by rw [he] at hholds; cases hholds
  have hphase : k.phase = st := by rw [Stage.phase, if_pos hk, hst]; rfl
  have hcapture : k.armed = true → st = .pull := fun hc => hphase.symm.trans (h.capturing hc)
  exact h.enter hheld (fun hj => hphase ▸ h.measuring hj) (h.not_located (by rw [hk]; decide))
    (fun ha => hphase.symm.trans (h.stopA ha)) (fun hb => hphase.symm.trans (h.stopB hb)) hcapture
    fun hm => absurd (h.withdrawing hm) (by rw [hk]; decide)

/-- The lane is held in a phase that can be (R151). -/
theorem hold (h : k.Orderly) (hk : k.state.holdable = true) :
    ({ k with state := .held, heldPhase := some k.state, motion := .none } : Stage).Orderly := by
  have hst : k.state ≠ .held := fun he => by rw [he] at hk; cases hk
  have hphase : k.phase = k.state := Stage.phase_of_not_held hst
  have hfinish : k.state ≠ .finish := fun he => by rw [he] at hk; cases hk
  exact
    { few := h.few, measuring := fun hj => hphase ▸ h.measuring hj, capturing := fun hc => hphase ▸ h.capturing hc,
      located := fun hl => absurd (h.located hl).1 hfinish, held := ⟨fun _ => rfl, fun _ => rfl⟩,
      holdable := fun st hs => Option.some.inj hs ▸ hk, returning := h.returning, stopA := fun ha => hphase ▸ h.stopA ha,
      stopB := fun hb => hphase ▸ h.stopB hb, withdrawing := nofun }

/-- A new state for a retraction to return to. -/
theorem setReturn (h : k.Orderly) {r : Option LaneState} (hr : ∀ st, r = some st → st = .idle ∨ st = .faulted) :
    ({ k with returnTo := r } : Stage).Orderly := { h with returning := hr }

/-- FINISH's wait is over: no MEASURE job is left (R148). -/
theorem locate (h : k.Orderly) (hk : k.state = .finish) (hj : k.jobs.any Job.isMeasure = false) :
    ({ k with located := true } : Stage).Orderly := { h with located := fun _ => ⟨hk, hj⟩ }

/-- The lane has no tube, or one that is new. -/
theorem forget (h : k.Orderly) : ({ k with located := false } : Stage).Orderly := { h with located := nofun }

/-- A change of the motion phase that agrees with the state. -/
theorem setMotion (h : k.Orderly) {m : MotionPhase} (hm : m = .withdraw → k.state = .withdraw) :
    ({ k with motion := m } : Stage).Orderly := { h with withdrawing := hm }

/-- Stops disarmed. -/
theorem disarm (h : k.Orderly) {a b : Bool} (ha : a = true → k.armedA = true) (hb : b = true → k.armedB = true) :
    ({ k with armedA := a, armedB := b } : Stage).Orderly := { h with stopA := h.stopA ∘ ha, stopB := h.stopB ∘ hb }

/-- Line capture disarmed. -/
theorem disarmCapture (h : k.Orderly) : ({ k with armed := false } : Stage).Orderly := { h with capturing := nofun }

/-- The front job leaves the queue. -/
theorem pop (h : k.Orderly) {j : Job} {rest : List Job} (hj : k.jobs = j :: rest) : ({ k with jobs := rest } : Stage).Orderly := by
  have hfew := h.few
  rw [hj, List.length_cons] at hfew
  have hany : rest.any Job.isMeasure = true → k.jobs.any Job.isMeasure = true := fun hr => by
    rw [hj, List.any_cons, hr, Bool.or_true]
  exact
    { h with
      few := Nat.le_of_succ_le hfew, measuring := h.measuring ∘ hany,
      located := fun hl => ⟨(h.located hl).1, Bool.eq_false_iff.2 fun hr => Bool.eq_false_iff.1 (h.located hl).2 (hany hr)⟩ }

/-- A MEASURE job joins the queue in PULL (R76). -/
theorem pushMeasure (h : k.Orderly) (j : Job) (hp : k.phase = .pull) (hroom : k.jobs.length < Config.jobQueueMax) :
    ({ k with jobs := k.jobs ++ [j] } : Stage).Orderly :=
  have hfinish : k.state ≠ .finish := state_ne_finish (by rw [hp]; decide)
  { h with
    few := by rw [List.length_append]; exact hroom
    measuring := fun _ => .inl hp
    located := fun hl => absurd (h.located hl).1 hfinish }

/-- A SPAN or SOLVE job joins an empty queue (R56, R59). -/
theorem pushSolve (h : k.Orderly) {j : Job} (hjobs : k.jobs = []) (hj : j.isMeasure = false) :
    ({ k with jobs := k.jobs ++ [j] } : Stage).Orderly := by
  have hany : (k.jobs ++ [j]).any Job.isMeasure = false := by rw [hjobs, List.nil_append, List.any_cons, hj]; rfl
  exact
    { h with
      few := by rw [hjobs]; exact Nat.succ_le_of_lt (by decide : 0 < Config.jobQueueMax)
      measuring := fun hm => absurd hm (Bool.eq_false_iff.1 hany)
      located := fun hl => ⟨(h.located hl).1, hany⟩ }

end Stage.Orderly

/-! ### Jobs, engine and handler in agreement

`State.Sound law hdl` is what every operation of a step keeps. The part about the stages of the lanes rests on the premise `law`, which
for a step is the motor law and the legality of the job queues at its start; so one pass over the operations serves the whole
statement. -/

/-- The SPAN and SOLVE jobs that a handler has in flight (R178). -/
def Handler.flights (h : Handler) : Nat := if h.busy then 1 else 0

/-- `n` SPAN and SOLVE jobs are queued or running, none of them discarded; the engine is idle only while no job waits; and, on the premise
`law`, both lanes are in orderly stages. -/
structure State.Queued (law : Prop) (n : Nat) (s : State) : Prop where
  count : s.solveJobs = n
  kept : s.engine.discards = true → s.engine.solveJobs = 0
  works : s.engineWorks
  lanes : law → ∀ l, (s.lane l).Orderly

/-- The jobs agree with the handler `hdl`, which has an empty reply slot while it works. -/
structure State.Sound (law : Prop) (hdl : Handler) (s : State) : Prop extends s.Queued law hdl.flights where
  handler : s.link.handler = hdl
  slot : hdl.busy = true → s.link.slot = none

theorem solveJobs_append (js ks : List Job) : solveJobs (js ++ ks) = solveJobs js + solveJobs ks := List.countP_append

theorem solveJobs_cons (j : Job) (rest : List Job) : solveJobs (j :: rest) = solveJobs rest + if j.isSolve then 1 else 0 :=
  List.countP_cons ..

/-- The SPAN and SOLVE jobs of the unit, counted from either lane. -/
theorem State.solveJobs_eq (s : State) (l : LaneId) :
    s.solveJobs = Machine.solveJobs (s.lane l).jobs + Machine.solveJobs (s.lane (otherLane l)).jobs + s.engine.solveJobs := by
  cases l
  · rfl
  · exact congrArg (· + _) (Nat.add_comm _ _)

theorem State.engineWorks_iff (s : State) : s.engineWorks ↔ (s.engine.busy = none → ∀ l, (s.lane l).jobs = []) :=
  forall_congr' fun _ => ⟨fun ⟨ha, hb⟩ l => by cases l <;> assumption, fun h => ⟨h .a, h .b⟩⟩

section

variable {law : Prop} {n : Nat} {hdl : Handler} {s t : State} {l : LaneId}

/-- Jobs and engine as they were. -/
theorem State.Queued.of_same (h : s.Queued law n) (hj : ∀ l, (t.lane l).jobs = (s.lane l).jobs) (he : t.engine = s.engine)
    (ho : law → ∀ l, (t.lane l).Orderly) : t.Queued law n where
  count := by rw [t.solveJobs_eq .a, hj, hj, he, ← s.solveJobs_eq, h.count]
  kept := by
    rw [he]
    exact h.kept
  works := by
    rw [t.engineWorks_iff, he]
    exact fun hidle l => (hj l).trans (s.engineWorks_iff.1 h.works hidle l)
  lanes := ho

namespace State.Sound

/-- The premise about the lanes, for one lane. -/
theorem lane (h : s.Sound law hdl) (hl : law) (l : LaneId) : (s.lane l).stage.Orderly := h.lanes hl l

/-- Both lanes and the engine as they were, and no reply in the slot of a handler that works. -/
theorem of_fields (h : s.Sound law hdl) (ha : t.laneA = s.laneA) (hb : t.laneB = s.laneB) (he : t.engine = s.engine)
    (hh : t.link.handler = s.link.handler) (hs : s.link.slot = none → t.link.slot = none) : t.Sound law hdl where
  toQueued := h.toQueued.of_same (fun l => congrArg Lane.jobs (State.lane_congr ha hb l)) he fun hl l => by
    rw [State.lane_congr ha hb]
    exact h.lanes hl l
  handler := hh.trans h.handler
  slot := hs ∘ h.slot

theorem transmits (h : s.Sound law hdl) (ht : s.Transmits t) : t.Sound law hdl :=
  h.of_fields ht.laneA ht.laneB ht.engine (by rw [ht.link]) ht.slot

theorem emit (h : s.Sound law hdl) (l : LaneId) (kind : NoticeKind) (cause : Option FaultCause) : (s.emit l kind cause).Sound law hdl :=
  h.transmits (s.emit_transmits l kind cause)

theorem reach (h : s.Sound law hdl) (due : Nat) : (s.reach due).Sound law hdl := h.of_fields rfl rfl rfl rfl id

/-- A lane replaced by one with the same jobs, in an orderly stage. -/
theorem setLane (h : s.Sound law hdl) (l : LaneId) {x : Lane} (hj : x.jobs = (s.lane l).jobs) (ho : law → x.stage.Orderly) :
    (s.setLane l x).Sound law hdl where
  toQueued := by
    refine h.toQueued.of_same (fun k => ?_) (s.setLane_engine l x) fun hl k => ?_ <;> obtain rfl | rfl := eq_or_eq_otherLane l k
    · rw [s.lane_setLane, hj]
    · rw [s.lane_setLane_other]
    · rw [s.lane_setLane]
      exact ho hl
    · rw [s.lane_setLane_other]
      exact h.lanes hl _
  handler := by rw [s.setLane_link, h.handler]
  slot := by
    rw [s.setLane_link]
    exact h.slot

/-- A change of a lane that leaves its jobs and keeps its stage orderly. -/
theorem upd (h : s.Sound law hdl) (l : LaneId) {f : Lane → Lane} (hj : (f (s.lane l)).jobs = (s.lane l).jobs)
    (ho : law → (s.lane l).stage.Orderly → (f (s.lane l)).stage.Orderly) : (s.upd l f).Sound law hdl :=
  h.setLane l hj fun hl => ho hl (h.lane hl l)

/-- A change of a lane outside its stage. -/
theorem frame (h : s.Sound law hdl) (l : LaneId) {f : Lane → Lane} (hf : (f (s.lane l)).stage = (s.lane l).stage) :
    (s.upd l f).Sound law hdl :=
  h.upd l (congrArg Stage.jobs hf) fun _ ho => hf ▸ ho

end State.Sound

/-! ### The engine's queues (R77, R78) -/

/-- An idle engine takes an appended job at once, its lane having no other; a busy one leaves it at the back of the queue (R77, R78). -/
theorem State.appendJob_cases (h : s.engineWorks) (l : LaneId) (j : Job) :
    (s.engine.busy = none ∧ s.appendJob l j =
      { s with engine :=
        { busy := some { lane := l, job := j, discarded := false, doneAt := s.clock + j.runningTime }, servedLast := l } }) ∨
    (s.engine.busy ≠ none ∧ s.appendJob l j = s.setLane l { s.lane l with jobs := (s.lane l).jobs ++ [j] }) := by
  by_cases hb : s.engine.busy = none
  · exact .inl ⟨hb, s.appendJob_idle l j hb (s.engineWorks_iff.1 h hb l)⟩
  · exact .inr ⟨hb, s.appendJob_busy l j (Option.isNone_eq_false_iff.2 (Option.isSome_iff_ne_none.2 hb))⟩

theorem State.appendJob_link (s : State) (l : LaneId) (j : Job) : (s.appendJob l j).link = s.link := by
  unfold State.appendJob
  dsimp only
  split
  · obtain ⟨_, h⟩ | ⟨j', rest, _, h⟩ := State.engineTake_cases (s.upd l fun x => { x with jobs := x.jobs ++ [j] }) l <;> rw [h]
    · exact s.upd_link l _
    · simp
  · exact s.upd_link l _

/-- A job that is appended is queued or running. -/
theorem State.Queued.appendJob (h : s.Queued law n) (l : LaneId) (j : Job)
    (ho : law → ({ (s.lane l).stage with jobs := (s.lane l).jobs ++ [j] } : Stage).Orderly) :
    (s.appendJob l j).Queued law (n + if j.isSolve then 1 else 0) := by
  have hcount := h.count
  rw [s.solveJobs_eq l] at hcount
  obtain ⟨hidle, happ⟩ | ⟨hbusy, happ⟩ := State.appendJob_cases h.works l j <;> rw [happ]
  · have hengine : s.engine.solveJobs = 0 := by rw [Engine.solveJobs, hidle]
    refine ⟨?_, nofun, nofun, fun hl k => ?_⟩
    · rw [hengine] at hcount
      rw [State.solveJobs_eq _ l, ← hcount]
      rfl
    · exact h.lanes hl k
  · refine ⟨?_, ?_, ?_, fun hl k => ?_⟩
    · rw [State.solveJobs_eq _ l, State.lane_setLane, State.lane_setLane_other, State.setLane_engine, solveJobs_append,
        ← hcount, solveJobs_cons]
      show _ + (0 + _) + _ + _ = _
      omega
    · rw [State.setLane_engine]
      exact h.kept
    · rw [State.engineWorks, State.setLane_engine]
      exact fun hidle => absurd hidle hbusy
    · obtain rfl | rfl := eq_or_eq_otherLane l k
      · rw [State.lane_setLane]
        exact ho hl
      · rw [State.lane_setLane_other]
        exact h.lanes hl _

end

/-! ### What leaves the stage of a lane as it is -/

/-- A change of the tube's record but the end of FINISH's wait. -/
theorem Lane.stage_updTube (x : Lane) {f : Tube → Tube} (h : ∀ t, (f t).located = t.located) : (x.updTube f).stage = x.stage := by
  simp only [Lane.stage, Lane.updTube, Option.any_map, h]

@[simp] theorem Lane.stage_updFlags (x : Lane) (f : TubeFlags → TubeFlags) : (x.updFlags f).stage = x.stage :=
  x.stage_updTube fun _ => rfl

@[simp] theorem Lane.stage_setBlock (x : Lane) (kind : BlockKind) (b : Option Block) : (x.setBlock kind b).stage = x.stage := by
  cases kind <;> rfl

@[simp] theorem Lane.stage_storeLine (x : Lane) (c : CapLine) : (x.storeLine c).stage = x.stage := by
  unfold Lane.storeLine
  split <;> rfl

@[simp] theorem Lane.stage_takeCandidate (x : Lane) (c : Option Candidate) : (x.takeCandidate c).stage = x.stage := by
  cases c with
  | none => rfl
  | some c => exact Lane.stage_updFlags _ _

@[simp] theorem Lane.stage_landmarkLine (x : Lane) (line : ChanLine) : (x.landmarkLine line).stage = x.stage := by
  unfold Lane.landmarkLine
  dsimp only
  split
  · exact Lane.stage_takeCandidate _ _
  · rfl

@[simp] theorem Lane.stage_missRest (x : Lane) : x.missRest.stage = x.stage := Lane.stage_updFlags _ _

@[simp] theorem Lane.stage_landmarkEnd (x : Lane) : x.landmarkEnd.stage = x.stage := by
  rw [Lane.landmarkEnd, Lane.stage_missRest, Lane.stage_takeCandidate]
  rfl

theorem Tube.join_located (t : Tube) (e : CatEntry) : (t.join e).located = t.located :=
  (congrArg Tube.located (t.upstream_join e) :)

@[simp] theorem Lane.stage_updateRearm (x : Lane) : x.updateRearm.stage = x.stage := by
  unfold Lane.updateRearm
  split
  · split <;> rfl
  · rfl

/-! ### Committed lines in PULL (R44, R76)

The blocks that a line passes through hand indications on as MEASURE jobs; line capture feeds them in PULL only, held or not. -/

/-- The jobs agree with the handler, and lane `l` is in PULL, held or not. -/
structure State.Pulling (law : Prop) (hdl : Handler) (l : LaneId) (s : State) : Prop extends s.Sound law hdl where
  phase : law → (s.lane l).stage.phase = .pull

section

variable {law : Prop} {hdl : Handler} {s t : State} {l : LaneId}

namespace State.Pulling

theorem transmits (h : s.Pulling law hdl l) (ht : s.Transmits t) : t.Pulling law hdl l where
  toSound := h.toSound.transmits ht
  phase := by
    rw [ht.lane]
    exact h.phase

/-- A change of the lane outside its stage. -/
theorem frame (h : s.Pulling law hdl l) {f : Lane → Lane} (hf : (f (s.lane l)).stage = (s.lane l).stage) :
    (s.upd l f).Pulling law hdl l where
  toSound := h.toSound.frame l hf
  phase := by
    rw [State.lane_upd, hf]
    exact h.phase

/-- A list of operations that each keep it. -/
theorem foldl {α : Type} {f : State → α → State} (hf : ∀ {s : State} a, s.Pulling law hdl l → (f s a).Pulling law hdl l)
    (as : List α) (h : s.Pulling law hdl l) : (as.foldl f s).Pulling law hdl l := by
  induction as generalizing s with
  | nil => exact h
  | cons a as ih => exact ih (hf a h)

/-- An indication is handed on as a MEASURE job, or as an entry of the catalogue (R76, R106). -/
theorem handOn (h : s.Pulling law hdl l) (ind : Indication) : (s.handOn l ind).Pulling law hdl l := by
  unfold State.handOn
  dsimp only
  split
  · rename_i hroom
    obtain ⟨jobs, hlane⟩ := s.appendJob_lane l (.measure ((s.lane l).tag.getD 0) ind)
    refine { toQueued := ?_, handler := ?_, slot := ?_, phase := ?_ }
    · exact h.toQueued.appendJob l (.measure ((s.lane l).tag.getD 0) ind) fun hl => (h.lane hl l).pushMeasure _ (h.phase hl) hroom
    · rw [State.appendJob_link, h.handler]
    · rw [State.appendJob_link]
      exact h.slot
    · rw [hlane]
      exact h.phase
  · exact h.frame (Lane.stage_updTube _ fun t => t.join_located _)

theorem closeSpan (h : s.Pulling law hdl l) (ch : Nat) (span : List SpanEntry) (long truncated : Bool) :
    (s.closeSpan l ch span long truncated).Pulling law hdl l := by
  unfold State.closeSpan
  dsimp only
  split
  · exact h.handOn _
  · exact h

theorem screenChannel (h : s.Pulling law hdl l) (line : ChanLine) (ch : Nat) : (s.screenChannel line l ch).Pulling law hdl l := by
  unfold State.screenChannel
  dsimp only
  split
  · split
    · exact closeSpan (h.frame rfl) _ _ _ _
    · exact h.frame rfl
  · exact h

theorem screenLine (h : s.Pulling law hdl l) (line : ChanLine) : (s.screenLine l line).1.Pulling law hdl l := by
  unfold State.screenLine
  dsimp only
  exact (foldl (fun ch h => h.screenChannel line ch) channelNumbers h).frame rfl

theorem screenEndChannel (h : s.Pulling law hdl l) (ch : Nat) : (s.screenEndChannel l ch).Pulling law hdl l := by
  unfold State.screenEndChannel
  dsimp only
  split
  · split
    · exact h
    · exact h.frame rfl
    · exact ((h.frame rfl).frame (Lane.stage_updFlags _ _)).closeSpan _ _ _ _
    · exact ((h.frame rfl).frame (Lane.stage_updFlags _ _)).closeSpan _ _ _ _
  · exact h

theorem screenEnd (h : s.Pulling law hdl l) : (s.screenEnd l).Pulling law hdl l :=
  (foldl (fun ch h => h.screenEndChannel ch) channelNumbers h).frame rfl

theorem closeBlock (h : s.Pulling law hdl l) (kind : BlockKind) : (s.closeBlock l kind).Pulling law hdl l := by
  obtain ⟨_, hc⟩ | ⟨b, _, hc⟩ := s.closeBlock_cases l kind <;> rw [hc]
  · exact h
  · exact (h.frame (Lane.stage_setBlock _ _ _)).transmits (State.enqueue_transmits _ _)

theorem openBlock (h : s.Pulling law hdl l) (kind : BlockKind) (line : RingLine) : (s.openBlock l kind line).Pulling law hdl l := by
  unfold State.openBlock
  split
  · exact (h.frame (Lane.stage_setBlock _ _ _)).transmits (State.takeBuffer_transmits _)
  · exact h

theorem appendLine (h : s.Pulling law hdl l) (kind : BlockKind) (line : RingLine) : (s.appendLine l kind line).Pulling law hdl l := by
  unfold State.appendLine
  split
  · exact h.frame (Lane.stage_updTube _ fun _ => rfl)
  · dsimp only
    split
    · exact (h.frame (Lane.stage_setBlock _ _ _)).closeBlock kind
    · exact h.frame (Lane.stage_setBlock _ _ _)

theorem placeLine (h : s.Pulling law hdl l) (kind : BlockKind) (line : RingLine) : (s.placeLine l kind line).Pulling law hdl l := by
  have opened : ∀ {t : State}, t.Pulling law hdl l →
      (if ((t.lane l).block kind).isNone then t.openBlock l kind line else t).Pulling law hdl l := fun {t} ht => by
    split
    · exact ht.openBlock kind line
    · exact ht
  have closed : (if (s.lane l).correctionMoved kind line then s.closeBlock l kind else s).Pulling law hdl l := by
    split
    · exact h.closeBlock kind
    · exact h
  exact (opened closed).appendLine kind line

theorem lineAssembler (h : s.Pulling law hdl l) (line : ChanLine) (m : RegionMarks) : (s.lineAssembler l line m).Pulling law hdl l := by
  unfold State.lineAssembler
  dsimp only
  split
  · exact h
  · exact h.placeLine _ _

theorem regionAssembler (h : s.Pulling law hdl l) (line : ChanLine) (m : RegionMarks) :
    (s.regionAssembler l line m).Pulling law hdl l := by
  unfold State.regionAssembler
  dsimp only
  split
  · exact h
  · split
    · exact h.frame rfl
    · have placed : (State.placeLine
          (if m.first then
            ((s.lane l).ring.map RingLine.asHistory).foldl (fun t h => t.placeLine l .region h)
              (s.upd l fun y => { y with ring := [] })
          else s) l .region ((s.lane l).assemblyLine .region line m)).Pulling law hdl l := by
        refine placeLine ?_ _ _
        split
        · exact foldl (fun k h => h.placeLine .region k) _ (h.frame rfl)
        · exact h
      split
      · exact placed.closeBlock .region
      · exact placed

theorem commitLine (h : s.Pulling law hdl l) (c : CapLine) : (s.commitLine l c).Pulling law hdl l := by
  unfold State.commitLine
  refine regionAssembler (lineAssembler (screenLine (h.frame ?_) _) _ _) _ _
  rw [Lane.stage_landmarkLine, Lane.stage_storeLine]
  exact Lane.stage_updTube _ fun _ => rfl

theorem commitLines (h : s.Pulling law hdl l) (out : List CapLine) : (out.foldl (State.commitLine l) s).Pulling law hdl l :=
  foldl (fun c h => h.commitLine c) out h

/-- Line capture is DISARMED. -/
theorem disarmCapture (h : s.Pulling law hdl l) :
    (s.upd l fun x => { x with capture := { armed := false, window := [] } }).Pulling law hdl l where
  toSound := h.toSound.upd l rfl fun _ ho => ho.disarmCapture
  phase := by
    rw [State.lane_upd]
    exact h.phase

theorem flush (h : s.Pulling law hdl l) : (s.flush l).Pulling law hdl l := by
  unfold State.flush
  exact ((h.frame rfl).commitLines _).disarmCapture

theorem pullEnding (h : s.Pulling law hdl l) : (s.pullEnding l).Pulling law hdl l := by
  have landmarks : ((s.flush l).upd l Lane.landmarkEnd).Pulling law hdl l := h.flush.frame (Lane.stage_landmarkEnd _)
  exact ((landmarks.screenEnd.closeBlock .full).closeBlock .region).frame (f := fun x => { x with ring := [] }) rfl

/-- The end of a pull leaves the lane in its phase, with line capture DISARMED and the stops disarmed (R146). -/
theorem endPull (h : s.Pulling law hdl l) (o : TubeOutcome) :
    (s.endPull l o).Pulling law hdl l ∧ (law → ((s.endPull l o).lane l).stage.Settled) := by
  rw [State.endPull_eq]
  have emitted := h.pullEnding.transmits ((s.pullEnding l).emit_transmits l .pullEnded none)
  have hlane := ((s.pullEnding l).emit_reports l .pullEnded none).lane l
  generalize (s.pullEnding l).emit l .pullEnded none = q at *
  have hstage : ((q.lane l).disarmStops.updTube fun t => t.decideOutcome o).stage =
      { (q.lane l).stage with armedA := false, armedB := false } := Lane.stage_updTube _ fun _ => rfl
  have ended : (q.upd l fun x => x.disarmStops.updTube fun t => t.decideOutcome o).Pulling law hdl l := by
    refine ⟨emitted.toSound.upd l rfl fun _ ho => ?_, fun hl => ?_⟩
    · rw [hstage]
      exact ho.disarm nofun nofun
    · rw [State.lane_upd, hstage]
      exact emitted.phase hl
  refine ⟨ended, fun hl => ⟨?_, (ended.lane hl l).not_located (Stage.state_ne_finish (by rw [ended.phase hl]; decide))⟩⟩
  rw [State.lane_upd, hstage]
  show (q.lane l).capture.armed = false
  rw [hlane]
  have hcapture : ((s.pullEnding l).lane l).capture = { armed := false, window := [] } := (s.pullEnding_closed l).1
  rw [hcapture]

end State.Pulling

/-- Line capture is armed in PULL only (R31). -/
theorem State.Sound.captureCycle (h : s.Sound law hdl) (l : LaneId) (c : Cycle) : (s.captureCycle l c).Sound law hdl := by
  unfold State.captureCycle
  dsimp only
  split
  · rename_i harmed _
    have pulling : s.Pulling law hdl l := ⟨h, fun hl => (h.lane hl l).capturing harmed⟩
    refine (State.Pulling.commitLines (pulling.frame ?_) _).toSound
    refine (Lane.stage_updTube _ ?_).trans rfl
    exact fun _ => rfl
  · exact h

end

/-! ### The lane controller (chapter 8) -/

theorem Lane.testStart_stage (x : Lane) (p : MotionPhase) :
    (x.testStart p).1.stage = x.stage ∨ (x.testStart p).1.stage = { x.stage with motion := .none } := by
  unfold Lane.testStart
  split
  · exact .inr rfl
  · exact .inl rfl

/-- A motion start sets the motion phase, or leaves none (R122). -/
theorem Lane.motionStart_stage (x : Lane) (p : MotionPhase) :
    ∃ m, (m = .none ∨ m = p) ∧ (x.motionStart p).1.stage = { x.stage with motion := m } := by
  unfold Lane.motionStart
  split
  · exact ⟨_, .inl rfl, rfl⟩
  · split
    · exact ⟨_, .inl rfl, rfl⟩
    · obtain h | h := (x.run p x.motion.startDuty).testStart_stage p
      · exact ⟨p, .inr rfl, h⟩
      · exact ⟨.none, .inl rfl, h⟩

theorem Lane.retarget_stage (x : Lane) :
    ∃ m, (m = .none ∨ m = .withdraw) ∧ x.retarget.1.stage = { x.stage with motion := m } := by
  unfold Lane.retarget
  split
  · obtain h | h := (x.run .withdraw x.drive.duty).testStart_stage .withdraw
    · exact ⟨.withdraw, .inr rfl, h⟩
    · exact ⟨.none, .inl rfl, h⟩
  · exact x.motionStart_stage .withdraw

/-- Only the start of a withdrawal meets the home limit (R132). -/
theorem Lane.motionStart_homeLimit {x : Lane} {p : MotionPhase} (h : (x.motionStart p).2 = .homeLimit) : p = .withdraw := by
  unfold Lane.motionStart Lane.testStart at h
  split at h
  · cases h
  · split at h
    · cases h
    · split at h
      · rename_i hlimit
        exact hlimit.1
      · cases h

/-- The lane in TURN, with its per-pull state reset (R145). -/
theorem Lane.turned_stage (x : Lane) (layout : Option Layout) (now : Nat) :
    (x.turned layout now).stage = { x.stage with state := .turn, armedA := false, armedB := false, motion := .none } := by
  have hreset : (x.updTube Tube.startPull).stage = x.stage := x.stage_updTube fun _ => rfl
  rw [← hreset]
  rfl

/-- The lane in INSERT, with stop A armed (R143). -/
theorem Lane.passGuide_stage (x : Lane) : x.passGuide.stage = { x.stage with state := .insert, armedA := true } :=
  Lane.stage_updTube _ fun _ => rfl

/-- The lane as HOLD leaves it (R151). -/
def Lane.holding (x : Lane) (now : Nat) : Lane :=
  ((x.stopDrive.enter .held).updFlags fun f => { f with holdOccurred := true }).updCtl fun c =>
    { c with heldPhase := some x.ctl.state, poll := c.poll.freeze now, dwell := c.dwell.freeze now }

theorem State.enterHeld_eq (s : State) (l : LaneId) : s.enterHeld l = (s.upd l fun x => x.holding s.clock).emit l .held none := rfl

theorem Lane.holding_stage (x : Lane) (now : Nat) :
    (x.holding now).stage = { x.stage with state := .held, heldPhase := some x.stage.state, motion := .none } := by
  have hflag : (x.updFlags fun f => { f with holdOccurred := true }).stage = x.stage := x.stage_updFlags _
  rw [← hflag]
  rfl

theorem Lane.resetLane_stage (x : Lane) : x.resetLane.stage = Stage.reset := rfl

theorem Lane.powerOn_stage (x : Lane) : x.powerOn.stage = Stage.reset := rfl

theorem Lane.stage_marked (x : Lane) (f : TubeFlags → TubeFlags) (c : FaultCause) :
    ((x.updFlags f).updTube fun t => t.mark c).stage = x.stage := by
  rw [Lane.stage_updTube (f := fun t => t.mark c) _ fun _ => rfl, Lane.stage_updFlags]

theorem State.emit_lane (s : State) (l : LaneId) (kind : NoticeKind) (cause : Option FaultCause) :
    (s.emit l kind cause).lane l = s.lane l := (s.emit_reports l kind cause).lane l

theorem State.upd_stage {s : State} {l : LaneId} {f : Lane → Lane} (hf : (f (s.lane l)).stage = (s.lane l).stage) :
    ((s.upd l f).lane l).stage = (s.lane l).stage := by rw [State.lane_upd, hf]

/-- No MEASURE job of the lane is queued where the lane has none (R80). -/
theorem State.hasJob_false {s : State} {l : LaneId} {p : Job → Bool} (h : s.hasJob l p = false) : (s.lane l).jobs.any p = false :=
  (Bool.or_eq_false_iff.1 h).1

namespace State.Sound

variable {law : Prop} {hdl : Handler} {s : State} {l : LaneId}

/-- A state that is neither HELD, PULL nor FINISH is settled. -/
theorem settled (h : s.Sound law hdl) {st : LaneState} (hst : (s.lane l).ctl.state = st)
    (hn : st ≠ .held ∧ st ≠ .pull ∧ st ≠ .finish) : law → (s.lane l).stage.Settled := fun hl => by
  obtain ⟨hheld, hpull, hfinish⟩ := hn
  have hphase : (s.lane l).stage.phase = st := Stage.phase_eq hst hheld
  exact (h.lane hl l).settled (hphase ▸ hpull) (hphase ▸ hfinish)

/-- IDLE, GUIDE_CHECK, TURN, FAULTED and RETRACT are quiet. -/
theorem quiet (h : s.Sound law hdl) {st : LaneState} (hst : (s.lane l).ctl.state = st)
    (hn : st ≠ .held ∧ ¬st.measures ∧ st ≠ .insert) : law → (s.lane l).stage.Quiet := fun hl => by
  obtain ⟨hheld, hrest⟩ := hn
  have hphase : (s.lane l).stage.phase = st := Stage.phase_eq hst hheld
  exact (h.lane hl l).quiet (hphase ▸ hrest)

/-- In PULL the lane is in PULL, held or not. -/
theorem pulling (h : s.Sound law hdl) (hst : (s.lane l).ctl.state = .pull) : s.Pulling law hdl l :=
  ⟨h, fun _ => Stage.phase_eq hst (by decide)⟩

theorem finishWait (h : s.Sound law hdl) (l : LaneId) : (s.finishWait l).Sound law hdl := by
  unfold State.finishWait
  dsimp only
  split
  · rename_i u hst htube
    split
    · exact h
    · rename_i hwait
      have hjobs : (s.lane l).jobs.any Job.isMeasure = false :=
        State.hasJob_false (Bool.or_eq_false_iff.1 (Bool.eq_false_iff.2 hwait)).2
      have hstage : ((s.lane l).updTube fun u => u.locate (s.lane l).detector.landmarks).stage =
          { (s.lane l).stage with located := true } := by
        rw [Lane.updTube_some htube]
        rfl
      refine h.upd l rfl fun _ ho => ?_
      rw [hstage]
      exact ho.locate hst hjobs
  · exact h

theorem enterFinish (h : s.Sound law hdl) (hq : law → (s.lane l).stage.Settled) : (s.enterFinish l).Sound law hdl := by
  refine finishWait (h.upd l rfl fun hl ho => ?_) l
  exact ho.enter (st := .finish) (by decide) (fun _ => .inr (.inr rfl)) (hq hl).located nofun nofun
    (fun hc => absurd hc (Bool.eq_false_iff.1 (hq hl).armed)) nofun

/-- FINISH is entered after a change outside the stage. -/
theorem enterFinish_upd (h : s.Sound law hdl) (hq : law → (s.lane l).stage.Settled) {f : Lane → Lane}
    (hf : (f (s.lane l)).stage = (s.lane l).stage) : ((s.upd l f).enterFinish l).Sound law hdl :=
  enterFinish (h.frame l hf) fun hl => State.upd_stage hf ▸ hq hl

theorem enterFaulted (h : s.Sound law hdl) (hq : law → (s.lane l).stage.Quiet) (cause : FaultCause) :
    (s.enterFaulted l cause).Sound law hdl := by
  refine emit (h.upd l rfl fun hl ho => ?_) l _ _
  exact (ho.rest (hq hl) (st := .faulted) (m := .none) (by decide) nofun).setReturn nofun

theorem withdrawResult (h : s.Sound law hdl) (hq : law → (s.lane l).stage.Settled) (r : StartResult) :
    (s.withdrawResult l r).Sound law hdl := by
  cases r with
  | started => exact h
  | homeArrival => exact h.enterFinish hq
  | refused => exact h.enterFinish_upd hq (Lane.stage_updTube _ fun _ => rfl)
  | homeLimit => exact h.enterFinish_upd hq (Lane.stage_marked _ _ _)

/-- WITHDRAW is entered with a motion start or a retarget, whatever that comes to (R144, R146, R153). -/
theorem toWithdraw (h : s.Sound law hdl) (hq : law → (s.lane l).stage.Settled) {x : Lane} (hj : x.jobs = (s.lane l).jobs)
    (hx : ∃ m, (m = .none ∨ m = .withdraw) ∧ x.stage = { (s.lane l).toWithdraw.stage with motion := m }) (r : StartResult) :
    ((s.setLane l x).withdrawResult l r).Sound law hdl := by
  obtain ⟨m, hm, hstage⟩ := hx
  refine withdrawResult (h.setLane l hj fun hl => ?_) (fun hl => ?_) r
  · rw [hstage]
    exact (h.lane hl l).enter (st := .withdraw) (by decide) (fun _ => .inr (.inl rfl)) (hq hl).located nofun nofun
      (fun hc => absurd hc (Bool.eq_false_iff.1 (hq hl).armed)) fun _ => rfl
  · rw [State.lane_setLane, hstage]
    exact ⟨(hq hl).armed, (hq hl).located⟩

theorem startWithdraw (h : s.Sound law hdl) (hq : law → (s.lane l).stage.Settled) : (s.startWithdraw l).Sound law hdl :=
  have hx := (s.lane l).toWithdraw.motionStart_stage .withdraw
  h.toWithdraw hq (hx.elim fun _ hm => (congrArg Stage.jobs hm.2 :)) hx _

theorem startWithdraw_upd (h : s.Sound law hdl) (hq : law → (s.lane l).stage.Settled) {f : Lane → Lane}
    (hf : (f (s.lane l)).stage = (s.lane l).stage) : ((s.upd l f).startWithdraw l).Sound law hdl :=
  startWithdraw (h.frame l hf) fun hl => State.upd_stage hf ▸ hq hl

theorem retargetWithdraw (h : s.Sound law hdl) (hq : law → (s.lane l).stage.Settled) : (s.retargetWithdraw l).Sound law hdl :=
  have hx := (s.lane l).toWithdraw.retarget_stage
  h.toWithdraw hq (hx.elim fun _ hm => (congrArg Stage.jobs hm.2 :)) hx _

/-- An armed stop B ends the pull (R146). -/
theorem testStopB (h : s.Sound law hdl) (l : LaneId) : (s.testStopB l).Sound law hdl := by
  unfold State.testStopB
  dsimp only
  split
  · rename_i harmed _ _
    split
    · have disarmed : (s.upd l fun y => { y with pos := { y.pos with armedB := false } }).Pulling law hdl l :=
        ⟨h.upd l rfl fun _ ho => ho.disarm id nofun, fun hl => by
          rw [State.lane_upd]
          exact (h.lane hl l).stopB harmed⟩
      obtain ⟨ended, hsettled⟩ := disarmed.endPull .examined
      exact ended.toSound.retargetWithdraw hsettled
    · exact h
  · exact h

/-- The pull ends and FINISH is entered, the tube marked with a fault (R146, R149). -/
theorem endPull_enterFinish (h : s.Pulling law hdl l) (o : TubeOutcome) (c : FaultCause) :
    (((s.endPull l o).upd l fun x => x.updTube fun t => t.mark c).enterFinish l).Sound law hdl := by
  obtain ⟨ended, hsettled⟩ := h.endPull o
  exact ended.toSound.enterFinish_upd hsettled (Lane.stage_updTube _ fun _ => rfl)

theorem motorFaultEvent (h : s.Sound law hdl) (l : LaneId) : (s.motorFaultEvent l).Sound law hdl := by
  have failed : ∀ x : Lane, (x.updTube fun t => (t.decideOutcome .motorFault).mark .motorFault).stage = x.stage :=
    fun x => x.stage_updTube fun _ => rfl
  unfold State.motorFaultEvent
  dsimp only
  split
  next hst => exact h.enterFinish_upd (h.settled hst (by decide)) (failed _)
  next hst => exact h.enterFinish_upd (h.settled hst (by decide)) (failed _)
  next hst => exact h.enterFinish_upd (h.settled hst (by decide)) ((failed _).trans (Lane.stage_missRest _))
  next hst => exact endPull_enterFinish (h.pulling hst) _ _
  next hst => exact h.enterFinish_upd (h.settled hst (by decide)) (Lane.stage_updTube _ fun _ => rfl)
  next hst => exact h.enterFaulted (h.quiet hst (by decide)) _
  all_goals exact h

theorem stallEvent (h : s.Sound law hdl) (l : LaneId) (position : Int) : (s.stallEvent l position).Sound law hdl := by
  unfold State.stallEvent
  split
  next hst => exact h.startWithdraw_upd (h.settled hst (by decide)) (Lane.stage_updTube _ fun _ => rfl)
  next hst => exact endPull_enterFinish (h.pulling hst) _ _
  next hst =>
    exact h.enterFinish_upd (h.settled hst (by decide)) (Lane.stage_marked _ _ _)
  next hst => exact h.enterFaulted (h.quiet hst (by decide)) _
  all_goals exact h

/-- PULL is entered from TURN with line capture and stop B armed (R145). -/
theorem enterPull (h : s.Sound law hdl) (hst : law → (s.lane l).ctl.state = .turn) : (s.enterPull l).Sound law hdl := by
  obtain ⟨m, hm, hstage⟩ := (s.lane l).toPull.motionStart_stage .pull
  have started : ((s.setLane l ((s.lane l).toPull.motionStart .pull).1).emit l .pullStarted none).Sound law hdl := by
    refine emit (h.setLane l (congrArg Stage.jobs hstage :) fun hl => ?_) l _ _
    rw [hstage]
    have hturn : (s.lane l).stage.state = .turn := hst hl
    refine (h.lane hl l).move (by rw [hturn]; decide) (st := .pull) (armed := true) (by decide) (fun _ => .inl rfl)
      ((h.lane hl l).not_located (by rw [hturn]; decide)) ?_ (fun _ => rfl) (fun _ => rfl) ?_
    · exact fun ha => absurd ((h.lane hl l).stopA ha) (by rw [Stage.phase_eq hturn (by decide)]; decide)
    · obtain rfl | rfl := hm <;> exact nofun
  unfold State.enterPull
  dsimp only
  split
  · exact started.motorFaultEvent l
  · exact started.testStopB l
  all_goals exact started

/-- TURN is entered from INSERT (R144). -/
theorem enterTurn (h : s.Sound law hdl) (hst : law → (s.lane l).ctl.state = .insert) : (s.enterTurn l).Sound law hdl := by
  have turned : (s.upd l fun x => x.turned (s.tubeLayout l) s.clock).Sound law hdl := by
    refine h.upd l rfl fun hl ho => ?_
    rw [Lane.turned_stage]
    have hinsert : (s.lane l).stage.state = .insert := hst hl
    have hphase : (s.lane l).stage.phase = .insert := Stage.phase_eq hinsert (by decide)
    exact ho.move (by rw [hinsert]; decide) (by decide)
      (fun hj => absurd (ho.measuring hj) (by rw [hphase]; decide))
      (ho.not_located (by rw [hinsert]; decide)) nofun nofun (fun hc => absurd (ho.capturing hc) (by rw [hphase]; decide)) nofun
  rw [State.enterTurn_eq]
  split
  · refine turned.enterPull fun _ => ?_
    rw [State.lane_upd]
    rfl
  · exact turned

theorem testStopA (h : s.Sound law hdl) (l : LaneId) : (s.testStopA l).Sound law hdl := by
  unfold State.testStopA
  dsimp only
  split
  · rename_i harmed _ _
    split
    · rename_i hreached
      refine h.enterTurn fun hl => ?_
      exact (Stage.phase_of_not_held (k := (s.lane l).stage) hreached.1).symm.trans ((h.lane hl l).stopA harmed)
    · exact h
  · exact h

theorem testStops (h : s.Sound law hdl) (l : LaneId) : (s.testStops l).Sound law hdl := (h.testStopA l).testStopB l

end State.Sound

/-! ### Guide check, orders, inputs, holds and requests of the lane controller (chapter 8) -/

/-- The lane as it enters RETRACT, before its motion start (R154). -/
def Lane.toRetract (x : Lane) : Lane := (x.enter .retract).updCtl fun c => { c with returnTo := some x.ctl.state }

theorem LaneState.setup_cases {st : LaneState} : st.setup = true → st = .idle ∨ st = .faulted := by cases st <;> decide

namespace State.Sound

variable {law : Prop} {hdl : Handler} {s : State} {l : LaneId}

theorem guideTest (h : s.Sound law hdl) (hst : law → (s.lane l).ctl.state = .guideCheck) : (s.guideTest l).Sound law hdl := by
  have hcount : ((s.lane l).updCtl fun c => { c with attempts := c.attempts + 1 }).stage = (s.lane l).stage := rfl
  have hquiet : law → (s.lane l).stage.Quiet := fun hl =>
    h.quiet (hst hl) (by decide) hl
  unfold State.guideTest
  dsimp only
  generalize (s.lane l).updCtl (fun c => { c with attempts := c.attempts + 1 }) = x at *
  split
  · obtain ⟨m, hm, hstage⟩ := x.passGuide.motionStart_stage .insert
    rw [Lane.passGuide_stage, hcount] at hstage
    have started : (s.setLane l (x.passGuide.motionStart .insert).1).Sound law hdl := by
      refine h.setLane l (congrArg Stage.jobs hstage :) fun hl => ?_
      have hguide : (s.lane l).stage.state = .guideCheck := hst hl
      rw [hstage]
      refine (h.lane hl l).move (by rw [hguide]; decide) (st := .insert) (a := true) (by decide)
        (fun hj => absurd hj (Bool.eq_false_iff.1 (hquiet hl).measure)) (hquiet hl).located (fun _ => rfl)
        (fun hb => absurd hb (Bool.eq_false_iff.1 (hquiet hl).stopB)) (fun hc => absurd hc (Bool.eq_false_iff.1 (hquiet hl).armed)) ?_
      obtain rfl | rfl := hm <;> exact nofun
    split
    · exact started.motorFaultEvent l
    · exact started.testStopA l
    all_goals exact started
  · have hframe : ∀ {y : Lane}, y.stage = x.stage → (s.setLane l y).Sound law hdl := fun {y} hy => by
      rw [hcount] at hy
      exact h.setLane l (congrArg Stage.jobs hy :) fun hl => hy ▸ h.lane hl l
    split
    · have hfail : (x.updTube fun t => t.decideOutcome .noGuide).stage = x.stage := x.stage_updTube fun _ => rfl
      refine (hframe hfail).enterFinish fun hl => ?_
      rw [State.lane_setLane, hfail, hcount]
      exact (hquiet hl).toSettled
    · exact hframe rfl

theorem openTube (h : s.Sound law hdl) (hst : law → (s.lane l).ctl.state = .idle) (o : Order) (rest : List Order) :
    (s.openTube l o rest).Sound law hdl := by
  have hquiet : law → (s.lane l).stage.Quiet := fun hl =>
    h.quiet (hst hl) (by decide) hl
  have opened : ((s.upd l fun x => x.clearDetector.updCtl fun c =>
      { c with worklist := rest, tube := some (Tube.open o (s.stops l o)) }).emit l .tubeStarted none).Sound law hdl :=
    emit (h.upd l rfl fun _ ho => ho.forget) l _ _
  have hlane : ((s.upd l fun x => x.clearDetector.updCtl fun c =>
      { c with worklist := rest, tube := some (Tube.open o (s.stops l o)) }).emit l .tubeStarted none).lane l =
      (s.lane l).clearDetector.updCtl fun c => { c with worklist := rest, tube := some (Tube.open o (s.stops l o)) } := by
    rw [State.emit_lane, State.lane_upd]
  unfold State.openTube
  dsimp only
  generalize ((s.upd l fun x => x.clearDetector.updCtl fun c =>
      { c with worklist := rest, tube := some (Tube.open o (s.stops l o)) }).emit l .tubeStarted none) = q at *
  have hstage : (q.lane l).stage = { (s.lane l).stage with located := false } := by
    rw [hlane]
    rfl
  have hquiet' : law → (q.lane l).stage.Quiet := fun hl => by
    rw [hstage]
    exact { hquiet hl with located := rfl }
  split
  · refine guideTest (opened.upd l rfl fun hl ho => ?_) fun _ => ?_
    · have hidle : (q.lane l).stage.state = .idle := by
        rw [hstage]
        exact hst hl
      have hmotion : (q.lane l).stage.motion = .withdraw → LaneState.guideCheck = .withdraw := fun hm =>
        absurd (ho.withdrawing hm) (by rw [hidle]; decide)
      exact ho.restMove (hquiet' hl) (by rw [hidle]; decide) (st := .guideCheck) (by decide) hmotion
    · rw [State.lane_upd]
      rfl
  · exact opened.enterFinish_upd (fun hl => (hquiet' hl).toSettled) (Lane.stage_updTube _ fun _ => rfl)

theorem takeFrontOrder (h : s.Sound law hdl) (l : LaneId) : (s.takeFrontOrder l).Sound law hdl := by
  unfold State.takeFrontOrder
  split
  · rename_i htake _
    simp only [State.canTake, Bool.and_eq_true, beq_iff_eq] at htake
    obtain ⟨⟨⟨⟨hidle, _⟩, _⟩, _⟩, _⟩ := htake
    exact h.openTube (fun _ => hidle) _ _
  · exact h

theorem homeArrivalEvent (h : s.Sound law hdl) (l : LaneId) : (s.homeArrivalEvent l).Sound law hdl := by
  unfold State.homeArrivalEvent
  split
  next hst => exact h.enterFinish (h.settled hst (by decide))
  next hst =>
    have hquiet := h.quiet hst (by decide)
    refine h.upd l rfl fun hl ho => ?_
    have hreturn : (s.lane l).ctl.returnTo.getD .idle ≠ .held := by
      cases hr : (s.lane l).ctl.returnTo with
      | none => decide
      | some st => obtain rfl | rfl := ho.returning st hr <;> decide
    exact (ho.rest (hquiet hl) hreturn (m := .none) nofun).setReturn nofun
  all_goals exact h

theorem stopDrive (h : s.Sound law hdl) (l : LaneId) : (s.upd l Lane.stopDrive).Sound law hdl :=
  h.upd l rfl fun _ ho => ho.setMotion nofun

theorem inputChange (h : s.Sound law hdl) (l : LaneId) (i : InputId) : (s.inputChange l i).Sound law hdl := by
  have changed : (s.upd l fun y =>
      { y with drive := y.drive.setInput i { (s.lane l).drive.input i with active := ((s.lane l).drive.input i).raw } }).Sound law hdl :=
    h.frame l (by cases i <;> rfl)
  unfold State.inputChange
  dsimp only
  split
  · split
    · exact changed
    · exact changed.frame l rfl
  · split
    · exact (changed.stopDrive l).homeArrivalEvent l
    · exact changed
  · split
    · exact (changed.stopDrive l).motorFaultEvent l
    · exact changed

theorem settleInput (h : s.Sound law hdl) (l : LaneId) (i : InputId) : (s.settleInput l i).Sound law hdl := by
  unfold State.settleInput
  dsimp only
  split
  · exact h.inputChange l i
  · exact h

theorem enterHeld (h : s.Sound law hdl) (hst : (s.lane l).ctl.state.holdable = true) : (s.enterHeld l).Sound law hdl := by
  rw [State.enterHeld_eq]
  refine emit (h.upd l rfl fun _ ho => ?_) l _ _
  rw [Lane.holding_stage]
  exact ho.hold hst

theorem holdIf (h : s.Sound law hdl) (l : LaneId) : (s.holdIf l).Sound law hdl := by
  unfold State.holdIf
  split
  next hst => exact h.enterHeld hst
  · exact h

theorem holdIfLost (h : s.Sound law hdl) (l : LaneId) : (s.holdIfLost l).Sound law hdl := by
  unfold State.holdIfLost
  split
  · exact h
  · exact h.holdIf l

/-- A motion start in the state it belongs to (R152). -/
theorem resumeMotion (h : s.Sound law hdl) {p : MotionPhase} (hp : law → p = .withdraw → (s.lane l).ctl.state = .withdraw) :
    (s.resumeMotion l p).Sound law hdl := by
  obtain ⟨m, hm, hstage⟩ := (s.lane l).motionStart_stage p
  have started : (s.setLane l ((s.lane l).motionStart p).1).Sound law hdl := by
    refine h.setLane l (congrArg Stage.jobs hstage :) fun hl => ?_
    rw [hstage]
    refine (h.lane hl l).setMotion fun hw => ?_
    obtain rfl | rfl := hm
    · cases hw
    · exact hp hl hw
  unfold State.resumeMotion
  dsimp only
  split
  · exact started.testStops l
  · exact started.motorFaultEvent l
  · exact started.homeArrivalEvent l
  · rename_i hlimit
    refine started.withdrawResult (fun hl => ?_) _
    rw [State.lane_setLane, hstage]
    obtain ⟨harmed, hlocated⟩ := h.settled (hp hl (Lane.motionStart_homeLimit hlimit)) (by decide) hl
    exact ⟨harmed, hlocated⟩

theorem resumeLane (h : s.Sound law hdl) (hst : (s.lane l).ctl.state = .held) : (s.resumeLane l).Sound law hdl := by
  unfold State.resumeLane
  split
  · exact h
  · rename_i st hphase
    have resumed : ((s.upd l fun x => x.unhold st s.clock).emit l .resumed none).Sound law hdl :=
      emit (h.upd l rfl fun _ ho => by exact ho.unhold hst hphase) l _ _
    have hstate : (((s.upd l fun x => x.unhold st s.clock).emit l .resumed none).lane l).ctl.state = st := by
      rw [State.emit_lane, State.lane_upd]
      rfl
    dsimp only
    generalize (s.upd l fun x => x.unhold st s.clock).emit l .resumed none = q at *
    split
    · exact resumed.resumeMotion nofun
    · exact resumed.resumeMotion nofun
    · exact resumed.resumeMotion fun _ _ => hstate
    · split
      · have arrived := resumed.homeArrivalEvent l
        rw [State.homeArrivalEvent, hstate] at arrived
        exact arrived
      · exact resumed.resumeMotion nofun
    all_goals exact resumed

/-- ABORT by the lane's state or held phase (R153). -/
theorem abortLane (h : s.Sound law hdl) {t : State} (ha : s.abortLane l = some t) : t.Sound law hdl := by
  have settled : ∀ st, (s.lane l).phaseOrHeld = st → st ≠ .pull ∧ st ≠ .finish → law → (s.lane l).stage.Settled :=
    fun st hst ⟨hpull, hfinish⟩ hl => by
      rw [← Lane.stage_phase] at hst
      exact (h.lane hl l).settled (hst ▸ hpull) (hst ▸ hfinish)
  have aborted : ∀ x : Lane, (x.updTube fun t => t.decideOutcome .aborted).stage = x.stage := fun x => x.stage_updTube fun _ => rfl
  unfold State.abortLane at ha
  dsimp only at ha
  split at ha <;> cases ha
  next hst => exact h.enterFinish_upd (settled _ hst (by decide)) (aborted _)
  next hst => exact h.startWithdraw_upd (settled _ hst (by decide)) (aborted _)
  next hst => exact h.startWithdraw_upd (settled _ hst (by decide)) ((aborted _).trans (Lane.stage_missRest _))
  next hst =>
    obtain ⟨ended, hsettled⟩ := State.Pulling.endPull ⟨h, fun _ => hst⟩ .aborted
    exact ended.toSound.retargetWithdraw hsettled
  all_goals exact h

/-- A lane in which setup requests are carried out is quiet. -/
theorem quiet_of_setup (h : s.Sound law hdl) (hst : (s.lane l).ctl.state.setup = true) : law → (s.lane l).stage.Quiet := by
  obtain hidle | hfaulted := LaneState.setup_cases hst
  · exact h.quiet hidle (by decide)
  · exact h.quiet hfaulted (by decide)

theorem startRetract (h : s.Sound law hdl) (hst : (s.lane l).ctl.state.setup = true) : (s.startRetract l).Sound law hdl := by
  have hcases := LaneState.setup_cases hst
  obtain ⟨m, hm, hstage⟩ := (s.lane l).toRetract.motionStart_stage .retract
  have started : (s.setLane l ((s.lane l).toRetract.motionStart .retract).1).Sound law hdl := by
    refine h.setLane l (congrArg Stage.jobs hstage :) fun hl => ?_
    have hheld : (s.lane l).stage.state ≠ .held := fun he => by
      have hh : (s.lane l).ctl.state = .held := he
      rw [hh] at hst
      cases hst
    have hrest := (h.lane hl l).restMove (h.quiet_of_setup hst hl) hheld (st := .retract) (m := m) (by decide)
      (by obtain rfl | rfl := hm <;> exact nofun)
    rw [hstage]
    exact hrest.setReturn (r := some (s.lane l).ctl.state) fun st hr => Option.some.inj hr ▸ hcases
  unfold State.startRetract
  dsimp only
  split
  · exact started.motorFaultEvent l
  all_goals exact started

theorem giveUpBlock (h : s.Sound law hdl) (l : LaneId) (kind : BlockKind) : (s.giveUpBlock l kind).Sound law hdl := by
  unfold State.giveUpBlock
  split
  · exact (h.frame l (Lane.stage_setBlock _ _ _)).transmits (State.returnBuffer_transmits _)
  · exact h

/-- LANE_RESET empties the lane's queue and marks its job in the engine discarded; with the handler FREE none of these is a SPAN or
SOLVE job (R155, R81). -/
theorem resetLane (h : s.Sound law .free) (l : LaneId) : (s.resetLane l).Sound law .free := by
  have hcount : Machine.solveJobs (s.lane l).jobs + Machine.solveJobs (s.lane (otherLane l)).jobs + s.engine.solveJobs = 0 := by
    rw [← s.solveJobs_eq l, h.count]
    rfl
  have hengine : (s.engine.discard l).solveJobs = s.engine.solveJobs := by
    unfold Engine.discard Engine.solveJobs
    cases s.engine.busy with
    | none => rfl
    | some e =>
      dsimp only [Option.map]
      split <;> rfl
  have hidle : (s.engine.discard l).busy = none → s.engine.busy = none := Option.map_eq_none_iff.1
  have hl : (s.upd l Lane.resetLane).lane l = (s.lane l).resetLane := s.lane_upd l _
  have hother := s.lane_upd_other l Lane.resetLane
  have hlink := s.upd_link l Lane.resetLane
  have heng := s.upd_engine l Lane.resetLane
  unfold State.resetLane
  dsimp only
  generalize s.upd l Lane.resetLane = q at *
  have reset : ({ q with engine := q.engine.discard l } : State).Sound law .free := by
    rw [heng]
    refine
      { count := ?_, kept := fun _ => ?_, works := (State.engineWorks_iff _).2 fun hbusy k => ?_, lanes := fun hlaw k => ?_,
        handler := ?_, slot := nofun }
    · refine (State.solveJobs_eq _ l).trans ?_
      show Machine.solveJobs (q.lane l).jobs + Machine.solveJobs (q.lane (otherLane l)).jobs + (s.engine.discard l).solveJobs = 0
      rw [hl, hother, hengine]
      show 0 + _ + _ = 0
      omega
    · show (s.engine.discard l).solveJobs = 0
      rw [hengine]
      omega
    · show (q.lane k).jobs = []
      obtain rfl | rfl := eq_or_eq_otherLane l k
      · rw [hl]
        rfl
      · rw [hother]
        exact s.engineWorks_iff.1 h.works (hidle hbusy) _
    · show (q.lane k).Orderly
      obtain rfl | rfl := eq_or_eq_otherLane l k
      · rw [hl, Lane.Orderly, Lane.resetLane_stage]
        exact .of_reset
      · rw [hother]
        exact h.lanes hlaw _
    · show q.link.handler = .free
      rw [hlink, h.handler]
  exact ((reset.giveUpBlock l .full).giveUpBlock l .region).emit l _ _

/-- The tube leaves the lane once no MEASURE job of it is left (R148). -/
theorem leaveFinish (h : s.Sound law hdl) (hst : (s.lane l).ctl.state = .finish)
    (hj : law → (s.lane l).jobs.any Job.isMeasure = false) (fault : Option FaultCause) : (s.leaveFinish l fault).Sound law hdl := by
  have hstage : (s.lane l).closeTube.stage = { (s.lane l).stage with located := false } := by
    rw [← Lane.stage_updateRearm (s.lane l)]
    rfl
  have closed : (s.upd l Lane.closeTube).Sound law hdl :=
    h.upd l (congrArg Stage.jobs hstage :) fun _ ho => by
      rw [hstage]
      exact ho.forget
  have hquiet : law → ((s.upd l Lane.closeTube).lane l).stage.Quiet := fun hl => by
    have ho := h.lane hl l
    have hphase : (s.lane l).stage.phase = .finish := Stage.phase_eq hst (by decide)
    rw [State.lane_upd, hstage]
    exact
      { armed := ho.disarmed (by rw [hphase]; decide), located := rfl, measure := hj hl,
        stopA := Bool.eq_false_iff.2 fun ha => absurd (ho.stopA ha) (by rw [hphase]; decide)
        stopB := Bool.eq_false_iff.2 fun hb => absurd (ho.stopB hb) (by rw [hphase]; decide) }
  unfold State.leaveFinish
  dsimp only
  split
  · exact closed.enterFaulted hquiet _
  · have hstate : ((s.upd l Lane.closeTube).lane l).stage.state = .finish := by
      rw [State.lane_upd, hstage]
      exact hst
    refine closed.upd l rfl fun hl ho => ?_
    have hmotion : ((s.upd l Lane.closeTube).lane l).stage.motion = .withdraw → LaneState.idle = .withdraw := fun hm =>
      absurd (ho.withdrawing hm) (by rw [hstate]; decide)
    exact ho.restMove (hquiet hl) (by rw [hstate]; decide) (st := .idle) (by decide) hmotion

theorem report (h : s.Sound law hdl) (hst : (s.lane l).ctl.state = .finish) {u : Tube} (hu : (s.lane l).ctl.tube = some u)
    (hlocated : u.located = true) : (s.report l u).Sound law hdl := by
  have hstage : (s.lane l).stage.located = true := by rw [Lane.stage, hu]; exact hlocated
  unfold State.report
  split
  · have counted : ((s.lane l).updTube fun v => { v with reported := v.reported + 1 }).stage = (s.lane l).stage :=
      Lane.stage_updTube _ fun _ => rfl
    exact (h.frame l counted).transmits (State.queueRecord_transmits _ _)
  · have hlane := (s.queueRecord_reports (.summary l ((s.lane l).summary u))).lane l
    refine (h.transmits (State.queueRecord_transmits _ _)).leaveFinish ?_ (fun hl => ?_) _ <;> rw [hlane]
    · exact hst
    · exact ((h.lane hl l).located hstage).2

end State.Sound

/-! ### JOB_COMPLETION (R78, R80, R178) -/

/-- The engine's job has been delivered, and the engine is to choose its next: the queues agree with the handler `hdl`. -/
structure State.Delivered (law : Prop) (hdl : Handler) (s : State) : Prop where
  count : Machine.solveJobs s.laneA.jobs + Machine.solveJobs s.laneB.jobs = hdl.flights
  handler : s.link.handler = hdl
  slot : hdl.busy = true → s.link.slot = none
  lanes : law → ∀ l, (s.lane l).Orderly

section

variable {law : Prop} {hdl : Handler} {s t : State} {l : LaneId}

/-- A MEASURE job, or one whose result is not delivered, leaves the queues as they are. -/
theorem State.Sound.delivered (h : s.Sound law hdl) (he : s.engine.solveJobs = 0) : s.Delivered law hdl where
  count := by
    rw [← h.count, State.solveJobs, he]
    rfl
  handler := h.handler
  slot := h.slot
  lanes := h.lanes

/-- The engine takes the front job of a queue (R78). -/
theorem State.Delivered.engineTake (h : s.Delivered law hdl) (hj : (s.lane l).jobs ≠ []) : (s.engineTake l).Sound law hdl := by
  obtain ⟨hnil, _⟩ | ⟨j, rest, hjobs, htake⟩ := s.engineTake_cases l
  · exact absurd hnil hj
  have hcount : Machine.solveJobs (s.lane l).jobs + Machine.solveJobs (s.lane (otherLane l)).jobs = hdl.flights := by
    rw [← h.count]
    cases l
    · rfl
    · exact Nat.add_comm _ _
  rw [hjobs, solveJobs_cons] at hcount
  have hl : (s.setLane l { s.lane l with jobs := rest }).lane l = { s.lane l with jobs := rest } := s.lane_setLane l _
  have hother := s.lane_setLane_other l { s.lane l with jobs := rest }
  have hlink := s.setLane_link l { s.lane l with jobs := rest }
  rw [htake]
  generalize s.setLane l { s.lane l with jobs := rest } = q at *
  refine { count := ?_, kept := nofun, works := nofun, lanes := fun hlaw k => ?_, handler := ?_, slot := ?_ }
  · refine (State.solveJobs_eq _ l).trans ?_
    show Machine.solveJobs (q.lane l).jobs + Machine.solveJobs (q.lane (otherLane l)).jobs + (if j.isSolve then 1 else 0) = _
    rw [hl, hother, ← hcount]
    exact Nat.add_right_comm _ _ _
  · show (q.lane k).Orderly
    obtain rfl | rfl := eq_or_eq_otherLane l k
    · rw [hl]
      exact (h.lanes hlaw _).pop hjobs
    · rw [hother]
      exact h.lanes hlaw _
  · show q.link.handler = hdl
    rw [hlink, h.handler]
  · show _ → q.link.slot = none
    rw [hlink]
    exact h.slot

theorem State.Delivered.engineChoose (h : s.Delivered law hdl) : s.engineChoose.Sound law hdl := by
  have freed : ({ s with engine := { s.engine with busy := none } } : State).Delivered law hdl :=
    ⟨h.count, h.handler, h.slot, h.lanes⟩
  unfold State.engineChoose
  dsimp only
  split
  next ha hb =>
    rw [List.isEmpty_iff] at ha hb
    exact
      { count := by rw [← h.count]; rfl, kept := nofun, works := fun _ => ⟨ha, hb⟩, lanes := h.lanes, handler := h.handler,
        slot := h.slot }
  next ha _ => exact freed.engineTake (l := .a) (List.isEmpty_eq_false_iff.1 ha)
  next _ hb => exact freed.engineTake (l := .b) (List.isEmpty_eq_false_iff.1 hb)
  next ha hb =>
    refine freed.engineTake ?_
    cases s.engine.servedLast
    · exact List.isEmpty_eq_false_iff.1 hb
    · exact List.isEmpty_eq_false_iff.1 ha

/-- The request in flight is that of the engine's SPAN or SOLVE job; it is answered and the handler is FREE (R178). -/
theorem State.Sound.answerFlight (h : s.Sound law hdl) (he : s.engine.solveJobs = 1) (code : ReplyCode) (body : ReplyBody) :
    (s.answerFlight code body).Delivered law .free := by
  have hcount := h.count
  rw [State.solveJobs, he] at hcount
  have hworking : ∃ hdr, s.link.handler = .working hdr := by
    rw [h.handler]
    cases hdl with
    | free =>
      have : Handler.free.flights = 0 := rfl
      omega
    | working hdr => exact ⟨hdr, rfl⟩
  have hle : hdl.flights ≤ 1 := by unfold Handler.flights; split <;> omega
  obtain ⟨hdr, hhandler⟩ := hworking
  have hsame := s.answerFlight_same code body
  have hjobs : ∀ k, ((s.answerFlight code body).lane k).jobs = (s.lane k).jobs := fun k => by rw [hsame.lane]
  refine ⟨?_, (State.answerFlight_link hhandler code body).1, nofun, fun hl k => ?_⟩
  · have ha : (s.answerFlight code body).laneA.jobs = s.laneA.jobs := hjobs .a
    have hb : (s.answerFlight code body).laneB.jobs = s.laneB.jobs := hjobs .b
    rw [ha, hb]
    show _ = 0
    omega
  · rw [hsame.lane]
    exact h.lanes hl k

/-- A job's result goes to its owner (R80). -/
theorem State.Sound.deliver (h : s.Sound law hdl) {e : EngineJob} (hbusy : s.engine.busy = some e) :
    ∃ hdl', (s.deliver e.lane e.job).Delivered law hdl' := by
  have hengine : s.engine.solveJobs = if e.job.isSolve then 1 else 0 := by rw [Engine.solveJobs, hbusy]
  cases hjob : e.job with
  | measure tag ind =>
    have joined : (s.upd e.lane fun x => x.joinMeasured ind).Sound law hdl := h.frame e.lane ?_
    · refine ⟨hdl, joined.delivered ?_⟩
      rw [State.upd_engine, hengine, hjob]
      rfl
    · exact Lane.stage_updTube _ fun t => t.join_located _
  | span ch amplitude phase values =>
    rw [hjob] at hengine
    refine ⟨.free, ?_⟩
    unfold State.deliver State.deliverSpan
    dsimp only
    split
    · exact (h.frame e.lane rfl).answerFlight ((congrArg Engine.solveJobs (State.upd_engine _ _ _)).trans hengine) _ _
    · exact h.answerFlight hengine _ _
  | solve ch ps qs =>
    rw [hjob] at hengine
    refine ⟨.free, ?_⟩
    unfold State.deliver State.deliverSolve
    dsimp only
    split
    · exact (h.frame e.lane rfl).answerFlight ((congrArg Engine.solveJobs (State.upd_engine _ _ _)).trans hengine) _ _
    · exact h.answerFlight hengine _ _

theorem execJobCompletion_sound (h : s.Sound law hdl) (ht : execJobCompletion s = .next t) : ∃ hdl', t.Sound law hdl' := by
  cases ht
  split
  · exact ⟨hdl, h⟩
  next e hbusy =>
    have reached := h.reach e.doneAt
    have delivered : ∃ hdl',
        (if e.discarded then s.reach e.doneAt else (s.reach e.doneAt).deliver e.lane e.job).Delivered law hdl' := by
      split
      next hdiscarded =>
        refine ⟨hdl, reached.delivered (reached.kept ?_)⟩
        rw [State.reach_engine, Engine.discards, hbusy]
        exact hdiscarded
      · exact reached.deliver hbusy
    obtain ⟨hdl', hd⟩ := delivered
    exact ⟨hdl', hd.engineChoose.finishWait _⟩

/-! ### The station line (chapter 10) -/

theorem State.Sound.badFrame (h : s.Sound law hdl) : s.badFrame.Sound law hdl := h.of_fields rfl rfl rfl rfl id

theorem State.Sound.goodFrame (h : s.Sound law hdl) (payload : List Byte) : (s.goodFrame payload).Sound law hdl := by
  have alive : s.signOfLife.Sound law hdl := by
    have up : ({ s with link := { s.link with silenceDue := some s.silenceEnd, up := true } } : State).Sound law hdl :=
      h.of_fields rfl rfl rfl rfl id
    unfold State.signOfLife
    dsimp only
    split
    · exact up
    · exact (up.transmits (State.formNotice_transmits _ _)).transmits (State.kick_transmits _)
  have accepted : ∀ k : Link, (k.accept payload).handler = k.handler ∧ (k.accept payload).slot = k.slot := fun k => by
    unfold Link.accept
    split <;> exact ⟨rfl, rfl⟩
  exact alive.of_fields rfl rfl rfl (accepted _).1 fun hs => (accepted _).2.trans hs

theorem State.Sound.rxByte (h : s.Sound law hdl) (b : Byte) : (s.rxByte b).Sound law hdl := by
  have hunting : ({ s with link := { s.link with rx := .hunting false } } : State).Sound law hdl := h.of_fields rfl rfl rfl rfl id
  unfold State.rxByte
  split
  · split <;> exact h.of_fields rfl rfl rfl rfl id
  · unfold State.frameByte State.judge
    split
    · exact h.badFrame
    · split
      · split
        · exact hunting.goodFrame _
        · exact h.badFrame
      · exact h.of_fields rfl rfl rfl rfl id

theorem State.Sound.receive (h : s.Sound law hdl) (bytes : List Byte) : (s.receive bytes).Sound law hdl := by
  have taken : (bytes.foldl State.rxByte s).Sound law hdl := by
    induction bytes generalizing s with
    | nil => exact h
    | cons b bytes ih => exact ih (h.rxByte b)
  exact taken.of_fields rfl rfl rfl rfl id

theorem execFrameTimeout_sound (h : s.Sound law hdl) (ht : execFrameTimeout s = .next t) : t.Sound law hdl := by
  cases ht
  split
  · exact (h.reach _).badFrame
  · exact h

theorem execSilenceTimeout_sound (h : s.Sound law hdl) (ht : execSilenceTimeout s = .next t) : t.Sound law hdl := by
  cases ht
  split
  · next due _ _ =>
    have lost : (s.reach due).loseLink.Sound law hdl := (h.reach due).of_fields rfl rfl rfl rfl id
    exact (lost.holdIf .a).holdIf .b
  · exact h

theorem execTransmissionEnd_sound (h : s.Sound law hdl) (ht : execTransmissionEnd s = .next t) : t.Sound law hdl := by
  cases ht
  split
  · exact h
  · exact (h.reach _).transmits (State.choose_transmits _)
  · exact (((h.reach _).transmits (.pool _ _)).transmits (State.returnBuffer_transmits _)).transmits (State.choose_transmits _)

/-! ### Inputs, encoder, control period and scan (chapters 1, 2 and 7) -/

theorem State.Sound.testHomeLimit (h : s.Sound law hdl) (l : LaneId) : (s.testHomeLimit l).Sound law hdl := by
  unfold State.testHomeLimit
  dsimp only
  split
  next hlimit =>
    simp only [Bool.and_eq_true, beq_iff_eq] at hlimit
    obtain ⟨⟨_, hmotion⟩, _⟩ := hlimit
    refine (h.stopDrive l).withdrawResult (fun hl => ?_) _
    obtain ⟨harmed, hlocated⟩ := h.settled ((h.lane hl l).withdrawing hmotion) (by decide) hl
    rw [State.lane_upd]
    exact ⟨harmed, hlocated⟩
  · exact h

theorem State.Sound.moveCount (h : s.Sound law hdl) (l : LaneId) (count : Int) : (s.moveCount l count).Sound law hdl := by
  have moved : (s.upd l fun x => { x with pos := { x.pos with count := count } }).Sound law hdl := h.frame l rfl
  exact (moved.testStops l).testHomeLimit l

theorem execEdge_sound {phase : EncPhase} (h : s.Sound law hdl) (ht : execEdge l phase s = .next t) : t.Sound law hdl := by
  have accepted : (s.upd l fun x => x.accept phase).Sound law hdl := h.frame l rfl
  cases ht
  split
  · exact accepted.frame l rfl
  · split
    · exact accepted.moveCount l _
    · exact accepted

theorem Lane.periodMeasure_stage (x : Lane) : x.periodMeasure.stage = x.stage := by
  unfold Lane.periodMeasure Position.measure
  split <;> rfl

theorem Lane.pullSpeeds_stage (x : Lane) : x.pullSpeeds.stage = x.stage := by
  unfold Lane.pullSpeeds
  dsimp only
  split
  · exact x.stage_updTube (f := fun t => t.speeds x.pos.speed) fun _ => rfl
  · rfl

theorem Lane.drivePeriod_stage (x : Lane) (tight : Bool) : (x.drivePeriod tight).stage = x.stage := by
  unfold Lane.drivePeriod
  split <;> rfl

theorem execControlPeriodEnd_sound (h : s.Sound law hdl) (ht : execControlPeriodEnd l s = .next t) : t.Sound law hdl := by
  cases ht
  refine (h.reach _).frame l ?_
  rw [Lane.drivePeriod_stage, Lane.pullSpeeds_stage, Lane.periodMeasure_stage]

theorem execStall_sound (h : s.Sound law hdl) (ht : execStall l s = .next t) : t.Sound law hdl := by
  cases ht
  split
  · exact (h.stopDrive l).stallEvent l _
  · exact h

theorem execRawLevelChange_sound {i : InputId} {level : Bool} (h : s.Sound law hdl) (ht : execRawLevelChange l i level s = .next t) :
    t.Sound law hdl := by
  cases ht
  exact h.frame l (by cases i <;> rfl)

theorem execDebouncedStateChange_sound {i : InputId} (h : s.Sound law hdl) (ht : execDebouncedStateChange l i s = .next t) :
    t.Sound law hdl := by
  cases ht
  split
  · exact h
  · exact (h.reach _).inputChange l i

theorem State.poweredOn_sound (s : State) : s.poweredOn.Sound law .free where
  count := rfl
  kept := nofun
  works := fun _ => ⟨rfl, rfl⟩
  lanes _ k := by
    rw [State.poweredOn_lane, Lane.Orderly, Lane.powerOn_stage]
    exact .of_reset
  handler := rfl
  slot := nofun

theorem execSwitchEnd_sound (h : s.Sound law hdl) (ht : execSwitchEnd l s = .next t) : t.Sound law hdl := by
  cases ht
  split
  · exact (h.reach _).frame l rfl
  · exact h

theorem execSettleEnd_sound (h : s.Sound law hdl) (ht : execSettleEnd l s = .next t) : t.Sound law hdl := by
  cases ht
  split
  · exact (h.reach _).frame l rfl
  · exact h

theorem execSlotEnd_sound {d : Demod} (h : s.Sound law hdl) (ht : execSlotEnd l d s = .next t) : t.Sound law hdl := by
  cases ht
  split
  · unfold State.endSlot
    dsimp only
    split
    · exact (h.reach _).frame l rfl
    · exact State.Sound.captureCycle ((h.reach _).frame l rfl) l _
  · exact h

theorem execGuidePoll_sound (h : s.Sound law hdl) (ht : execGuidePoll l s = .next t) : t.Sound law hdl := by
  cases ht
  split
  next due hst _ =>
    refine State.Sound.guideTest (State.Sound.frame (h.reach due) l (f := fun x => x.nextPoll due) rfl) fun _ => ?_
    rw [State.lane_upd, State.reach_lane]
    exact hst
  · exact h

theorem execTurnDwellEnd_sound (h : s.Sound law hdl) (ht : execTurnDwellEnd l s = .next t) : t.Sound law hdl := by
  cases ht
  split
  next due hst _ =>
    refine (h.reach due).enterPull fun _ => ?_
    rw [State.reach_lane]
    exact hst
  · exact h

theorem execReportRecord_sound (h : s.Sound law hdl) (ht : execReportRecord l s = .next t) : t.Sound law hdl := by
  cases ht
  split
  next hst hu =>
    split
    next hready => exact h.report hst hu hready.1
    · exact h
  · exact h

end

/-! ### Requests (R177, R178) -/

section

variable {law : Prop} {hdl : Handler} {s t : State} {l : LaneId}

/-- What a request taken by a FREE handler comes to agrees with the handler after it: FREE, or WORKING on the request. -/
def Handled.Sound (law : Prop) : Handled → Prop
  | .refused _ => True
  | .done t _ => t.Sound law .free
  | .inFlight t => ∀ hdr, (t.working hdr).Sound law (.working hdr)

/-- A reply is given by a FREE handler. -/
theorem State.Sound.placeReply (h : s.Sound law .free) (r : Reply) : (s.placeReply r).Sound law .free := by
  have hr := s.placeReply_reports r
  refine ⟨h.toQueued.of_same (fun l => by rw [hr.lane]) hr.engine fun hl l => ?_, ?_, nofun⟩
  · rw [hr.lane]
    exact h.lanes hl l
  · rw [hr.link]
    exact h.handler

theorem State.Sound.conclude (h : s.Sound law .free) (p : List Byte) {o : Handled} (ho : o.Sound law) :
    ∃ hdl', (s.conclude p o).Sound law hdl' := by
  cases o with
  | refused code => exact ⟨.free, h.placeReply _⟩
  | done t body => exact ⟨.free, State.Sound.placeReply ho _⟩
  | inFlight t => exact ⟨.working (headerOf p), ho _⟩

theorem State.Sound.handle {kind : Nat → Bool} {f : List Byte → State → Handled} (h : s.Sound law hdl)
    (hf : ∀ p {u : State}, u.Sound law .free → u.link.slot = none → (f p u).Sound law)
    (ht : Host.Outcome.next (φ := Fault) (ρ := Refusal) (s.handle kind f) = .next t) : ∃ hdl', t.Sound law hdl' := by
  cases ht
  obtain hid | ⟨p, ⟨hfree, hslot, _⟩, _, htaken⟩ := s.handle_cases kind f
  · rw [hid]
    exact ⟨hdl, h⟩
  · obtain rfl : hdl = .free := h.handler.symm.trans hfree
    have popped : s.popRequest.Sound law .free := h.of_fields rfl rfl rfl rfl id
    rw [htaken]
    exact popped.conclude p (hf p popped hslot)

/-- A check that refuses the request, or else lets it through. -/
theorem Handled.sound_of_check {c : Prop} [Decidable c] {code : ReplyCode} {o : Handled} (ho : ¬c → o.Sound law) :
    (if c then .refused code else o).Sound law := by
  split
  · trivial
  · exact ho ‹_›

theorem forLane_sound {p : List Byte} {f : LaneId → Handled} (h : ∀ l, (f l).Sound law) : (forLane p f).Sound law := by
  unfold forLane
  split
  · exact h _
  · trivial

/-- A setup request is carried out in a lane that takes one. -/
theorem forSetup_sound {p : List Byte} {n : Nat} {f : LaneId → Handled}
    (h : ∀ l, (s.lane l).ctl.state.setup = true → (f l).Sound law) : (forSetup p s n f).Sound law :=
  forLane_sound fun l => Handled.sound_of_check fun hsetup =>
    Handled.sound_of_check fun _ => h l (Bool.not_eq_false _ ▸ hsetup)

theorem forLaneLength_sound {p : List Byte} {n : Nat} {f : LaneId → Handled} (h : ∀ l, (f l).Sound law) :
    (forLaneLength p n f).Sound law := forLane_sound fun l => Handled.sound_of_check fun _ => h l

theorem forUnit_sound {p : List Byte} {n : Nat} {o : Handled} (ho : o.Sound law) : (forUnit p n o).Sound law :=
  Handled.sound_of_check fun _ => Handled.sound_of_check fun _ => ho

theorem handleSetLink_sound (p : List Byte) (h : s.Sound law .free) : (handleSetLink p s).Sound law := by
  refine forUnit_sound ?_
  split
  · unfold State.setLink
    refine State.Sound.transmits ?_ (State.testPool_transmits _)
    exact h.of_fields rfl rfl rfl rfl id
  · trivial

theorem handleSetLayout_sound (p : List Byte) (h : s.Sound law .free) : (handleSetLayout p s).Sound law := by
  refine forUnit_sound (Handled.sound_of_check fun _ => Handled.sound_of_check fun _ => ?_)
  split
  · exact h.of_fields rfl rfl rfl rfl id
  · trivial

theorem handleSetScan_sound (p : List Byte) (h : s.Sound law .free) : (handleSetScan p s).Sound law := by
  refine forSetup_sound fun l _ => ?_
  split
  · exact h.frame l rfl
  · trivial

theorem handleSetChannel_sound (p : List Byte) (h : s.Sound law .free) : (handleSetChannel p s).Sound law := by
  refine forSetup_sound fun l _ => Handled.sound_of_check fun _ => ?_
  split
  · exact h.frame l rfl
  · trivial

theorem handleSetMix_sound (p : List Byte) (h : s.Sound law .free) : (handleSetMix p s).Sound law := by
  have mixed : ∀ (l : LaneId) (ch : Nat) (m : MixChannel), (s.setMix l ch m).Sound law := fun l _ _ => h.frame l rfl
  refine forSetup_sound fun l _ => Handled.sound_of_check fun _ => ?_
  split
  · exact mixed l _ _
  · split
    · split
      · exact mixed l _ _
      · trivial
    · trivial

theorem handleSetLandmark_sound (p : List Byte) (h : s.Sound law .free) : (handleSetLandmark p s).Sound law := by
  refine forSetup_sound fun l _ => ?_
  split
  · exact h.frame l rfl
  · trivial

theorem Lane.setMotion_stage (x : Lane) (scale : Nat) (m : Motion) : (x.setMotion scale m).stage = x.stage := by
  unfold Lane.setMotion Position.setScale
  split <;> rfl

theorem handleSetMotion_sound (p : List Byte) (h : s.Sound law .free) : (handleSetMotion p s).Sound law := by
  refine forSetup_sound fun l _ => ?_
  split
  next k _ =>
    have replaced : (s.upd l fun x => x.setMotion k.1 k.2).Sound law .free := h.frame l (Lane.setMotion_stage _ _ _)
    exact ((replaced.settleInput l .guideLatched).settleInput l .probeHome).settleInput l .motorFault
  · trivial

theorem handleQueueTube_sound (p : List Byte) (h : s.Sound law .free) : (handleQueueTube p s).Sound law := by
  refine forLaneLength_sound fun l => ?_
  have queued : ((s.upd l fun y => y.appendOrder (orderAt p)).takeFrontOrder l).Sound law .free :=
    State.Sound.takeFrontOrder (h.frame l rfl) l
  exact Handled.sound_of_check fun _ => Handled.sound_of_check fun _ => Handled.sound_of_check fun _ =>
    Handled.sound_of_check fun _ => Handled.sound_of_check fun _ => queued

theorem handleCancelTube_sound (p : List Byte) (h : s.Sound law .free) : (handleCancelTube p s).Sound law := by
  refine forLaneLength_sound fun l => ?_
  dsimp only
  split
  · exact h.frame l rfl
  · trivial

theorem handleAbort_sound (p : List Byte) (h : s.Sound law .free) : (handleAbort p s).Sound law := by
  refine forLaneLength_sound fun l => ?_
  split
  next t ht => exact (h.abortLane ht).holdIfLost l
  · trivial

theorem handleHold_sound (p : List Byte) (h : s.Sound law .free) : (handleHold p s).Sound law := by
  refine forLaneLength_sound fun l => ?_
  dsimp only
  split
  next hst => exact h.enterHeld hst
  · split
    · exact h
    · trivial

theorem handleResume_sound (p : List Byte) (h : s.Sound law .free) : (handleResume p s).Sound law := by
  refine forLaneLength_sound fun l => ?_
  split
  next hst => exact (h.resumeLane hst).holdIfLost l
  · trivial

theorem handleRetract_sound (p : List Byte) (h : s.Sound law .free) : (handleRetract p s).Sound law := by
  refine forLaneLength_sound fun l => ?_
  dsimp only
  split
  next hst => exact (h.startRetract (Bool.and_eq_true_iff.1 hst).1).holdIfLost l
  · trivial

/-- The job of a SPAN_CAL or SOLVE_MIX finds its lane's queue empty: MEASURE jobs wait in no lane that takes the request, SPAN and SOLVE
jobs not with the handler FREE (R56, R59, R178). -/
theorem State.Sound.inFlight (h : s.Sound law .free) (hslot : s.link.slot = none) (hst : (s.lane l).ctl.state.setup = true) {j : Job}
    (hj : j.isSolve = true) : (Handled.inFlight (s.appendJob l j)).Sound law := fun hdr => by
  have hcount := h.count
  rw [s.solveJobs_eq l] at hcount
  have hmeasure : j.isMeasure = false := by
    rw [Job.isSolve, Bool.not_eq_true'] at hj
    exact hj
  have hempty : law → (s.lane l).jobs = [] := fun hl => List.eq_nil_iff_forall_not_mem.2 fun k hk => by
    have hnot : ¬k.isMeasure = true := List.any_eq_false.1 (h.quiet_of_setup hst hl).measure k hk
    have hzero : Machine.solveJobs (s.lane l).jobs = 0 := by
      have : Handler.free.flights = 0 := rfl
      omega
    have hsolve : ¬k.isSolve = true := List.countP_eq_zero.1 hzero k hk
    rw [Job.isSolve, Bool.not_eq_true', Bool.not_eq_false] at hsolve
    exact hnot hsolve
  have queued := h.toQueued.appendJob l j fun hl => (h.lane hl l).pushSolve (hempty hl) hmeasure
  rw [if_pos hj] at queued
  refine ⟨queued.of_same (fun k => by rw [State.working_lane]) rfl fun hl k => ?_, rfl, fun _ => ?_⟩
  · rw [State.working_lane]
    exact queued.lanes hl k
  · show (s.appendJob l j).link.slot = none
    rw [State.appendJob_link, hslot]

theorem handleSpanCal_sound (p : List Byte) (h : s.Sound law .free) (hslot : s.link.slot = none) : (handleSpanCal p s).Sound law :=
  forSetup_sound fun _ hst => Handled.sound_of_check fun _ => Handled.sound_of_check fun _ => Handled.sound_of_check fun _ =>
    Handled.sound_of_check fun _ => h.inFlight hslot hst rfl

theorem handleSolveMix_sound (p : List Byte) (h : s.Sound law .free) (hslot : s.link.slot = none) : (handleSolveMix p s).Sound law := by
  refine forSetup_sound fun _ hst => ?_
  dsimp only
  split
  · exact Handled.sound_of_check fun _ => Handled.sound_of_check fun _ => h.inFlight hslot hst rfl
  · trivial

/-! ### Every step -/

/-- Every command keeps jobs, engine and handler in agreement. -/
theorem exec_sound {c : Instr} (h : s.Sound law hdl) (ht : exec c s = .next t) : ∃ hdl', t.Sound law hdl' := by
  cases c with
  | powerOn => cases ht; exact ⟨_, s.poweredOn_sound⟩
  | rawLevelChange l i level => exact ⟨_, execRawLevelChange_sound h ht⟩
  | debouncedStateChange l i => exact ⟨_, execDebouncedStateChange_sound h ht⟩
  | edge l phase => exact ⟨_, execEdge_sound h ht⟩
  | controlPeriodEnd l => exact ⟨_, execControlPeriodEnd_sound h ht⟩
  | stall l => exact ⟨_, execStall_sound h ht⟩
  | switchEnd l => exact ⟨_, execSwitchEnd_sound h ht⟩
  | settleEnd l => exact ⟨_, execSettleEnd_sound h ht⟩
  | slotEnd l d => exact ⟨_, execSlotEnd_sound h ht⟩
  | guidePoll l => exact ⟨_, execGuidePoll_sound h ht⟩
  | turnDwellEnd l => exact ⟨_, execTurnDwellEnd_sound h ht⟩
  | takeOrder l => cases ht; exact ⟨_, h.takeFrontOrder l⟩
  | jobCompletion => exact execJobCompletion_sound h ht
  | reportRecord l => exact ⟨_, execReportRecord_sound h ht⟩
  | frameReceived bytes => cases ht; exact ⟨_, h.receive bytes⟩
  | frameTimeout => exact ⟨_, execFrameTimeout_sound h ht⟩
  | silenceTimeout => exact ⟨_, execSilenceTimeout_sound h ht⟩
  | transmissionEnd => exact ⟨_, execTransmissionEnd_sound h ht⟩
  | badKind => exact h.handle (f := fun _ _ => .refused .badKind) (fun _ _ _ _ => trivial) ht
  | status => exact h.handle (f := handleStatus) (fun _ _ hu _ => forUnit_sound hu) ht
  | setLink => exact h.handle (fun p _ hu _ => handleSetLink_sound p hu) ht
  | setLayout => exact h.handle (fun p _ hu _ => handleSetLayout_sound p hu) ht
  | setScan => exact h.handle (fun p _ hu _ => handleSetScan_sound p hu) ht
  | setChannel => exact h.handle (fun p _ hu _ => handleSetChannel_sound p hu) ht
  | setMix => exact h.handle (fun p _ hu _ => handleSetMix_sound p hu) ht
  | setLandmark => exact h.handle (fun p _ hu _ => handleSetLandmark_sound p hu) ht
  | setMotion => exact h.handle (fun p _ hu _ => handleSetMotion_sound p hu) ht
  | queueTube => exact h.handle (fun p _ hu _ => handleQueueTube_sound p hu) ht
  | cancelTube => exact h.handle (fun p _ hu _ => handleCancelTube_sound p hu) ht
  | abort => exact h.handle (fun p _ hu _ => handleAbort_sound p hu) ht
  | hold => exact h.handle (fun p _ hu _ => handleHold_sound p hu) ht
  | resume => exact h.handle (fun p _ hu _ => handleResume_sound p hu) ht
  | retract => exact h.handle (fun p _ hu _ => handleRetract_sound p hu) ht
  | laneReset => exact h.handle (f := handleLaneReset) (fun _ _ hu _ => forLaneLength_sound fun l => hu.resetLane l) ht
  | spanCal => exact h.handle (fun p _ hu hslot => handleSpanCal_sound p hu hslot) ht
  | solveMix => exact h.handle (fun p _ hu hslot => handleSolveMix_sound p hu hslot) ht
  | syncWordFound bytes => cases ht; exact ⟨_, h.receive bytes⟩
  | frameLengthOutOfRange bytes => cases ht; exact ⟨_, h.receive bytes⟩

theorem step_sound (h : s.Sound law hdl) (ht : step s = .next t) : ∃ hdl', t.Sound law hdl' := by
  unfold step at ht
  split at ht
  · cases ht
    exact ⟨hdl, h.of_fields rfl rfl rfl rfl id⟩
  · have taken : ∀ q, (s.withPending q).Sound law hdl := fun _ => h.of_fields rfl rfl rfl rfl id
    exact exec_sound (taken _) ht

theorem LaneState.eq_withdraw_of_motion {st : LaneState} : st.motion = .withdraw → st = .withdraw := by cases st <;> decide

/-- The motor law and the legality of a job queue make a lane's stage orderly. -/
theorem Lane.orderly_of_lawful {x : Lane} {up : Bool} (hm : x.motorLawful up) (hj : x.jobsLegal) : x.Orderly := by
  obtain ⟨⟨hphase, _⟩, ⟨hheld, hholdable, hreturn, hstopA, hstopB⟩, _⟩ := hm
  obtain ⟨hfew, hmeasure, harmed, hlocated⟩ := hj
  refine
    { few := hfew, measuring := hmeasure, capturing := harmed, located := fun hl => ?_, held := hheld, holdable := hholdable,
      returning := hreturn, stopA := hstopA, stopB := hstopB, withdrawing := fun hw => ?_ }
  · obtain ⟨u, hu, hul⟩ := (Option.any_eq_true _ _).1 hl
    exact hlocated u hu hul
  · have hmotion : x.ctl.state.motion = .withdraw := hphase.symm.trans hw
    exact LaneState.eq_withdraw_of_motion hmotion

theorem Lane.Orderly.jobsLegal {x : Lane} (h : x.Orderly) : x.jobsLegal :=
  ⟨h.few, h.measuring, h.capturing, fun _ hu hl => h.located ((Option.any_eq_true _ _).2 ⟨_, hu, hl⟩)⟩

/-- The statement's premises are soundness for the handler as it stands. -/
theorem State.sound_of_kept (hf : s.flightKept) (he : s.engineWorks) : s.Sound (s.motorLaw ∧ s.jobsLegal) s.link.handler where
  count := hf.1
  kept := hf.2.2
  works := he
  lanes := by
    rintro ⟨⟨hma, hmb⟩, hja, hjb⟩ l
    cases l
    · exact Lane.orderly_of_lawful hma hja
    · exact Lane.orderly_of_lawful hmb hjb
  handler := rfl
  slot := hf.2.1

theorem State.Sound.flightKept (h : s.Sound law hdl) : s.flightKept := by
  obtain rfl := h.handler
  exact ⟨h.count, h.slot, h.kept⟩

end

/-- Settles O7: `step_sound` for the premises as they stand; orderly stages have legal job queues. -/
theorem everyStepKeepsTheFlightAndTheEngine : Obligations.EveryStepKeepsTheFlightAndTheEngine := by
  intro s t hflight hengine hstep
  obtain ⟨hdl, h⟩ := step_sound (State.sound_of_kept hflight hengine) hstep
  exact ⟨h.flightKept, h.works, fun hm hj => ⟨(h.lanes ⟨hm, hj⟩ .a).jobsLegal, (h.lanes ⟨hm, hj⟩ .b).jobsLegal⟩⟩

end Sys2Proof.Machine

/-! A completed MEASURE job and the indication catalogue (R78, R80 to R83, R104 to R110, R113, R148). -/

namespace Sys2Proof.Machine

/-! ### The catalogue's order (R107)

`CatEntry.notAfter` is the order of the entries; `CatEntry.before` says that an inserted entry stands before one that is there. -/

theorem CatEntry.before_iff (e k : CatEntry) :
    e.before k = true ↔ e.centre < k.centre ∨ (e.centre = k.centre ∧ e.channel < k.channel) := by
  simp only [CatEntry.before, Bool.or_eq_true, Bool.and_eq_true, decide_eq_true_eq]

theorem CatEntry.notAfter_of_before {e k : CatEntry} (h : e.before k = true) : e.notAfter k := by
  rw [CatEntry.before_iff] at h
  unfold CatEntry.notAfter
  omega

theorem CatEntry.notAfter_of_not_before {e k : CatEntry} (h : ¬e.before k = true) : k.notAfter e := by
  rw [CatEntry.before_iff] at h
  unfold CatEntry.notAfter
  omega

theorem CatEntry.notAfter_trans {a b c : CatEntry} (h : a.notAfter b) (k : b.notAfter c) : a.notAfter c := by
  unfold CatEntry.notAfter at *
  omega

/-- An entry is inserted behind those that it does not stand before and ahead of the first that it does (R107). -/
theorem insertEntry_split (e : CatEntry) (cat : List CatEntry) :
    ∃ front back, cat = front ++ back ∧ insertEntry e cat = front ++ e :: back ∧ (∀ k ∈ front, k.notAfter e) ∧
      ∀ k, back.head? = some k → e.before k = true := by
  induction cat with
  | nil => exact ⟨[], [], rfl, rfl, List.forall_mem_nil _, fun k hk => absurd hk (by simp)⟩
  | cons k rest ih =>
    rw [insertEntry]
    by_cases hk : e.before k = true
    · rw [if_pos hk]
      exact ⟨[], k :: rest, rfl, rfl, List.forall_mem_nil _, fun _ h => Option.some.inj h ▸ hk⟩
    · obtain ⟨front, back, hcat, hins, hfront, hback⟩ := ih
      rw [if_neg hk]
      exact ⟨k :: front, back, by rw [hcat]; rfl, by rw [hins]; rfl,
        List.forall_mem_cons.2 ⟨CatEntry.notAfter_of_not_before hk, hfront⟩, hback⟩

theorem insertEntry_perm (e : CatEntry) (cat : List CatEntry) : (insertEntry e cat).Perm (e :: cat) := by
  obtain ⟨front, back, hcat, hins, -⟩ := insertEntry_split e cat
  rw [hins, hcat]
  exact List.perm_middle

/-- Those present keep their order (R107). -/
theorem sublist_insertEntry (e : CatEntry) (cat : List CatEntry) : cat.Sublist (insertEntry e cat) := by
  obtain ⟨front, back, hcat, hins, -⟩ := insertEntry_split e cat
  rw [hins, hcat]
  exact (List.sublist_cons_self e back).append_left front

/-- Insertion keeps the catalogue in its order (R107). -/
theorem insertEntry_pairwise (e : CatEntry) {cat : List CatEntry} (h : cat.Pairwise CatEntry.notAfter) :
    (insertEntry e cat).Pairwise CatEntry.notAfter := by
  obtain ⟨front, back, hcat, hins, hfront, hback⟩ := insertEntry_split e cat
  rw [hcat, List.pairwise_append] at h
  obtain ⟨hf, hb, hfb⟩ := h
  have hall : ∀ k ∈ back, e.notAfter k := by
    cases back with
    | nil => exact List.forall_mem_nil _
    | cons b rest =>
      have heb := CatEntry.notAfter_of_before (hback b rfl)
      exact List.forall_mem_cons.2 ⟨heb, fun k hk => CatEntry.notAfter_trans heb (List.rel_of_pairwise_cons hb hk)⟩
  rw [hins, List.pairwise_append]
  exact ⟨hf, List.pairwise_cons.2 ⟨hall, hb⟩, fun a ha => List.forall_mem_cons.2 ⟨hfront a ha, hfb a ha⟩⟩

/-- An entry that joins a catalogue with room, with the next join number (R107 to R109). -/
theorem Tube.insert_legal {t : Tube} (e : CatEntry) (h : t.catalogueLegal) (hroom : t.catalogue.length < 64) :
    (t.insert e).catalogueLegal := by
  obtain ⟨_, hpairwise, hnodup, hgiven⟩ := h
  have hperm := insertEntry_perm { e with join := t.joins + 1 } t.catalogue
  refine ⟨?_, insertEntry_pairwise _ hpairwise, ?_, fun k hk => ?_⟩
  · show (insertEntry _ t.catalogue).length ≤ 64
    rw [hperm.length_eq, List.length_cons]
    exact hroom
  · show ((insertEntry _ t.catalogue).map fun k => k.join).Nodup
    rw [(hperm.map _).nodup_iff, List.map_cons, List.nodup_cons]
    refine ⟨fun hmem => ?_, hnodup⟩
    obtain ⟨k, hk, hjoin⟩ := List.mem_map.1 hmem
    have hle := hgiven k hk
    have heq : k.join = t.joins + 1 := hjoin
    omega
  · show k.join ≤ t.joins + 1
    obtain rfl | hk := List.mem_cons.1 (hperm.mem_iff.1 hk)
    · exact le_rfl
    · exact Nat.le_succ_of_le (hgiven k hk)

/-! ### Eviction (R109, R110) -/

/-- An entry goes before another in eviction: smaller amplitude, or the same and no lower join number (R109). -/
def CatEntry.evictedBefore (w k : CatEntry) : Prop := w.amplitude < k.amplitude ∨ (w.amplitude = k.amplitude ∧ k.join ≤ w.join)

theorem CatEntry.evictedBefore_trans {a b c : CatEntry} (h : a.evictedBefore b) (k : b.evictedBefore c) : a.evictedBefore c := by
  unfold CatEntry.evictedBefore at *
  omega

/-- Of two entries the one evicted first (R109). -/
theorem weaker_evicted (e k : CatEntry) :
    (weaker e k = e ∨ weaker e k = k) ∧ (weaker e k).evictedBefore e ∧ (weaker e k).evictedBefore k := by
  unfold weaker CatEntry.evictedBefore
  split
  · exact ⟨.inr rfl, by omega, by omega⟩
  · exact ⟨.inl rfl, by omega, by omega⟩

theorem foldl_weaker (rest : List CatEntry) (e : CatEntry) :
    rest.foldl weaker e ∈ e :: rest ∧ ∀ k ∈ e :: rest, (rest.foldl weaker e).evictedBefore k := by
  induction rest generalizing e with
  | nil => exact ⟨List.mem_singleton_self e, List.forall_mem_singleton.2 (.inr ⟨rfl, le_rfl⟩)⟩
  | cons k rest ih =>
    obtain ⟨hmem, hall⟩ := ih (weaker e k)
    obtain ⟨hone, he, hk⟩ := weaker_evicted e k
    obtain ⟨hself, hrest⟩ := List.forall_mem_cons.1 hall
    rw [List.foldl_cons]
    refine ⟨?_, List.forall_mem_cons.2 ⟨CatEntry.evictedBefore_trans hself he,
      List.forall_mem_cons.2 ⟨CatEntry.evictedBefore_trans hself hk, hrest⟩⟩⟩
    obtain hw | hw := List.mem_cons.1 hmem
    · rw [hw]
      obtain h | h := hone <;> rw [h]
      · exact List.mem_cons_self
      · exact List.mem_cons_of_mem _ List.mem_cons_self
    · exact List.mem_cons_of_mem _ (List.mem_cons_of_mem _ hw)

/-- A catalogue that is not empty has a weakest entry: of smallest amplitude, and of those the last that joined (R109). -/
theorem weakest_cases {cat : List CatEntry} (h : cat ≠ []) :
    ∃ w ∈ cat, weakest cat = some w ∧ ∀ k ∈ cat, w.evictedBefore k := by
  obtain ⟨e, rest, rfl⟩ := List.exists_cons_of_ne_nil h
  obtain ⟨hmem, hall⟩ := foldl_weaker rest e
  exact ⟨_, hmem, rfl, hall⟩

/-- Join numbers tell the entries of a legal catalogue apart (R108). -/
theorem Tube.catalogueLegal.eq_of_join {t : Tube} (h : t.catalogueLegal) {a b : CatEntry} (ha : a ∈ t.catalogue)
    (hb : b ∈ t.catalogue) (hj : a.join = b.join) : a = b := by
  have ⟨_, _, hnodup, _⟩ := h
  exact List.inj_on_of_nodup_map hnodup ha hb hj

/-- Of a legal catalogue the entry evicted first is one alone (R109). -/
theorem Tube.catalogueLegal.weakest_eq {t : Tube} (h : t.catalogueLegal) {w : CatEntry} (hw : w ∈ t.catalogue)
    (hall : ∀ k ∈ t.catalogue, w.evictedBefore k) : weakest t.catalogue = some w := by
  obtain ⟨v, hv, hweakest, hvall⟩ := weakest_cases (List.ne_nil_of_mem hw)
  have hwv := hall v hv
  have hvw := hvall w hw
  unfold CatEntry.evictedBefore at hwv hvw
  rw [hweakest, h.eq_of_join hv hw (by omega)]

/-- The entry evicted leaves, and no other (R109). -/
theorem Tube.catalogueLegal.filter_join {t : Tube} (h : t.catalogueLegal) {w : CatEntry} (hw : w ∈ t.catalogue) :
    (t.catalogue.filter fun k => k.join != w.join) = t.catalogue.erase w := by
  have ⟨_, _, hnodup, _⟩ := h
  rw [(List.Nodup.of_map _ hnodup).erase_eq_filter]
  refine List.filter_congr fun k hk => ?_
  rw [Bool.eq_iff_iff, bne_iff_ne, bne_iff_ne]
  exact not_congr ⟨fun hj => h.eq_of_join hk hw hj, fun he => he ▸ rfl⟩

/-- A catalogue without one of its entries is legal. -/
theorem Tube.catalogueLegal.erase {t : Tube} (h : t.catalogueLegal) (w : CatEntry) :
    ({ t with catalogue := t.catalogue.erase w } : Tube).catalogueLegal := by
  obtain ⟨hlen, hpairwise, hnodup, hgiven⟩ := h
  have hsub := List.erase_sublist (a := w) (l := t.catalogue)
  exact ⟨hsub.length_le.trans hlen, hpairwise.sublist hsub, hnodup.sublist (hsub.map _), fun k hk => hgiven k (hsub.subset hk)⟩

/-- With room an entry is inserted (R107). -/
theorem Tube.join_room {t : Tube} (e : CatEntry) (h : t.catalogue.length < 64) : t.join e = t.insert e := if_pos h

/-- An entry no stronger than any of a full catalogue is dropped (R109). -/
theorem Tube.join_dropped {t : Tube} {e : CatEntry} (hfull : t.catalogue.length = 64)
    (h : ∀ k ∈ t.catalogue, e.amplitude ≤ k.amplitude) : t.join e = t.overflow := by
  obtain ⟨w, hw, hweakest, -⟩ := weakest_cases (List.ne_nil_of_length_pos (by omega : 0 < t.catalogue.length))
  rw [Tube.join, if_neg (by rw [hfull]; decide), hweakest]
  exact if_neg (Nat.not_lt.2 (h w hw))

/-- A stronger entry evicts the weakest of a full catalogue (R109). -/
theorem Tube.join_evicts {t : Tube} {e w : CatEntry} (hlegal : t.catalogueLegal) (hfull : t.catalogue.length = 64)
    (hw : w ∈ t.catalogue) (hweak : w.amplitude < e.amplitude) (hall : ∀ k ∈ t.catalogue, w.evictedBefore k) :
    t.join e = (({ t with catalogue := t.catalogue.erase w } : Tube).insert e).overflow := by
  rw [Tube.join, if_neg (by rw [hfull]; decide), hlegal.weakest_eq hw hall, ← hlegal.filter_join hw]
  exact if_pos hweak

/-- An entry that meets a full catalogue is counted and flagged, whether it evicts or is dropped (R110). -/
theorem Tube.join_full {t : Tube} (e : CatEntry) (hfull : t.catalogue.length = 64) :
    (t.join e).catOverflow = (if t.catOverflow < 65535 then t.catOverflow + 1 else t.catOverflow) ∧
    (t.join e).flags = { t.flags with catOverflow := true } := by
  obtain ⟨w, hw, hweakest, -⟩ := weakest_cases (List.ne_nil_of_length_pos (by omega : 0 < t.catalogue.length))
  rw [Tube.join, if_neg (by rw [hfull]; decide), hweakest]
  dsimp only
  split <;> exact ⟨rfl, rfl⟩

/-! ### The phase curve (R83) -/

/-- On a curve of falling phases the first point has the greatest phase and the last point the least. -/
theorem curve_ends {curve : List CurvePoint} {p1 pn p : CurvePoint} (hfall : curve.Pairwise fun a b => b.phase < a.phase)
    (hhead : curve.head? = some p1) (hlast : curve.getLast? = some pn) (hp : p ∈ curve) :
    pn.phase ≤ p.phase ∧ p.phase ≤ p1.phase := by
  constructor
  · obtain ⟨front, rfl⟩ := List.getLast?_eq_some_iff.1 hlast
    obtain hf | hl := List.mem_append.1 hp
    · exact ((List.pairwise_append.1 hfall).2.2 p hf pn (List.mem_singleton_self pn)).le
    · rw [List.mem_singleton.1 hl]
  · obtain ⟨rest, rfl⟩ := List.head?_eq_some_iff.1 hhead
    obtain rfl | hr := List.mem_cons.1 hp
    · exact le_rfl
    · exact (List.rel_of_pairwise_cons hfall hr).le

/-- The rows of R83's table, from the top. -/
theorem depthOf_eq {curve : List CurvePoint} {p1 pn : CurvePoint} (hhead : curve.head? = some p1) (hlast : curve.getLast? = some pn)
    (phi : Nat) :
    depthOf curve phi =
      if 1800 < phi then (none, false, false, true)
      else if p1.phase < phi then (some p1.depth, true, false, false)
      else if phi < pn.phase then (some pn.depth, false, true, false)
      else (interpolate phi curve, false, false, false) := by
  obtain ⟨rest, rfl⟩ := List.head?_eq_some_iff.1 hhead
  simp only [depthOf, hlast]

/-- The depth at a point of the curve is the point's (R83). -/
theorem interpolate_point {curve : List CurvePoint} {p : CurvePoint} (hfall : curve.Pairwise fun a b => b.phase < a.phase)
    (hp : p ∈ curve) : interpolate p.phase curve = some p.depth := by
  induction curve with
  | nil => cases hp
  | cons a rest ih =>
    obtain rfl | hr := List.mem_cons.1 hp
    · cases rest with
      | nil => rw [interpolate, if_pos rfl]
      | cons b rest => rw [interpolate, if_pos rfl]
    · have hap := List.rel_of_pairwise_cons hfall hr
      cases rest with
      | nil => cases hr
      | cons b rest =>
        have hpb : p.phase ≤ b.phase := by
          obtain rfl | hr' := List.mem_cons.1 hr
          · exact le_rfl
          · exact (List.rel_of_pairwise_cons hfall.of_cons hr').le
        rw [interpolate, if_neg (by omega), if_neg (by omega)]
        exact ih hfall.of_cons hr

/-- Between two neighbouring points the depth is interpolated and rounded halves up (R83). -/
theorem interpolate_between {curve : List CurvePoint} {i phi : Nat} {p q : CurvePoint}
    (hfall : curve.Pairwise fun a b => b.phase < a.phase) (hp : curve[i]? = some p) (hq : curve[i + 1]? = some q) (hlo : q.phase < phi)
    (hhi : phi < p.phase) :
    interpolate phi curve =
      some (roundHalfUp (p.depth * (p.phase - q.phase) + (q.depth - p.depth) * (p.phase - phi)) (p.phase - q.phase)) := by
  induction curve generalizing i with
  | nil => cases hp
  | cons a rest ih =>
    cases i with
    | zero =>
      obtain rfl := Option.some.inj hp
      obtain ⟨tail, rfl⟩ := List.head?_eq_some_iff.1 (List.head?_eq_getElem? ▸ hq)
      rw [interpolate, if_neg (by omega), if_pos ⟨hlo, hhi⟩]
    | succ i =>
      have hpr : rest[i]? = some p := hp
      have hap := List.rel_of_pairwise_cons hfall (List.mem_of_getElem? hpr)
      cases rest with
      | nil => cases hpr
      | cons b rest =>
        have hpb : p.phase ≤ b.phase := by
          obtain rfl | hr := List.mem_cons.1 (List.mem_of_getElem? hpr)
          · exact le_rfl
          · exact (List.rel_of_pairwise_cons hfall.of_cons hr).le
        rw [interpolate, if_neg (by omega), if_neg (by omega)]
        exact ih hfall.of_cons hpr hq

/-- The rounded quotient is the nearest number, halves up (R83). -/
theorem roundHalfUp_nearest (n : Nat) {d : Nat} (hd : 0 < d) :
    2 * d * roundHalfUp n d ≤ 2 * n + d ∧ 2 * n + d < 2 * d * (roundHalfUp n d + 1) :=
  ⟨Nat.mul_div_le _ _, Nat.lt_mul_div_succ _ (Nat.mul_pos Nat.two_pos hd)⟩

/-- Each row of R83's table. -/
theorem depthOf_rows {curve : List CurvePoint} {p1 pn : CurvePoint} (phi : Nat) (hhead : curve.head? = some p1)
    (hlast : curve.getLast? = some pn) (hfall : curve.Pairwise fun a b => b.phase < a.phase) :
    (1800 < phi → depthOf curve phi = (none, false, false, true)) ∧
    (phi ≤ 1800 → p1.phase < phi → depthOf curve phi = (some p1.depth, true, false, false)) ∧
    (phi ≤ 1800 → phi < pn.phase → depthOf curve phi = (some pn.depth, false, true, false)) ∧
    (phi ≤ 1800 → (∃ p ∈ curve, p.phase ≤ phi) → (∃ p ∈ curve, phi ≤ p.phase) →
      depthOf curve phi = (interpolate phi curve, false, false, false)) := by
  rw [depthOf_eq hhead hlast]
  have hends := fun {p} => curve_ends (p := p) hfall hhead hlast
  have hp1 := (hends (List.mem_of_mem_head? hhead)).1
  refine ⟨fun h => if_pos h, fun h h1 => ?_, fun h hn => ?_, fun h ⟨p, hp, hple⟩ ⟨q, hq, hqle⟩ => ?_⟩
  · rw [if_neg (by omega), if_pos h1]
  · rw [if_neg (by omega), if_neg (by omega), if_pos hn]
  · have := (hends hp).1
    have := (hends hq).2
    rw [if_neg (by omega), if_neg (by omega), if_neg (by omega)]

/-! ### A completed MEASURE job (R78, R80, R113, R148) -/

/-- What a FINISH that waits comes to, as one change of the tube's record (R148, R113). -/
theorem State.finishWait_eq (s : State) (l : LaneId) :
    s.finishWait l = s.upd l fun x => x.updTube fun u =>
      if (s.lane l).ctl.state = .finish ∧ u.located = false ∧ s.hasJob l Job.isMeasure = false then
        u.locate (s.lane l).detector.landmarks
      else u := by
  have hsame : ∀ f : Tube → Tube, (∀ u, (s.lane l).ctl.tube = some u → f u = u) →
      s = s.upd l fun x => x.updTube f := fun f hf => by
    have hlane : (s.lane l).updTube f = s.lane l := by
      cases htube : (s.lane l).ctl.tube with
      | none => exact Lane.updTube_none htube f
      | some u => rw [Lane.updTube_some htube, hf u htube, ← htube]
    rw [State.upd_eq_setLane, hlane, State.setLane_lane]
  unfold State.finishWait
  dsimp only
  split
  · rename_i u hst htube
    split
    · rename_i hwait
      refine hsame _ fun v hv => if_neg ?_
      rw [htube] at hv
      cases hv
      rintro ⟨_, hl, hj⟩
      rw [hl, hj] at hwait
      cases hwait
    · rename_i hwait
      obtain ⟨hl, hj⟩ := Bool.or_eq_false_iff.1 (Bool.eq_false_iff.2 hwait)
      rw [State.upd_eq_setLane, State.upd_eq_setLane, Lane.updTube_some htube, Lane.updTube_some htube, if_pos ⟨hst, hl, hj⟩]
  · rename_i hnot
    exact hsame _ fun v hv => if_neg fun h => hnot v h.1 hv

/-- The job that the freed engine takes still counts as its lane's (R78, R148). -/
theorem State.engineChoose_hasJob (s : State) (l : LaneId) (p : Job → Bool) : s.engineChoose.hasJob l p = (s.lane l).jobs.any p := by
  have take : ∀ (t : State) (k : LaneId), (t.lane k).jobs ≠ [] →
      (t.engineTake k).hasJob l p = (t.lane l).jobs.any p := fun t k hk => by
    obtain ⟨hnil, _⟩ | ⟨j, rest, hjobs, htake⟩ := t.engineTake_cases k
    · exact absurd hnil hk
    have hl := t.lane_setLane k { t.lane k with jobs := rest }
    have hother := t.lane_setLane_other k { t.lane k with jobs := rest }
    rw [htake]
    generalize t.setLane k { t.lane k with jobs := rest } = q at *
    show ((q.lane l).jobs.any p || (decide (k = l) && !false && p j)) = _
    obtain rfl | rfl := eq_or_eq_otherLane k l
    · rw [hl, hjobs, List.any_cons, Bool.or_comm]
      simp
    · rw [hother]
      simp [(otherLane_ne k).symm]
  have freed := take { s with engine := { s.engine with busy := none } }
  unfold State.engineChoose
  dsimp only
  split
  · exact Bool.or_false _
  next ha _ => exact freed .a (List.isEmpty_eq_false_iff.1 ha)
  next _ hb => exact freed .b (List.isEmpty_eq_false_iff.1 hb)
  next ha hb =>
    refine freed _ ?_
    cases s.engine.servedLast
    · exact List.isEmpty_eq_false_iff.1 hb
    · exact List.isEmpty_eq_false_iff.1 ha

theorem State.engineChoose_pending (s : State) : s.engineChoose.pending = s.pending := by
  unfold State.engineChoose
  dsimp only
  split
  · rfl
  all_goals exact (State.engineTake_keeps _ _).pending

/-- The tube's record once a MEASURE job of its lane is delivered or discarded: the entry joins, if it does (R80, R105). -/
def Lane.measured (x : Lane) (discarded : Bool) (ind : Indication) (u : Tube) : Tube :=
  if discarded then u else u.join (entryOf x.pitch ind (some (measure (x.facets ind.channel).curve ind.values)))

/-- The tube's record after the completion: in FINISH, with no MEASURE job of the lane left, its entries are located (R148, R113). -/
def Lane.concluded (x : Lane) (discarded : Bool) (ind : Indication) (u : Tube) : Tube :=
  if x.ctl.state = .finish ∧ u.located = false ∧ x.jobs.any Job.isMeasure = false then
    (x.measured discarded ind u).locate x.detector.landmarks
  else x.measured discarded ind u

theorem Lane.measured_located (x : Lane) (discarded : Bool) (ind : Indication) (u : Tube) :
    (x.measured discarded ind u).located = u.located := by
  unfold Lane.measured
  split
  · rfl
  · exact u.join_located _

/-- The entry joins, then FINISH's wait may end. -/
theorem Lane.updTube_concluded (x : Lane) (discarded : Bool) (ind : Indication) :
    x.updTube (x.concluded discarded ind) = (x.updTube (x.measured discarded ind)).updTube fun u =>
      if x.ctl.state = .finish ∧ u.located = false ∧ x.jobs.any Job.isMeasure = false then u.locate x.detector.landmarks else u := by
  simp only [Lane.updTube, Option.map_map, Function.comp_def, Lane.measured_located]
  rfl

/-- The state in which the engine's MEASURE job `e` is delivered, or discarded (R80, R81). -/
def State.measured (s : State) (e : EngineJob) (ind : Indication) : State :=
  (s.reach e.doneAt).upd e.lane fun x => x.updTube ((s.lane e.lane).measured e.discarded ind)

theorem State.measured_frame (s : State) (e : EngineJob) (ind : Indication) :
    (s.measured e ind).pool = s.pool ∧ (s.measured e ind).link = s.link ∧ (s.measured e ind).layouts = s.layouts ∧
      (s.measured e ind).clock = max s.clock e.doneAt ∧ (s.measured e ind).pending = s.pending := by
  simp [State.measured]

theorem State.measured_lane (s : State) (e : EngineJob) (ind : Indication) :
    (s.measured e ind).lane e.lane = (s.lane e.lane).updTube ((s.lane e.lane).measured e.discarded ind) := by
  rw [State.measured, State.lane_upd, State.reach_lane]

theorem State.measured_other (s : State) (e : EngineJob) (ind : Indication) :
    (s.measured e ind).lane (otherLane e.lane) = s.lane (otherLane e.lane) := by
  rw [State.measured, State.lane_upd_other, State.reach_lane]

theorem State.measured_jobs (s : State) (e : EngineJob) (ind : Indication) (l : LaneId) :
    ((s.measured e ind).lane l).jobs = (s.lane l).jobs := by
  obtain rfl | rfl := eq_or_eq_otherLane e.lane l
  · rw [State.measured_lane]
    rfl
  · rw [State.measured_other]

theorem State.finishWait_jobs (s : State) (l k : LaneId) : ((s.finishWait l).lane k).jobs = (s.lane k).jobs := by
  rw [State.finishWait_eq]
  obtain rfl | rfl := eq_or_eq_otherLane l k
  · rw [State.lane_upd]
    rfl
  · rw [State.lane_upd_other]

/-- A MEASURE job is delivered or discarded, the engine chooses, and FINISH's wait may end (R78, R80, R148). -/
theorem exec_jobCompletion_eq {s : State} {e : EngineJob} {tag : Nat} {ind : Indication} (hbusy : s.engine.busy = some e)
    (hjob : e.job = .measure tag ind) :
    exec .jobCompletion s = .next ((s.measured e ind).engineChoose.finishWait e.lane) := by
  have hdelivered : (if e.discarded then s.reach e.doneAt else (s.reach e.doneAt).deliver e.lane e.job) = s.measured e ind := by
    unfold State.measured Lane.measured
    cases e.discarded with
    | true =>
      have hid : ((s.reach e.doneAt).lane e.lane).updTube (fun u => u) = (s.reach e.doneAt).lane e.lane := by
        rw [Lane.updTube, Option.map_id']
      simp only [if_true]
      rw [State.upd_eq_setLane, hid, State.setLane_lane]
    | false =>
      rw [hjob, ← State.reach_lane s e.doneAt]
      rfl
  rw [exec_jobCompletion, ← hdelivered]
  simp only [execJobCompletion, hbusy]

/-- After the completion of a MEASURE job the tube's record is concluded and the engine has taken the next job (R78, R80, R148). -/
theorem exec_jobCompletion_measure {s : State} {e : EngineJob} {tag : Nat} {ind : Indication} (hbusy : s.engine.busy = some e)
    (hjob : e.job = .measure tag ind) :
    ∃ t : State, exec .jobCompletion s = .next t ∧ t.clock = max s.clock e.doneAt ∧ t.pool = s.pool ∧ t.link = s.link ∧
      t.layouts = s.layouts ∧ t.pending = s.pending ∧ s.tookNext t ∧
      t.lane (otherLane e.lane) = { s.lane (otherLane e.lane) with jobs := (t.lane (otherLane e.lane)).jobs } ∧
      t.lane e.lane =
        { (s.lane e.lane).updTube ((s.lane e.lane).concluded e.discarded ind) with jobs := (t.lane e.lane).jobs } := by
  obtain ⟨hpool, hlink, hlayouts, hclock, hlanes⟩ := (s.measured e ind).engineChoose_frame
  have hpending := (s.measured e ind).engineChoose_pending
  have hhas := (s.measured e ind).engineChoose_hasJob e.lane Job.isMeasure
  have htook := (s.measured e ind).engineChoose_tookNext
  have hserved : s.engine.servedLast = (s.measured e ind).engine.servedLast := by simp [State.measured]
  have hl := hlanes e.lane
  have hother := hlanes (otherLane e.lane)
  rw [State.measured_lane] at hl
  rw [State.measured_other] at hother
  rw [State.measured_jobs] at hhas
  obtain ⟨hfpool, hflink, hflayouts, hfclock, hfpending⟩ := s.measured_frame e ind
  rw [hfpool] at hpool
  rw [hflink] at hlink
  rw [hflayouts] at hlayouts
  rw [hfclock] at hclock
  rw [hfpending] at hpending
  refine ⟨_, exec_jobCompletion_eq hbusy hjob, ?_⟩
  generalize (s.measured e ind).engineChoose = w at *
  have hkeeps := w.finishWait_keeps e.lane
  have hwait := w.finishWait_eq e.lane
  refine ⟨hkeeps.clock.trans hclock, ?_, ?_, hkeeps.layouts.trans hlayouts, hkeeps.pending.trans hpending, ?_, ?_, ?_⟩
  · rw [hwait, State.upd_pool, hpool]
  · rw [hwait, State.upd_link, hlink]
  · exact State.tookNext_congr (fun l => (s.measured_jobs e ind l).symm) hserved (w.finishWait_jobs e.lane)
      (by rw [hwait, State.upd_engine]) hkeeps.clock htook
  · rw [State.finishWait_jobs, hkeeps.other]
    exact hother
  · rw [State.finishWait_jobs, Lane.updTube_concluded, hwait, State.lane_upd, hhas]
    generalize (w.lane e.lane).jobs = jobs at hl ⊢
    rw [hl]
    rfl

/-- The measurement of a span and the entry formed from it, in the words of R80, R82, R83 and R104. -/
theorem entryOf_measured (pitch : Nat) (curve : List CurvePoint) (ind : Indication) :
    ∃ (vpp : Nat) (phase depth : Option Nat) (low high outside : Bool),
      (ind.values.length < 2 → vpp = 0 ∧ phase = none) ∧
      (∀ k : Chord, maxChord ind.values = some k → vpp = vppOf k.d ∧ phase = angleTenths k.c) ∧
      (phase = none → depth = none ∧ low = false ∧ high = false ∧ outside = false) ∧
      (∀ phi, phase = some phi → (depth, low, high, outside) = depthOf curve phi) ∧
      entryOf pitch ind (some (measure curve ind.values)) =
        { channel := ind.channel, first := ind.first, last := ind.last, centre := ind.peak,
          corrected := max (-2147483648) (min 2147483647 (ind.peak * (pitch : Int) + ind.correction)),
          flags :=
            { long := ind.long, truncated := ind.truncated, unmeasured := false, ovr := ind.ovr, rep := ind.rep,
              clampedLow := low, clampedHigh := high, outside := outside },
          vpp := some vpp, phase := phase, depth := depth, location := none, join := 0 } := by
  refine ⟨(measure curve ind.values).vpp, (measure curve ind.values).phase, (measure curve ind.values).depth,
    (measure curve ind.values).low, (measure curve ind.values).high, (measure curve ind.values).outside, ?_, ?_, ?_, ?_, rfl⟩
  · intro hshort
    rw [measure, (maxChord_firstLongest ind.values).1 hshort]
    exact ⟨rfl, rfl⟩
  · intro k hk
    unfold measure
    rw [hk]
    dsimp only
    cases angleTenths k.c <;> exact ⟨rfl, rfl⟩
  · unfold measure
    split
    · exact fun _ => ⟨rfl, rfl, rfl, rfl⟩
    · dsimp only
      split
      · exact fun _ => ⟨rfl, rfl, rfl, rfl⟩
      · nofun
  · intro phi
    unfold measure
    split
    · nofun
    · dsimp only
      split
      · nofun
      · rintro ⟨⟩
        rfl

/-- Settles O55: `exec_jobCompletion_measure` for the completion, `entryOf_measured` for the entry, `depthOf_rows` for the curve, and the
laws of insertion and eviction for the catalogue. -/
theorem measurementsJoinTheCatalogue : Obligations.MeasurementsJoinTheCatalogue := by
  refine ⟨fun s e tag ind hbusy hjob => ?_, fun _ => rfl, fun curve p1 pn phi hhead hlast hfall => ?_, fun u e hroom => ?_,
    fun u e hlegal hfull => ?_⟩
  · obtain ⟨t, hexec, hclock, hpool, hlink, hlayouts, hpending, htook, hother, hlane⟩ := exec_jobCompletion_measure hbusy hjob
    have htube : (t.lane e.lane).ctl.tube = (s.lane e.lane).ctl.tube.map ((s.lane e.lane).concluded e.discarded ind) :=
      congrArg (fun x : Lane => x.ctl.tube) hlane
    refine ⟨t, hexec, hclock, hpool, hlink, hlayouts, hpending, htook, hother, by rw [htube]; exact hlane, fun hnone => ?_,
      fun u hu => ?_⟩
    · rw [htube, hnone, Option.map_none]
    · rw [hu, Option.map_some] at htube
      refine ⟨(s.lane e.lane).measured e.discarded ind u, fun hd => ?_, fun hd => ?_, htube⟩
      · rw [Lane.measured, hd]
        rfl
      · obtain ⟨vpp, phase, depth, low, high, outside, hshort, hchord, hnone, hphase, hentry⟩ :=
          entryOf_measured (s.lane e.lane).pitch ((s.lane e.lane).facets ind.channel).curve ind
        refine ⟨vpp, phase, depth, low, high, outside, hshort, hchord, hnone, hphase, ?_⟩
        rw [Lane.measured, hd, hentry]
        rfl
  · obtain ⟨habove, hfirst, hlow, hwithin⟩ := depthOf_rows phi hhead hlast hfall
    refine ⟨habove, hfirst, hlow, fun h p hp hphi => ?_, fun h i p q hp hq hlo hhi _ => ?_⟩
    · rw [hwithin h ⟨p, hp, hphi.le⟩ ⟨p, hp, hphi.ge⟩, ← hphi, interpolate_point hfall hp]
    · have hd : 0 < p.phase - q.phase := by omega
      rw [hwithin h ⟨q, List.mem_of_getElem? hq, hlo.le⟩ ⟨p, List.mem_of_getElem? hp, hhi.le⟩,
          interpolate_between hfall hp hq hlo hhi]
      exact ⟨_, rfl, roundHalfUp_nearest _ hd⟩
  · obtain ⟨front, back, hcat, hins, hfront, hback⟩ := insertEntry_split { e with join := u.joins + 1 } u.catalogue
    refine ⟨front, back, hcat, ?_, hfront, fun k hk => (CatEntry.before_iff _ k).1 (hback k hk)⟩
    rw [Tube.join_room e hroom, Tube.insert, hins]
  · obtain ⟨hcount, hflags⟩ := Tube.join_full e hfull
    refine ⟨hcount, hflags, fun hweak => ?_, fun w hw hweak hall => ?_⟩
    · rw [Tube.join_dropped hfull hweak]
      exact ⟨rfl, rfl⟩
    · have hroom : (u.catalogue.erase w).length < 64 := by
        rw [List.length_erase_of_mem hw]
        omega
      rw [Tube.join_evicts hlegal hfull hw hweak hall]
      exact ⟨rfl, Tube.insert_legal e (hlegal.erase w) hroom, insertEntry_perm _ _, sublist_insertEntry _ _⟩

end Sys2Proof.Machine

/-! The landmark detector (chapter 5): what matching makes of the expected list, and that every step keeps its pointer between the decided
and the PENDING entries. -/

namespace Sys2Proof.Machine

/-! ### Entries decided MISSED (R96, R97) -/

@[simp] theorem length_missRange (a b : Nat) (entries : List LandmarkEntry) : (missRange a b entries).length = entries.length :=
  List.length_mapIdx

theorem getElem?_missRange (a b : Nat) (entries : List LandmarkEntry) (i : Nat) :
    (missRange a b entries)[i]? = entries[i]?.map fun e => if a ≤ i ∧ i < b then e.miss else e := List.getElem?_mapIdx

/-- The pointer moves on to a place; the entries that it passes are MISSED (R96, R97). -/
def Detector.pass (d : Detector) (n : Nat) : Detector := { d with expected := missRange d.pointer n d.expected, pointer := n }

@[simp] theorem Detector.length_pass (d : Detector) (n : Nat) : (d.pass n).expected.length = d.expected.length :=
  length_missRange _ _ _

/-- A passed entry is MISSED. -/
theorem Detector.getElem?_pass_inside {d : Detector} {n i : Nat} (hp : d.pointer ≤ i) (hi : i < n) :
    (d.pass n).expected[i]? = d.expected[i]?.map LandmarkEntry.miss := by
  rw [Detector.pass, getElem?_missRange]
  simp only [if_pos (And.intro hp hi)]

/-- The other entries are as they were. -/
theorem Detector.getElem?_pass_outside {d : Detector} {n i : Nat} (h : i < d.pointer ∨ n ≤ i) :
    (d.pass n).expected[i]? = d.expected[i]? := by
  have hout : ¬(d.pointer ≤ i ∧ i < n) := by omega
  rw [Detector.pass, getElem?_missRange]
  simp only [if_neg hout, Option.map_id']

/-! ### Where a candidate stops (R96, step 1) -/

theorem passedCount_le (tolerance : Nat) (x : Int) (entries : List LandmarkEntry) : passedCount tolerance x entries ≤ entries.length := by
  induction entries with
  | nil => exact Nat.zero_le _
  | cons e rest ih =>
    unfold passedCount
    split
    · exact Nat.succ_le_succ ih
    · exact Nat.zero_le _

/-- A passed entry lies above the candidate by more than the tolerance. -/
theorem passedCount_passed {tolerance : Nat} {x : Int} {entries : List LandmarkEntry} {i : Nat} {e : LandmarkEntry}
    (hi : i < passedCount tolerance x entries) (he : entries[i]? = some e) : x < e.place - (tolerance : Int) := by
  induction entries generalizing i with
  | nil => cases he
  | cons k rest ih =>
    unfold passedCount at hi
    split at hi
    · rename_i hk
      cases i with
      | zero => cases he; exact hk
      | succ i => exact ih (Nat.lt_of_succ_lt_succ hi) he
    · cases hi

/-- The entry at which the candidate stops does not. -/
theorem passedCount_stops {tolerance : Nat} {x : Int} {entries : List LandmarkEntry} {e : LandmarkEntry}
    (he : entries[passedCount tolerance x entries]? = some e) : e.place - (tolerance : Int) ≤ x := by
  induction entries with
  | nil => cases he
  | cons k rest ih =>
    unfold passedCount at he
    split at he
    · exact ih he
    · rename_i hk
      cases he
      exact Int.not_lt.1 hk

/-- The place of the entry at which a candidate of corrected position `x` stops. -/
def Detector.stop (d : Detector) (tolerance : Nat) (x : Int) : Nat := d.pointer + passedCount tolerance x (d.expected.drop d.pointer)

theorem Detector.pointer_le_stop (d : Detector) (tolerance : Nat) (x : Int) : d.pointer ≤ d.stop tolerance x := Nat.le_add_right _ _

theorem Detector.stop_le_length {d : Detector} {tolerance : Nat} {x : Int} (h : d.pointer < d.stop tolerance x) :
    d.stop tolerance x ≤ d.expected.length := by
  have hle := passedCount_le tolerance x (d.expected.drop d.pointer)
  rw [List.length_drop] at hle
  unfold Detector.stop at h ⊢
  omega

theorem Detector.stop_passed {d : Detector} {tolerance : Nat} {x : Int} {i : Nat} {e : LandmarkEntry} (hp : d.pointer ≤ i)
    (hi : i < d.stop tolerance x) (he : d.expected[i]? = some e) : x < e.place - (tolerance : Int) := by
  refine passedCount_passed (entries := d.expected.drop d.pointer) (i := i - d.pointer) ?_ ?_
  · unfold Detector.stop at hi
    omega
  · rwa [List.getElem?_drop, Nat.add_sub_cancel' hp]

theorem Detector.stop_stops {d : Detector} {tolerance : Nat} {x : Int} {e : LandmarkEntry}
    (he : d.expected[d.stop tolerance x]? = some e) : e.place - (tolerance : Int) ≤ x :=
  passedCount_stops (entries := d.expected.drop d.pointer) (by rwa [List.getElem?_drop])

/-! ### Matching (R96) -/

theorem LandmarkEntry.accepts_iff (e : LandmarkEntry) (kind : CandidateKind) :
    e.accepts kind = true ↔ kind = .support ∧ e.kind = .support ∨ kind = .sheet ∧ (e.kind = .tsf ∨ e.kind = .tsn) := by
  unfold LandmarkEntry.accepts
  cases kind <;> cases e.kind <;> decide

/-- The entry is of the candidate's kind and within the tolerance of its corrected position (R96, step 2). -/
abbrev LandmarkEntry.fits (e : LandmarkEntry) (tolerance : Nat) (kind : CandidateKind) (x : Int) : Prop :=
  e.accepts kind = true ∧ (x - e.place).natAbs ≤ tolerance

/-- The entry at the pointer is MATCHED by a candidate of raw position `p` and corrected position `x`, and the pointer passes it (R96,
R99). -/
def Detector.matched (d : Detector) (e : LandmarkEntry) (x p : Int) : Detector :=
  { d with
    expected := d.expected.set d.pointer { e with state := .matched, found := some x, raw := some p },
    pointer := d.pointer + 1, correction := e.place - p }

/-- What matching comes to: the entries up to where the candidate stops are MISSED; it is matched there, or UNEXPECTED (R96). -/
theorem Detector.matchCandidate_cases (d : Detector) (tolerance : Nat) (kind : CandidateKind) {p x : Int} (hx : x = p + d.correction) :
    (∃ e, d.expected[d.stop tolerance x]? = some e ∧ e.fits tolerance kind x ∧
      d.matchCandidate tolerance kind p =
        ((d.pass (d.stop tolerance x)).matched e x p, decide (d.pointer < d.stop tolerance x), false)) ∨
    ((∀ e, d.expected[d.stop tolerance x]? = some e → ¬e.fits tolerance kind x) ∧
      d.matchCandidate tolerance kind p =
        ((d.pass (d.stop tolerance x)).addUnexpected kind x p, decide (d.pointer < d.stop tolerance x), true)) := by
  have hmissed : decide (0 < passedCount tolerance x (d.expected.drop d.pointer)) = decide (d.pointer < d.stop tolerance x) :=
    decide_eq_decide.2 Nat.lt_add_right_iff_pos.symm
  have hat : (d.pass (d.stop tolerance x)).expected[d.stop tolerance x]? = d.expected[d.stop tolerance x]? :=
    Detector.getElem?_pass_outside (.inr (Nat.le_refl _))
  unfold Detector.matchCandidate
  dsimp only
  rw [← hx, hmissed]
  split
  · rename_i e he
    have hentry := hat.symm.trans he
    split
    · rename_i hfit
      exact .inl ⟨e, hentry, hfit, rfl⟩
    · rename_i hunfit
      exact .inr ⟨fun k hk => Option.some.inj (hentry.symm.trans hk) ▸ hunfit, rfl⟩
  · rename_i he
    exact .inr ⟨fun k hk => absurd (hk.symm.trans (hat.symm.trans he)) (Option.some_ne_none k), rfl⟩

/-! ### The pointer parts the decided entries from the PENDING ones (R95 to R98) -/

/-- Entries before the pointer are decided, the others PENDING; at most 16 candidates are listed UNEXPECTED (R95, R98). -/
structure Detector.Parted (d : Detector) : Prop where
  decided : ∀ i e, i < d.pointer → d.expected[i]? = some e → e.state = .matched ∨ e.state = .missed
  pending : ∀ i e, d.pointer ≤ i → d.expected[i]? = some e → e.state = .pending
  few : d.unexpected.length ≤ Config.unexpectedMax

theorem Lane.landmarksLegal_iff (x : Lane) : x.landmarksLegal ↔ x.detector.Parted := by
  constructor
  · rintro ⟨hdecided, hpending, hfew⟩
    refine ⟨fun i e hi he => hdecided e (List.mem_of_getElem? (i := i) ?_), fun i e hi he => hpending e ?_, hfew⟩
    · rw [List.getElem?_take_of_lt hi, he]
    · refine List.mem_of_getElem? (i := i - x.detector.pointer) ?_
      rw [List.getElem?_drop, Nat.add_sub_cancel' hi, he]
  · intro h
    refine ⟨fun e he => ?_, fun e he => ?_, h.few⟩
    · obtain ⟨i, hi⟩ := List.mem_iff_getElem?.1 he
      rw [List.getElem?_take] at hi
      split at hi
      · exact h.decided i e ‹_› hi
      · cases hi
    · obtain ⟨i, hi⟩ := List.mem_iff_getElem?.1 he
      rw [List.getElem?_drop] at hi
      exact h.pending _ e (Nat.le_add_right _ _) hi

namespace Detector.Parted

variable {d : Detector}

theorem of_lists {d' : Detector} (h : d.Parted) (he : d'.expected = d.expected) (hp : d'.pointer = d.pointer)
    (hu : d'.unexpected = d.unexpected) : d'.Parted where
  decided := by rw [he, hp]; exact h.decided
  pending := by rw [he, hp]; exact h.pending
  few := hu ▸ h.few

/-- A list that is PENDING throughout. -/
theorem of_pending (he : ∀ e ∈ d.expected, e.state = .pending) (hp : d.pointer = 0) (hu : d.unexpected = []) : d.Parted where
  decided i e hi := by omega
  pending i e _ hget := he e (List.mem_of_getElem? hget)
  few := by rw [hu]; exact Nat.zero_le _

theorem reset : Detector.reset.Parted := of_pending nofun rfl rfl

theorem pass (h : d.Parted) {n : Nat} (hn : d.pointer ≤ n) : (d.pass n).Parted where
  decided i e hi hget := by
    by_cases hp : d.pointer ≤ i
    · rw [Detector.getElem?_pass_inside (n := n) hp hi, Option.map_eq_some_iff] at hget
      obtain ⟨k, _, rfl⟩ := hget
      exact .inr rfl
    · rw [Detector.getElem?_pass_outside (.inl (Nat.lt_of_not_le hp))] at hget
      exact h.decided i e (Nat.lt_of_not_le hp) hget
  pending i e hi hget := by
    rw [Detector.getElem?_pass_outside (n := n) (.inr hi)] at hget
    exact h.pending i e (Nat.le_trans hn hi) hget
  few := h.few

theorem matched (h : d.Parted) (k : LandmarkEntry) (x p : Int) : (d.matched k x p).Parted where
  decided i e hi hget := by
    obtain rfl | hne := eq_or_ne d.pointer i
    · rw [Detector.matched, List.getElem?_set_self'] at hget
      obtain ⟨_, _, rfl⟩ := Option.map_eq_some_iff.1 hget
      exact .inl rfl
    · rw [Detector.matched, List.getElem?_set_ne hne] at hget
      exact h.decided i e (Nat.lt_of_le_of_ne (Nat.le_of_lt_succ hi) hne.symm) hget
  pending i e hi hget := by
    rw [Detector.matched, List.getElem?_set_ne (Nat.ne_of_lt hi)] at hget
    exact h.pending i e (Nat.le_of_succ_le hi) hget
  few := h.few

theorem addUnexpected (h : d.Parted) (kind : CandidateKind) (x p : Int) : (d.addUnexpected kind x p).Parted := by
  unfold Detector.addUnexpected
  split
  · rename_i hroom
    exact ⟨h.decided, h.pending, by rw [List.length_append]; exact hroom⟩
  · exact h.of_lists rfl rfl rfl

theorem matchCandidate (h : d.Parted) (tolerance : Nat) (kind : CandidateKind) (p : Int) :
    (d.matchCandidate tolerance kind p).1.Parted := by
  have passed := h.pass (d.pointer_le_stop tolerance (p + d.correction))
  obtain ⟨e, _, _, hm⟩ | ⟨_, hm⟩ := d.matchCandidate_cases tolerance kind rfl <;> rw [hm]
  · exact passed.matched e _ p
  · exact passed.addUnexpected kind _ p

end Detector.Parted

/-! ### The detector's operations (R90 to R97) -/

theorem supportEntries_expected (k : Nat) (centres : List Int) :
    ∀ e ∈ supportEntries k centres, ∃ kind ordinal nominal, e = expectedEntry kind ordinal nominal := by
  induction centres generalizing k with
  | nil => exact nofun
  | cons c rest ih =>
    intro e he
    obtain rfl | he := List.mem_cons.1 he
    · exact ⟨_, _, _, rfl⟩
    · exact ih _ e he

/-- The expected list is formed of new entries, which are PENDING (R95). -/
theorem expectedList_expected (y : Option Layout) (stopA stopB : Int) :
    ∀ e ∈ expectedList y stopA stopB, ∃ kind ordinal nominal, e = expectedEntry kind ordinal nominal := by
  cases y with
  | none => exact nofun
  | some y =>
    intro e he
    rw [expectedList] at he
    have hmem := List.mem_of_mem_filter he
    rw [Layout.landmarks, List.mem_cons, List.mem_append, List.mem_reverse, List.mem_singleton] at hmem
    obtain rfl | hmem | rfl := hmem
    · exact ⟨_, _, _, rfl⟩
    · exact supportEntries_expected _ _ e hmem
    · exact ⟨_, _, _, rfl⟩

theorem Lane.startPull_parted (x : Lane) (layout : Option Layout) : (x.startPull layout).detector.Parted := by
  refine .of_pending ?_ rfl rfl
  show ∀ e ∈ (match x.ctl.tube with
    | some t => expectedList layout t.stopA t.stopB
    | none => []), e.state = .pending
  split
  · intro e he
    obtain ⟨kind, ordinal, nominal, rfl⟩ := expectedList_expected _ _ _ e he
    rfl
  · exact nofun

theorem Lane.takeCandidate_parted {x : Lane} (h : x.detector.Parted) (c : Option Candidate) : (x.takeCandidate c).detector.Parted := by
  cases c with
  | none => exact h
  | some c => exact h.matchCandidate _ _ _

theorem Lane.landmarkLine_parted {x : Lane} (h : x.detector.Parted) (line : ChanLine) : (x.landmarkLine line).detector.Parted := by
  unfold Lane.landmarkLine
  dsimp only
  split
  · refine Lane.takeCandidate_parted ?_ _
    exact h.of_lists rfl rfl rfl
  · exact h.of_lists rfl rfl rfl

/-- Beyond the end of the list there is nothing to miss. -/
theorem missRange_of_length_le {a b : Nat} {entries : List LandmarkEntry} (h : entries.length ≤ b) :
    missRange a b entries = missRange a entries.length entries := by
  apply List.ext_getElem?
  intro i
  rw [getElem?_missRange, getElem?_missRange]
  cases he : entries[i]? with
  | none => rfl
  | some e =>
    have hi := (List.getElem?_eq_some_iff.1 he).1
    simp only [hi, Nat.lt_of_lt_of_le hi h]

/-- What is left is passed (R97). -/
theorem Lane.missRest_detector (x : Lane) :
    x.missRest.detector = x.detector.pass (max x.detector.pointer x.detector.expected.length) := by
  rw [Detector.pass, missRange_of_length_le (Nat.le_max_right _ _)]
  rfl

theorem Lane.missRest_parted {x : Lane} (h : x.detector.Parted) : x.missRest.detector.Parted := by
  rw [Lane.missRest_detector]
  exact h.pass (Nat.le_max_left _ _)

theorem Lane.landmarkEnd_parted {x : Lane} (h : x.detector.Parted) : x.landmarkEnd.detector.Parted := by
  refine Lane.missRest_parted (Lane.takeCandidate_parted ?_ _)
  exact h.of_lists rfl rfl rfl

/-! ### What leaves the detector alone -/

@[simp] theorem Lane.setBlock_detector (x : Lane) (kind : BlockKind) (b : Option Block) : (x.setBlock kind b).detector = x.detector := by
  cases kind <;> rfl

@[simp] theorem Lane.storeLine_detector (x : Lane) (c : CapLine) : (x.storeLine c).detector = x.detector := by
  unfold Lane.storeLine
  split <;> rfl

@[simp] theorem Lane.testStart_detector (x : Lane) (p : MotionPhase) : (x.testStart p).1.detector = x.detector := by
  unfold Lane.testStart
  split <;> rfl

@[simp] theorem Lane.motionStart_detector (x : Lane) (p : MotionPhase) : (x.motionStart p).1.detector = x.detector := by
  unfold Lane.motionStart
  split
  · rfl
  · split
    · rfl
    · exact Lane.testStart_detector _ p

@[simp] theorem Lane.retarget_detector (x : Lane) : x.retarget.1.detector = x.detector := by
  unfold Lane.retarget
  split
  · exact Lane.testStart_detector _ _
  · exact x.motionStart_detector _

@[simp] theorem Lane.updateRearm_detector (x : Lane) : x.updateRearm.detector = x.detector := by
  unfold Lane.updateRearm
  split
  · split <;> rfl
  · rfl

/-! ### Both lanes -/

/-- In both lanes the pointer parts the decided entries from the PENDING ones. -/
def State.Parted (s : State) : Prop := ∀ l, (s.lane l).detector.Parted

theorem State.landmarksLegal_iff (s : State) : s.landmarksLegal ↔ s.Parted := by
  rw [State.landmarksLegal, Lane.landmarksLegal_iff, Lane.landmarksLegal_iff]
  exact ⟨fun ⟨ha, hb⟩ l => by cases l <;> assumption, fun h => ⟨h .a, h .b⟩⟩

namespace State.Parted

variable {s t : State} {l : LaneId}

/-- Both lanes as they were. -/
theorem of_fields (h : s.Parted) (ha : t.laneA = s.laneA) (hb : t.laneB = s.laneB) : t.Parted := fun l => by
  rw [State.lane_congr ha hb]
  exact h l

theorem reports (h : s.Parted) (ht : s.Reports t) : t.Parted := h.of_fields ht.laneA ht.laneB

theorem emit (h : s.Parted) (l : LaneId) (kind : NoticeKind) (cause : Option FaultCause) : (s.emit l kind cause).Parted :=
  h.reports (s.emit_reports l kind cause)

theorem reach (h : s.Parted) (due : Nat) : (s.reach due).Parted := h.of_fields rfl rfl

/-- An operation that keeps to a lane. -/
theorem of_keeps (h : s.Parted) (hk : State.KeepsTo l s t) (hl : (t.lane l).detector.Parted) : t.Parted := fun k => by
  obtain rfl | rfl := eq_or_eq_otherLane l k
  · exact hl
  · rw [hk.other]
    exact h _

theorem setLane (h : s.Parted) (l : LaneId) {x : Lane} (hx : x.detector.Parted) : (s.setLane l x).Parted :=
  h.of_keeps (.setLane l s x) (by rwa [State.lane_setLane])

theorem upd (h : s.Parted) (l : LaneId) {f : Lane → Lane} (hf : (f (s.lane l)).detector.Parted) : (s.upd l f).Parted := h.setLane l hf

/-- A change of a lane that leaves its detector alone. -/
theorem frame (h : s.Parted) (l : LaneId) {f : Lane → Lane} (hf : (f (s.lane l)).detector = (s.lane l).detector) :
    (s.upd l f).Parted := h.upd l (hf ▸ h l)

/-- A list of operations that each keep it. -/
theorem foldl {α : Type} {f : State → α → State} (hf : ∀ {s : State} a, s.Parted → (f s a).Parted) (as : List α) (h : s.Parted) :
    (as.foldl f s).Parted := by
  induction as generalizing s with
  | nil => exact h
  | cons a as ih => exact ih (hf a h)

/-! ### Jobs, screening, the assemblers and line capture -/

theorem appendJob (h : s.Parted) (l : LaneId) (j : Job) : (s.appendJob l j).Parted := by
  obtain ⟨jobs, hl⟩ := s.appendJob_lane l j
  exact h.of_keeps (s.appendJob_keeps l j) (hl ▸ h l)

theorem closeSpan (h : s.Parted) (l : LaneId) (ch : Nat) (span : List SpanEntry) (long truncated : Bool) :
    (s.closeSpan l ch span long truncated).Parted := by
  obtain ⟨jobs, tube, hl⟩ := s.closeSpan_lane l ch span long truncated
  exact h.of_keeps (s.closeSpan_keeps l ch span long truncated) (hl ▸ h l)

theorem screenChannel (h : s.Parted) (line : ChanLine) (l : LaneId) (ch : Nat) : (s.screenChannel line l ch).Parted := by
  unfold State.screenChannel
  dsimp only
  split
  · split
    · exact (h.frame l rfl).closeSpan l _ _ _ _
    · exact h.frame l rfl
  · exact h

theorem screenLine (h : s.Parted) (l : LaneId) (line : ChanLine) : (s.screenLine l line).1.Parted :=
  (foldl (fun ch ht => ht.screenChannel line l ch) channelNumbers h).frame l rfl

theorem screenEnd (h : s.Parted) (l : LaneId) : (s.screenEnd l).Parted := by
  obtain ⟨screens, jobs, tube, hl, _⟩ := s.screenEnd_lane l
  exact h.of_keeps (s.screenEnd_keeps l) (hl ▸ h l)

theorem closeBlock (h : s.Parted) (l : LaneId) (kind : BlockKind) : (s.closeBlock l kind).Parted := by
  refine h.of_keeps (s.closeBlock_keeps l kind) ?_
  rw [s.closeBlock_lane l kind, Lane.setBlock_detector]
  exact h l

theorem openBlock (h : s.Parted) (l : LaneId) (kind : BlockKind) (line : RingLine) : (s.openBlock l kind line).Parted := by
  unfold State.openBlock
  split
  · exact (h.frame l (Lane.setBlock_detector _ _ _)).reports (State.takeBuffer_reports _)
  · exact h

theorem appendLine (h : s.Parted) (l : LaneId) (kind : BlockKind) (line : RingLine) : (s.appendLine l kind line).Parted := by
  unfold State.appendLine
  split
  · exact h.frame l rfl
  · dsimp only
    split
    · exact (h.frame l (Lane.setBlock_detector _ _ _)).closeBlock l kind
    · exact h.frame l (Lane.setBlock_detector _ _ _)

theorem placeLine (h : s.Parted) (l : LaneId) (kind : BlockKind) (line : RingLine) : (s.placeLine l kind line).Parted := by
  have closed : (if (s.lane l).correctionMoved kind line then s.closeBlock l kind else s).Parted := by
    split
    · exact h.closeBlock l kind
    · exact h
  have opened : ∀ {t : State}, t.Parted → (if ((t.lane l).block kind).isNone then t.openBlock l kind line else t).Parted :=
    fun {t} ht => by
      split
      · exact ht.openBlock l kind line
      · exact ht
  exact (opened closed).appendLine l kind line

theorem lineAssembler (h : s.Parted) (l : LaneId) (line : ChanLine) (m : RegionMarks) : (s.lineAssembler l line m).Parted := by
  unfold State.lineAssembler
  dsimp only
  split
  · exact h
  · exact h.placeLine l _ _

theorem regionAssembler (h : s.Parted) (l : LaneId) (line : ChanLine) (m : RegionMarks) : (s.regionAssembler l line m).Parted := by
  unfold State.regionAssembler
  dsimp only
  split
  · exact h
  · split
    · exact h.frame l rfl
    · have history : (if m.first then
            ((s.lane l).ring.map RingLine.asHistory).foldl (fun t k => t.placeLine l .region k)
              (s.upd l fun y => { y with ring := [] })
          else s).Parted := by
        split
        · exact foldl (fun k ht => ht.placeLine l .region k) _ (h.frame l rfl)
        · exact h
      have placed := history.placeLine l .region ((s.lane l).assemblyLine .region line m)
      split
      · exact placed.closeBlock l .region
      · exact placed

theorem assemblersEnd (h : s.Parted) (l : LaneId) : (s.assemblersEnd l).Parted :=
  ((h.closeBlock l .full).closeBlock l .region).frame l rfl

theorem giveUpBlock (h : s.Parted) (l : LaneId) (kind : BlockKind) : (s.giveUpBlock l kind).Parted := by
  unfold State.giveUpBlock
  split
  · exact (h.frame l (Lane.setBlock_detector _ _ _)).reports (State.returnBuffer_reports _)
  · exact h

/-- A committed line passes through the detector (R44). -/
theorem commitLine (h : s.Parted) (l : LaneId) (c : CapLine) : (s.commitLine l c).Parted := by
  have taken : (s.upd l fun x =>
      ((x.updTube fun t => t.countCommit s.clock c).storeLine c).landmarkLine ((s.lane l).chanLine c)).Parted := by
    refine h.upd l (Lane.landmarkLine_parted ?_ _)
    rw [Lane.storeLine_detector]
    exact h l
  exact ((taken.screenLine l _).lineAssembler l _ _).regionAssembler l _ _

theorem captureCycle (h : s.Parted) (l : LaneId) (c : Cycle) : (s.captureCycle l c).Parted := by
  unfold State.captureCycle
  dsimp only
  split
  · exact foldl (fun c ht => ht.commitLine l c) _ (h.frame l rfl)
  · exact h

theorem flush (h : s.Parted) (l : LaneId) : (s.flush l).Parted :=
  (foldl (fun c ht => ht.commitLine l c) _ (h.frame l rfl)).frame l rfl

/-! ### The lane controller (chapter 8) -/

theorem finishWait (h : s.Parted) (l : LaneId) : (s.finishWait l).Parted := by
  unfold State.finishWait
  dsimp only
  split
  · split
    · exact h
    · exact h.frame l rfl
  · exact h

theorem enterFinish (h : s.Parted) (l : LaneId) : (s.enterFinish l).Parted := (h.frame l rfl).finishWait l

theorem enterFaulted (h : s.Parted) (l : LaneId) (cause : FaultCause) : (s.enterFaulted l cause).Parted :=
  (h.frame l rfl).emit l _ _

theorem withdrawResult (h : s.Parted) (l : LaneId) (r : StartResult) : (s.withdrawResult l r).Parted := by
  cases r
  case started => exact h
  case homeArrival => exact h.enterFinish l
  all_goals exact enterFinish (h.frame l rfl) l

theorem startWithdraw (h : s.Parted) (l : LaneId) : (s.startWithdraw l).Parted :=
  withdrawResult (h.setLane l (Lane.motionStart_detector (s.lane l).toWithdraw _ ▸ h l)) l _

theorem retargetWithdraw (h : s.Parted) (l : LaneId) : (s.retargetWithdraw l).Parted :=
  withdrawResult (h.setLane l (Lane.retarget_detector (s.lane l).toWithdraw ▸ h l)) l _

/-- The end of a pull decides what is left (R94, R97). -/
theorem endPull (h : s.Parted) (l : LaneId) (o : TubeOutcome) : (s.endPull l o).Parted := by
  have ended : ((s.flush l).upd l Lane.landmarkEnd).Parted := (h.flush l).upd l (Lane.landmarkEnd_parted (h.flush l l))
  exact (((ended.screenEnd l).assemblersEnd l).emit l _ _).frame l rfl

theorem testStopB (h : s.Parted) (l : LaneId) : (s.testStopB l).Parted := by
  unfold State.testStopB
  dsimp only
  split
  · split
    · exact ((h.frame l rfl).endPull l _).retargetWithdraw l
    · exact h
  · exact h

theorem motorFaultEvent (h : s.Parted) (l : LaneId) : (s.motorFaultEvent l).Parted := by
  unfold State.motorFaultEvent
  dsimp only
  split
  case h_1 | h_2 | h_5 => exact enterFinish (h.frame l rfl) l
  case h_3 =>
    refine enterFinish (h.upd l ?_) l
    exact Lane.missRest_parted (h l)
  case h_4 => exact enterFinish ((h.endPull l _).frame l rfl) l
  case h_6 => exact h.enterFaulted l _
  all_goals exact h

theorem stallEvent (h : s.Parted) (l : LaneId) (position : Int) : (s.stallEvent l position).Parted := by
  unfold State.stallEvent
  split
  · exact startWithdraw (h.frame l rfl) l
  · exact enterFinish ((h.endPull l _).frame l rfl) l
  · exact enterFinish (h.frame l rfl) l
  · exact h.enterFaulted l _
  all_goals exact h

theorem enterPull (h : s.Parted) (l : LaneId) : (s.enterPull l).Parted := by
  have started : ((s.setLane l ((s.lane l).toPull.motionStart .pull).1).emit l .pullStarted none).Parted :=
    emit (h.setLane l (Lane.motionStart_detector (s.lane l).toPull _ ▸ h l)) l _ _
  unfold State.enterPull
  dsimp only
  split
  · exact started.motorFaultEvent l
  · exact started.testStopB l
  all_goals exact started

/-- The expected list is formed anew, PENDING, before the pull (R90, R95). -/
theorem enterTurn (h : s.Parted) (l : LaneId) : (s.enterTurn l).Parted := by
  have turned : (s.upd l fun x => x.turned (s.tubeLayout l) s.clock).Parted := h.upd l (Lane.startPull_parted _ _)
  rw [State.enterTurn_eq]
  split
  · exact turned.enterPull l
  · exact turned

theorem testStopA (h : s.Parted) (l : LaneId) : (s.testStopA l).Parted := by
  unfold State.testStopA
  dsimp only
  split
  · split
    · exact h.enterTurn l
    · exact h
  · exact h

theorem testStops (h : s.Parted) (l : LaneId) : (s.testStops l).Parted := (h.testStopA l).testStopB l

theorem guideTest (h : s.Parted) (l : LaneId) : (s.guideTest l).Parted := by
  have passed : (((s.lane l).updCtl fun c => { c with attempts := c.attempts + 1 }).passGuide).detector.Parted := h l
  have started := h.setLane l (Lane.motionStart_detector _ .insert ▸ passed)
  unfold State.guideTest
  dsimp only
  split
  · split
    · exact started.motorFaultEvent l
    · exact started.testStopA l
    all_goals exact started
  · split
    · refine enterFinish (h.setLane l ?_) l
      exact h l
    · exact h.setLane l (h l)

/-- A taken order clears the detector (R98, R99). -/
theorem openTube (h : s.Parted) (l : LaneId) (o : Order) (rest : List Order) : (s.openTube l o rest).Parted := by
  have opened : ((s.upd l fun x => x.clearDetector.updCtl fun c =>
      { c with worklist := rest, tube := some (Tube.open o (s.stops l o)) }).emit l .tubeStarted none).Parted :=
    emit (h.upd l .reset) l _ _
  unfold State.openTube
  dsimp only
  split
  · exact (opened.frame l rfl).guideTest l
  · exact (opened.frame l rfl).enterFinish l

theorem takeFrontOrder (h : s.Parted) (l : LaneId) : (s.takeFrontOrder l).Parted := by
  unfold State.takeFrontOrder
  split
  · exact h.openTube l _ _
  · exact h

theorem homeArrivalEvent (h : s.Parted) (l : LaneId) : (s.homeArrivalEvent l).Parted := by
  unfold State.homeArrivalEvent
  split
  · exact h.enterFinish l
  · exact h.frame l rfl
  all_goals exact h

theorem inputChange (h : s.Parted) (l : LaneId) (i : InputId) : (s.inputChange l i).Parted := by
  have changed : (s.upd l fun y =>
      { y with drive := y.drive.setInput i { (s.lane l).drive.input i with active := ((s.lane l).drive.input i).raw } }).Parted :=
    h.frame l rfl
  unfold State.inputChange
  dsimp only
  split
  · split
    · exact changed
    · exact changed.frame l rfl
  · split
    · exact (changed.frame l rfl).homeArrivalEvent l
    · exact changed
  · split
    · exact (changed.frame l rfl).motorFaultEvent l
    · exact changed

theorem settleInput (h : s.Parted) (l : LaneId) (i : InputId) : (s.settleInput l i).Parted := by
  unfold State.settleInput
  dsimp only
  split
  · exact h.inputChange l i
  · exact h

theorem enterHeld (h : s.Parted) (l : LaneId) : (s.enterHeld l).Parted := emit (h.frame l rfl) l _ _

theorem holdIf (h : s.Parted) (l : LaneId) : (s.holdIf l).Parted := by
  unfold State.holdIf
  split
  · exact h.enterHeld l
  · exact h

theorem holdIfLost (h : s.Parted) (l : LaneId) : (s.holdIfLost l).Parted := by
  unfold State.holdIfLost
  split
  · exact h
  · exact h.holdIf l

theorem resumeMotion (h : s.Parted) (l : LaneId) (p : MotionPhase) : (s.resumeMotion l p).Parted := by
  have started := h.setLane l ((Lane.motionStart_detector (s.lane l) p).symm ▸ h l)
  unfold State.resumeMotion
  dsimp only
  split
  · exact started.testStops l
  · exact started.motorFaultEvent l
  · exact started.homeArrivalEvent l
  · exact started.withdrawResult l _

theorem resumeLane (h : s.Parted) (l : LaneId) : (s.resumeLane l).Parted := by
  unfold State.resumeLane
  split
  · exact h
  · rename_i st _
    have start : ((s.upd l fun x => x.unhold st s.clock).emit l .resumed none).Parted := emit (h.frame l rfl) l _ _
    dsimp only
    split
    case h_1 | h_2 | h_3 => exact start.resumeMotion l _
    case h_4 =>
      split
      · exact start.frame l rfl
      · exact start.resumeMotion l _
    all_goals exact start

theorem abortLane (h : s.Parted) (l : LaneId) (ht : s.abortLane l = some t) : t.Parted := by
  unfold State.abortLane at ht
  dsimp only at ht
  split at ht <;> cases ht
  · exact enterFinish (h.frame l rfl) l
  · exact startWithdraw (h.frame l rfl) l
  · refine startWithdraw (h.upd l ?_) l
    exact Lane.missRest_parted (h l)
  · exact (h.endPull l _).retargetWithdraw l
  all_goals exact h

theorem startRetract (h : s.Parted) (l : LaneId) : (s.startRetract l).Parted := by
  have started := h.setLane l (Lane.motionStart_detector (s.lane l).toRetract .retract ▸ h l)
  unfold State.startRetract
  dsimp only
  split
  · exact started.motorFaultEvent l
  all_goals exact started

/-- LANE_RESET clears the detector (R100, R155). -/
theorem resetLane (h : s.Parted) (l : LaneId) : (s.resetLane l).Parted := by
  have reset : ({ s.upd l Lane.resetLane with engine := (s.upd l Lane.resetLane).engine.discard l } : State).Parted :=
    (h.upd l (f := Lane.resetLane) .reset).of_fields rfl rfl
  exact ((reset.giveUpBlock l .full).giveUpBlock l .region).emit l _ _

/-! ### The measurement engine and the station line -/

theorem answerFlight (h : s.Parted) (code : ReplyCode) (body : ReplyBody) : (s.answerFlight code body).Parted := by
  unfold State.answerFlight
  split
  · refine reports ?_ (State.placeReply_reports _ _)
    exact h.of_fields rfl rfl
  · exact h

theorem deliver (h : s.Parted) (l : LaneId) (j : Job) : (s.deliver l j).Parted := by
  cases j with
  | measure tag ind => exact h.frame l rfl
  | span ch amplitude phase values =>
    unfold State.deliver State.deliverSpan
    dsimp only
    split
    · exact (h.frame l rfl).answerFlight _ _
    · exact h.answerFlight _ _
  | solve ch ps qs =>
    unfold State.deliver State.deliverSolve
    dsimp only
    split
    · exact (h.frame l rfl).answerFlight _ _
    · exact h.answerFlight _ _

theorem engineTake (h : s.Parted) (l : LaneId) : (s.engineTake l).Parted := by
  obtain ⟨_, ht⟩ | ⟨j, rest, _, ht⟩ := s.engineTake_cases l <;> rw [ht]
  · exact h
  · have popped : (s.setLane l { s.lane l with jobs := rest }).Parted := h.setLane l (h l)
    exact popped.of_fields rfl rfl

theorem engineChoose (h : s.Parted) : s.engineChoose.Parted := by
  have freed : ({ s with engine := { s.engine with busy := none } } : State).Parted := h.of_fields rfl rfl
  unfold State.engineChoose
  dsimp only
  split
  · exact freed
  all_goals exact freed.engineTake _

theorem signOfLife (h : s.Parted) : s.signOfLife.Parted := by
  unfold State.signOfLife
  dsimp only
  split
  · exact h.of_fields rfl rfl
  · refine reports (reports ?_ (State.formNotice_reports _ _)) (State.kick_reports _)
    exact h.of_fields rfl rfl

theorem goodFrame (h : s.Parted) (payload : List Byte) : (s.goodFrame payload).Parted := h.signOfLife.of_fields rfl rfl

theorem frameByte (h : s.Parted) (got : List Byte) : (s.frameByte got).Parted := by
  have bad : s.badFrame.Parted := h.of_fields rfl rfl
  unfold State.frameByte State.judge
  split
  · exact bad
  · split
    · split
      · refine goodFrame ?_ _
        exact h.of_fields rfl rfl
      · exact bad
    · exact h.of_fields rfl rfl

theorem rxByte (h : s.Parted) (b : Byte) : (s.rxByte b).Parted := by
  unfold State.rxByte
  split
  · split <;> exact h.of_fields rfl rfl
  · exact h.frameByte _

theorem receive (h : s.Parted) (bytes : List Byte) : (s.receive bytes).Parted :=
  of_fields (foldl (fun b ht => ht.rxByte b) bytes h) rfl rfl

end State.Parted

/-! ### Events -/

section

variable {s t : State} {l : LaneId}

theorem State.poweredOn_parted (s : State) : s.poweredOn.Parted := fun l => by
  rw [State.poweredOn_lane]
  exact .reset

theorem execJobCompletion_parted (h : s.Parted) (ht : execJobCompletion s = .next t) : t.Parted := by
  cases ht
  split
  · exact h
  · rename_i e _
    have delivered : (if e.discarded then s.reach e.doneAt else (s.reach e.doneAt).deliver e.lane e.job).Parted := by
      split
      · exact h.reach _
      · exact (h.reach _).deliver _ _
    exact delivered.engineChoose.finishWait _

theorem execFrameTimeout_parted (h : s.Parted) (ht : execFrameTimeout s = .next t) : t.Parted := by
  cases ht
  split
  · exact h.of_fields rfl rfl
  · exact h

/-- The silence holds both lanes (R151, R176). -/
theorem execSilenceTimeout_parted (h : s.Parted) (ht : execSilenceTimeout s = .next t) : t.Parted := by
  cases ht
  split
  · refine State.Parted.holdIf (State.Parted.holdIf ?_ .a) .b
    exact h.of_fields rfl rfl
  · exact h

theorem execTransmissionEnd_parted (h : s.Parted) (ht : execTransmissionEnd s = .next t) : t.Parted := by
  cases ht
  split
  · exact h
  · exact (h.reach _).reports (State.choose_reports _)
  · refine State.Parted.reports ?_ ((State.returnBuffer_reports _).trans (State.choose_reports _))
    exact h.of_fields rfl rfl

theorem State.Parted.moveCount (h : s.Parted) (l : LaneId) (count : Int) : (s.moveCount l count).Parted := by
  have tested : (State.testStops (s.upd l fun x => { x with pos := { x.pos with count := count } }) l).Parted :=
    (h.frame l rfl).testStops l
  unfold State.moveCount State.testHomeLimit
  dsimp only
  split
  · exact (tested.frame l rfl).withdrawResult l _
  · exact tested

theorem execEdge_parted {phase : EncPhase} (h : s.Parted) (ht : execEdge l phase s = .next t) : t.Parted := by
  have accepted : (s.upd l fun x => x.accept phase).Parted := h.frame l rfl
  cases ht
  split
  · exact accepted.frame l rfl
  · split
    · exact accepted.moveCount l _
    · exact accepted

theorem Lane.controlPeriod_detector (x : Lane) (tight : Bool) :
    ((x.periodMeasure.pullSpeeds).drivePeriod tight).detector = x.detector := by
  have hdrive : ∀ y : Lane, (y.drivePeriod tight).detector = y.detector := fun y => by
    unfold Lane.drivePeriod
    split <;> rfl
  have hspeeds : ∀ y : Lane, y.pullSpeeds.detector = y.detector := fun y => by
    unfold Lane.pullSpeeds
    dsimp only
    split <;> rfl
  rw [hdrive, hspeeds]
  rfl

theorem execControlPeriodEnd_parted (h : s.Parted) (ht : execControlPeriodEnd l s = .next t) : t.Parted := by
  cases ht
  exact (h.reach _).frame l (Lane.controlPeriod_detector _ _)

theorem execStall_parted (h : s.Parted) (ht : execStall l s = .next t) : t.Parted := by
  cases ht
  split
  · exact (h.frame l rfl).stallEvent l _
  · exact h

theorem execDebouncedStateChange_parted {i : InputId} (h : s.Parted) (ht : execDebouncedStateChange l i s = .next t) : t.Parted := by
  cases ht
  split
  · exact h
  · exact (h.reach _).inputChange l i

theorem execSwitchEnd_parted (h : s.Parted) (ht : execSwitchEnd l s = .next t) : t.Parted := by
  cases ht
  split
  · exact (h.reach _).frame l rfl
  · exact h

theorem execSettleEnd_parted (h : s.Parted) (ht : execSettleEnd l s = .next t) : t.Parted := by
  cases ht
  split
  · exact (h.reach _).frame l rfl
  · exact h

theorem State.Parted.endSlot (h : s.Parted) (l : LaneId) (r : Running) (k : Sample) : (s.endSlot l r k).Parted := by
  unfold State.endSlot
  dsimp only
  split
  · exact (h.reach _).frame l rfl
  · exact ((h.reach _).frame l rfl).captureCycle l _

theorem execSlotEnd_parted {d : Demod} (h : s.Parted) (ht : execSlotEnd l d s = .next t) : t.Parted := by
  cases ht
  split
  · exact h.endSlot l _ _
  · exact h

theorem execGuidePoll_parted (h : s.Parted) (ht : execGuidePoll l s = .next t) : t.Parted := by
  cases ht
  split
  · exact ((h.reach _).frame l rfl).guideTest l
  · exact h

theorem execTurnDwellEnd_parted (h : s.Parted) (ht : execTurnDwellEnd l s = .next t) : t.Parted := by
  cases ht
  split
  · exact (h.reach _).enterPull l
  · exact h

theorem State.Parted.leaveFinish (h : s.Parted) (l : LaneId) (fault : Option FaultCause) : (s.leaveFinish l fault).Parted := by
  have closed : (s.upd l Lane.closeTube).Parted := h.frame l (Lane.updateRearm_detector _)
  unfold State.leaveFinish
  dsimp only
  split
  · exact closed.enterFaulted l _
  · exact closed.frame l rfl

theorem execReportRecord_parted (h : s.Parted) (ht : execReportRecord l s = .next t) : t.Parted := by
  cases ht
  split
  · split
    · unfold State.report
      split
      · exact (h.frame l rfl).reports (State.queueRecord_reports _ _)
      · exact (h.reports (State.queueRecord_reports _ _)).leaveFinish l _
    · exact h
  · exact h

/-! ### Requests -/

/-- What a request comes to has a property, where it changes anything but the link (R177, R185). -/
def Handled.Meets (P : State → Prop) : Handled → Prop
  | .refused _ => True
  | .done t _ => P t
  | .inFlight t => P t

/-- A check that refuses the request, or else lets it through. -/
theorem Handled.meets_of_check {P : State → Prop} {c : Prop} [Decidable c] {code : ReplyCode} {o : Handled} (ho : o.Meets P) :
    (if c then .refused code else o).Meets P := by
  split
  · trivial
  · exact ho

theorem forLane_meets {P : State → Prop} {p : List Byte} {f : LaneId → Handled} (h : ∀ l, (f l).Meets P) : (forLane p f).Meets P := by
  unfold forLane
  split
  · exact h _
  · trivial

theorem forLaneLength_meets {P : State → Prop} {p : List Byte} {n : Nat} {f : LaneId → Handled} (h : ∀ l, (f l).Meets P) :
    (forLaneLength p n f).Meets P := forLane_meets fun l => Handled.meets_of_check (h l)

theorem forSetup_meets {P : State → Prop} {p : List Byte} {n : Nat} {f : LaneId → Handled} (h : ∀ l, (f l).Meets P) :
    (forSetup p s n f).Meets P := forLane_meets fun l => Handled.meets_of_check (Handled.meets_of_check (h l))

theorem forUnit_meets {P : State → Prop} {p : List Byte} {n : Nat} {o : Handled} (ho : o.Meets P) : (forUnit p n o).Meets P :=
  Handled.meets_of_check (Handled.meets_of_check ho)

theorem State.Parted.handle {kind : Nat → Bool} {f : List Byte → State → Handled} (h : s.Parted)
    (hf : ∀ p {u : State}, u.Parted → (f p u).Meets State.Parted)
    (ht : Host.Outcome.next (φ := Fault) (ρ := Refusal) (s.handle kind f) = .next t) : t.Parted := by
  cases ht
  obtain hid | ⟨p, _, _, htaken⟩ := s.handle_cases kind f
  · rw [hid]
    exact h
  · have popped : s.popRequest.Parted := h.of_fields rfl rfl
    have met := hf p popped
    rw [htaken]
    generalize f p s.popRequest = o at met
    cases o with
    | refused code => exact popped.reports (State.placeReply_reports _ _)
    | done u body => exact State.Parted.reports met (State.placeReply_reports _ _)
    | inFlight u => exact State.Parted.of_fields met rfl rfl

theorem handleSetLink_parted (p : List Byte) (h : s.Parted) : (handleSetLink p s).Meets State.Parted := by
  refine forUnit_meets ?_
  split
  · refine State.Parted.reports ?_ (State.testPool_reports _)
    exact h.of_fields rfl rfl
  · trivial

theorem handleSetLayout_parted (p : List Byte) (h : s.Parted) : (handleSetLayout p s).Meets State.Parted := by
  refine forUnit_meets (Handled.meets_of_check (Handled.meets_of_check ?_))
  split
  · exact h.of_fields rfl rfl
  · trivial

theorem handleSetScan_parted (p : List Byte) (h : s.Parted) : (handleSetScan p s).Meets State.Parted := by
  refine forSetup_meets fun l => ?_
  split
  · exact h.frame l rfl
  · trivial

theorem handleSetChannel_parted (p : List Byte) (h : s.Parted) : (handleSetChannel p s).Meets State.Parted := by
  refine forSetup_meets fun l => Handled.meets_of_check ?_
  split
  · exact h.frame l rfl
  · trivial

theorem handleSetMix_parted (p : List Byte) (h : s.Parted) : (handleSetMix p s).Meets State.Parted := by
  have mixed : ∀ (l : LaneId) (ch : Nat) (m : MixChannel), (s.setMix l ch m).Meets State.Parted := fun l _ _ => h.frame l rfl
  refine forSetup_meets fun l => Handled.meets_of_check ?_
  split
  · exact mixed l _ _
  · split
    · split
      · exact mixed l _ _
      · trivial
    · trivial

theorem handleSetLandmark_parted (p : List Byte) (h : s.Parted) : (handleSetLandmark p s).Meets State.Parted := by
  refine forSetup_meets fun l => ?_
  split
  · exact h.frame l rfl
  · trivial

theorem handleSetMotion_parted (p : List Byte) (h : s.Parted) : (handleSetMotion p s).Meets State.Parted := by
  refine forSetup_meets fun l => ?_
  split
  · exact State.Parted.foldl (fun i ht => ht.settleInput l i) allInputs (h.frame l rfl)
  · trivial

theorem handleQueueTube_parted (p : List Byte) (h : s.Parted) : (handleQueueTube p s).Meets State.Parted := by
  refine forLaneLength_meets fun l => ?_
  have queued : ((s.upd l fun y => y.appendOrder (orderAt p)).takeFrontOrder l).Parted := (h.frame l rfl).takeFrontOrder l
  exact Handled.meets_of_check (Handled.meets_of_check (Handled.meets_of_check (Handled.meets_of_check
    (Handled.meets_of_check queued))))

theorem handleCancelTube_parted (p : List Byte) (h : s.Parted) : (handleCancelTube p s).Meets State.Parted := by
  refine forLaneLength_meets fun l => ?_
  dsimp only
  split
  · exact h.frame l rfl
  · trivial

theorem handleAbort_parted (p : List Byte) (h : s.Parted) : (handleAbort p s).Meets State.Parted := by
  refine forLaneLength_meets fun l => ?_
  split
  · rename_i u hu
    exact (h.abortLane l hu).holdIfLost l
  · trivial

theorem handleHold_parted (p : List Byte) (h : s.Parted) : (handleHold p s).Meets State.Parted := by
  refine forLaneLength_meets fun l => ?_
  dsimp only
  split
  · exact h.enterHeld l
  · split
    · exact h
    · trivial

theorem handleResume_parted (p : List Byte) (h : s.Parted) : (handleResume p s).Meets State.Parted := by
  refine forLaneLength_meets fun l => ?_
  split
  · exact (h.resumeLane l).holdIfLost l
  · trivial

theorem handleRetract_parted (p : List Byte) (h : s.Parted) : (handleRetract p s).Meets State.Parted := by
  refine forLaneLength_meets fun l => ?_
  dsimp only
  split
  · exact (h.startRetract l).holdIfLost l
  · trivial

theorem handleSpanCal_parted (p : List Byte) (h : s.Parted) : (handleSpanCal p s).Meets State.Parted :=
  forSetup_meets fun l => Handled.meets_of_check (Handled.meets_of_check (Handled.meets_of_check (Handled.meets_of_check
    (h.appendJob l _))))

theorem handleSolveMix_parted (p : List Byte) (h : s.Parted) : (handleSolveMix p s).Meets State.Parted := by
  refine forSetup_meets fun l => ?_
  dsimp only
  split
  · exact Handled.meets_of_check (Handled.meets_of_check (h.appendJob l _))
  · trivial

/-! ### Every step -/

theorem exec_parted {c : Instr} (h : s.Parted) (ht : exec c s = .next t) : t.Parted := by
  cases c with
  | powerOn => cases ht; exact s.poweredOn_parted
  | rawLevelChange l i level => cases ht; exact h.frame l rfl
  | debouncedStateChange l i => exact execDebouncedStateChange_parted h ht
  | edge l phase => exact execEdge_parted h ht
  | controlPeriodEnd l => exact execControlPeriodEnd_parted h ht
  | stall l => exact execStall_parted h ht
  | switchEnd l => exact execSwitchEnd_parted h ht
  | settleEnd l => exact execSettleEnd_parted h ht
  | slotEnd l d => exact execSlotEnd_parted h ht
  | guidePoll l => exact execGuidePoll_parted h ht
  | turnDwellEnd l => exact execTurnDwellEnd_parted h ht
  | takeOrder l => cases ht; exact h.takeFrontOrder l
  | jobCompletion => exact execJobCompletion_parted h ht
  | reportRecord l => exact execReportRecord_parted h ht
  | frameReceived bytes => cases ht; exact h.receive bytes
  | frameTimeout => exact execFrameTimeout_parted h ht
  | silenceTimeout => exact execSilenceTimeout_parted h ht
  | transmissionEnd => exact execTransmissionEnd_parted h ht
  | badKind => exact h.handle (f := fun _ _ => .refused .badKind) (fun _ _ _ => trivial) ht
  | status => exact h.handle (f := handleStatus) (fun _ _ hu => forUnit_meets hu) ht
  | setLink => exact h.handle (fun p _ hu => handleSetLink_parted p hu) ht
  | setLayout => exact h.handle (fun p _ hu => handleSetLayout_parted p hu) ht
  | setScan => exact h.handle (fun p _ hu => handleSetScan_parted p hu) ht
  | setChannel => exact h.handle (fun p _ hu => handleSetChannel_parted p hu) ht
  | setMix => exact h.handle (fun p _ hu => handleSetMix_parted p hu) ht
  | setLandmark => exact h.handle (fun p _ hu => handleSetLandmark_parted p hu) ht
  | setMotion => exact h.handle (fun p _ hu => handleSetMotion_parted p hu) ht
  | queueTube => exact h.handle (fun p _ hu => handleQueueTube_parted p hu) ht
  | cancelTube => exact h.handle (fun p _ hu => handleCancelTube_parted p hu) ht
  | abort => exact h.handle (fun p _ hu => handleAbort_parted p hu) ht
  | hold => exact h.handle (fun p _ hu => handleHold_parted p hu) ht
  | resume => exact h.handle (fun p _ hu => handleResume_parted p hu) ht
  | retract => exact h.handle (fun p _ hu => handleRetract_parted p hu) ht
  | laneReset => exact h.handle (f := handleLaneReset) (fun _ _ hu => forLaneLength_meets fun l => hu.resetLane l) ht
  | spanCal => exact h.handle (fun p _ hu => handleSpanCal_parted p hu) ht
  | solveMix => exact h.handle (fun p _ hu => handleSolveMix_parted p hu) ht
  | syncWordFound bytes => cases ht; exact h.receive bytes
  | frameLengthOutOfRange bytes => cases ht; exact h.receive bytes

theorem step_parted (h : s.Parted) (ht : step s = .next t) : t.Parted := by
  unfold step at ht
  split at ht
  · cases ht
    exact h.of_fields rfl rfl
  · have taken : ∀ q, (s.withPending q).Parted := fun _ => h.of_fields rfl rfl
    exact exec_parted (taken _) ht

end

/-- Settles O11: `State.Parted` is the statement's property, place by place in the expected list; `step_parted` keeps it. -/
theorem everyStepKeepsTheLandmarks : Obligations.EveryStepKeepsTheLandmarks := fun s t hs hstep =>
  t.landmarksLegal_iff.2 (step_parted (s.landmarksLegal_iff.1 hs) hstep)

end Sys2Proof.Machine

/-! The words of chapter 5's statements: SET_LAYOUT and SET_LANDMARK, the expected list, runs, matching, the end of the pull, the location
pass. -/

namespace Sys2Proof.Machine

/-! ### SET_LAYOUT (R85 to R87) and SET_LANDMARK (R89) -/

theorem exec_setLayout (s : State) : exec .setLayout s = execSetLayout s := by rfl

theorem exec_setLandmark (s : State) : exec .setLandmark s = execSetLandmark s := by rfl

/-- An accepted class has as many supports as the request names (R85). -/
theorem layoutAt_supports {p : List Byte} {y : Layout} (h : layoutAt p = some y) : y.supports.length = u8At p 5 := by
  unfold layoutAt at h
  dsimp only at h
  split at h
  · cases h
    simp [length_u32List]
  · cases h

theorem Lane.usesClass_false {x : Lane} {cls : Nat} (h : ∀ u, x.ctl.tube = some u → u.order.cls ≠ cls) : x.usesClass cls = false := by
  unfold Lane.usesClass
  split
  · exact beq_eq_false_iff_ne.2 (h _ ‹_›)
  · rfl

/-- An accepted SET_LAYOUT (R86). -/
theorem handleSetLayout_accepted {p : List Byte} {s : State} {y : Layout} (hunit : u8At p 1 = 255)
    (hn : p.length = 20 + 4 * u8At p 5) (hlo : 1 ≤ u8At p 4) (hhi : u8At p 4 ≤ 16)
    (hfree : ∀ l, (s.lane l).usesClass (u8At p 4) = false) (hy : layoutAt p = some y) :
    handleSetLayout p s = .done (s.setLayout (u8At p 4) y) (.setLayout (u8At p 4) (u8At p 5)) := by
  have ha : s.laneA.usesClass (u8At p 4) = false := hfree .a
  have hb : s.laneB.usesClass (u8At p 4) = false := hfree .b
  simp [handleSetLayout, forUnit, layoutLength, within, hunit, hn, hlo, hhi, ha, hb, hy, layoutAt_supports hy]

/-- Settles O24: the class is free and the fields pass, so that the handler replaces the class and answers. -/
theorem setLayoutReplacesTheClass : Obligations.SetLayoutReplacesTheClass := by
  intro s p y ht hkind hunit hn hlo hhi hfree hy
  have hh := handleSetLayout_accepted (s := s.popRequest) hunit hn hlo hhi
    (fun l => Lane.usesClass_false fun u hu => hfree l u (by rwa [State.popRequest_lane] at hu)) hy
  have hpop : s.popRequest.setLayout (u8At p 4) y = (s.setLayout (u8At p 4) y).popRequest := rfl
  rw [exec_setLayout, execSetLayout, State.handle_takes s _ _ p ht (by rw [hkind]; rfl), hh, State.conclude, hpop,
    State.popRequest_placeReply]
  rfl

/-- An accepted SET_LANDMARK (R89). -/
theorem handleSetLandmark_accepted {p : List Byte} {s : State} {l : LaneId} {k : LandmarkSettings} (hl : laneOf p = some l)
    (hst : (s.lane l).ctl.state = .idle ∨ (s.lane l).ctl.state = .faulted) (hn : p.length = 24) (hk : landmarkAt p = some k) :
    handleSetLandmark p s =
      .done (s.upd l fun x => { x with landmark := k }) (.active ({ s.lane l with landmark := k } : Lane).landmarkActive) := by
  rw [handleSetLandmark, forSetup_accepted _ hl hst hn]
  simp only [hk, State.lane_upd]

/-- Settles O29: the settings are replaced whole; the activity of the channel does not depend on them. -/
theorem setLandmarkReplacesTheSettings : Obligations.SetLandmarkReplacesTheSettings := by
  intro s p l k ht hask hst hn hk
  obtain ⟨hkind, hl⟩ := hask
  have hh := handleSetLandmark_accepted (s := s.popRequest) hl (by simpa using hst) hn hk
  rw [exec_setLandmark, execSetLandmark, State.handle_takes s _ _ p ht (by rw [← Option.some.inj hkind]; rfl), hh,
    State.popRequest_conclude_upd, State.popRequest_lane, Lane.landmarkActive]
  rfl

/-! ### The expected list (R85, R95) -/

/-- Kind, ordinal and nominal position of an entry. -/
def LandmarkEntry.named (e : LandmarkEntry) : LandmarkKind × Nat × Option Int := (e.kind, e.ordinal, e.nominal)

/-- The supports with their ordinals, in ascending position (R85). -/
theorem supportEntries_named (k : Nat) (centres : List Int) :
    (supportEntries k centres).map LandmarkEntry.named = (centres.zipIdx k).map fun c => (.support, c.2, some c.1) := by
  induction centres generalizing k with
  | nil => rfl
  | cons c rest ih => rw [supportEntries, List.map_cons, ih, List.zipIdx_cons, List.map_cons]; rfl

theorem Layout.landmarks_named (y : Layout) :
    y.landmarks.map LandmarkEntry.named =
      (.tsf, 0, some (y.length - y.tf)) ::
        (((y.supports.zipIdx 1).reverse.map fun c => (.support, c.2, some c.1)) ++ [(.tsn, 0, some y.tn)]) := by
  rw [Layout.landmarks, List.map_cons, List.map_append, List.map_reverse, supportEntries_named, List.map_reverse]
  rfl

/-- The list holds the class's landmarks that lie from stop B to stop A (R95). -/
theorem expectedList_named (y : Layout) (stopA stopB : Int) :
    (expectedList (some y) stopA stopB).map LandmarkEntry.named =
      (y.landmarks.map LandmarkEntry.named).filter
        fun k => decide (stopB ≤ k.2.2.getD 0) && decide (k.2.2.getD 0 ≤ stopA) := by
  rw [List.filter_map]
  rfl

/-! ### Matching in the words of the statement (R96 to R99) -/

/-- Below 16 entries an UNEXPECTED candidate is listed, from 16 on it is counted; all else stays (R98). -/
theorem Detector.addUnexpected_eq (d : Detector) (kind : CandidateKind) (x p : Int) :
    ∃ (listed : List LandmarkEntry) (overflow : Nat),
      d.addUnexpected kind x p = { d with unexpected := listed, overflow := overflow } ∧
      (d.unexpected.length < 16 → overflow = d.overflow ∧ listed = d.unexpected ++ [unexpectedEntry kind x p]) ∧
      (16 ≤ d.unexpected.length →
        listed = d.unexpected ∧ overflow = if d.overflow < 65535 then d.overflow + 1 else d.overflow) := by
  have hmax : Config.unexpectedMax = 16 := rfl
  unfold Detector.addUnexpected
  rw [hmax]
  split
  · rename_i hroom
    exact ⟨_, _, rfl, fun _ => ⟨rfl, rfl⟩, fun hfull => absurd hroom (Nat.not_lt.2 hfull)⟩
  · rename_i hfull
    exact ⟨_, _, rfl, fun hroom => absurd hroom hfull, fun _ => ⟨rfl, rfl⟩⟩

/-- A list that differs from the passed one at most at the pointer: what is passed lies above the candidate and is MISSED, and the rest
stands. -/
theorem Detector.pass_frame {d : Detector} {tolerance : Nat} {x : Int} {entries : List LandmarkEntry}
    (h : ∀ i, i ≠ d.stop tolerance x → entries[i]? = (d.pass (d.stop tolerance x)).expected[i]?) :
    (∀ i e, d.pointer ≤ i → i < d.stop tolerance x → d.expected[i]? = some e →
      x < e.place - (tolerance : Int) ∧ entries[i]? = some e.miss) ∧
    ∀ i, i < d.pointer ∨ d.stop tolerance x < i → entries[i]? = d.expected[i]? := by
  have hle := d.pointer_le_stop tolerance x
  refine ⟨fun i e hp hi he => ⟨Detector.stop_passed hp hi he, ?_⟩, fun i hi => ?_⟩
  · rw [h i (Nat.ne_of_lt hi), Detector.getElem?_pass_inside hp hi, he]
    rfl
  · rw [h i (by omega), Detector.getElem?_pass_outside (by omega)]

theorem Detector.matched_pass (d : Detector) {n : Nat} {e : LandmarkEntry} (x p : Int) (he : d.expected[n]? = some e) :
    ((d.pass n).matched e x p).expected[n]? = some { e with state := .matched, found := some x, raw := some p } := by
  have hn : n < (d.pass n).expected.length := by
    rw [Detector.length_pass]
    exact (List.getElem?_eq_some_iff.1 he).1
  exact List.getElem?_set_self hn


/-! ### Runs (R91 to R93) -/

/-- The run that a marked line opens or lengthens (R91). -/
def LandmarkRun.grown (run : Option LandmarkRun) (index : Int) (isFirst : Bool) : LandmarkRun :=
  match run with
  | none => { first := index, len := 1, onFirst := isFirst, decided := false }
  | some q => { q with len := q.len + 1 }

/-- A run that reaches the length of a tube sheet is decided at its first line, unless it began on the pull's first line (R93). -/
theorem runStep_marked (k : LandmarkSettings) (run : Option LandmarkRun) (index : Int) (isFirst : Bool) {r : LandmarkRun}
    (hr : r = LandmarkRun.grown run index isFirst) :
    runStep k run index isFirst true =
      if r.onFirst = false ∧ r.decided = false ∧ k.tsMin ≤ r.len then
        (some { r with decided := true }, some { kind := .sheet, line := r.first })
      else (some r, none) := by
  have hgrow : runStep k run index isFirst true =
      if (!r.onFirst && !r.decided && decide (k.tsMin ≤ r.len)) = true then
        (some { r with decided := true }, some { kind := .sheet, line := r.first })
      else (some r, none) := by
    rw [hr]
    cases run <;> rfl
  rw [hgrow]
  simp only [Bool.and_eq_true, Bool.not_eq_true', decide_eq_true_eq, and_assoc]

/-- A line that is not marked ends the run (R91, R92). -/
theorem runStep_unmarked (k : LandmarkSettings) (run : Option LandmarkRun) (index : Int) (isFirst : Bool) :
    runStep k run index isFirst false = (none, run.bind (LandmarkRun.endCandidate k)) := by cases run <;> rfl

/-- A run that ends decides what the statement says (R92, R93). -/
theorem LandmarkRun.bind_ending (k : LandmarkSettings) (run : Option LandmarkRun) :
    (run.bind (LandmarkRun.endCandidate k)).map (fun c => (c.kind, c.line)) = run.bind fun r => r.ending k := by
  cases run with
  | none => rfl
  | some r => exact r.endCandidate_ending k

/-- With the watch off only the first line is noted (R90). -/
theorem Lane.landmarkLine_off {x : Lane} (h : x.detector.watch = false) (line : ChanLine) :
    x.landmarkLine line = { x with detector := { x.detector with firstTaken := true } } := by
  unfold Lane.landmarkLine
  dsimp only
  rw [h]

/-- With the watch on the line's value opens, lengthens or ends a run, and what that decides goes to matching (R90 to R93, R96). -/
theorem Lane.landmarkLine_on {x : Lane} {line : ChanLine} {ch : Nat} {v : Vec} (hw : x.detector.watch = true)
    (hch : x.landmark.channel = some ch) (hv : line.value ch = some v) {marked : Bool}
    (hmarked : marked = decide (x.landmark.threshold ≤ max (v.x - x.landmark.ref.x).natAbs (v.y - x.landmark.ref.y).natAbs))
    {r : Option LandmarkRun × Option Candidate}
    (hr : runStep x.landmark x.detector.run line.index (!x.detector.firstTaken) marked = r) :
    x.landmarkLine line =
      ({ x with detector := { x.detector with firstTaken := true, run := r.1 } } : Lane).decided
        (r.2.map fun c => (c.kind, c.line)) := by
  have hvalue : x.landmarkValue line = some v := by
    rw [Lane.landmarkValue, hch]
    exact hv
  rw [← Lane.takeCandidate_decided, ← hr, hmarked]
  unfold Lane.landmarkLine
  dsimp only
  rw [hw, hvalue]
  rfl

/-! ### The end of the pull (R94, R97) -/

/-- The open run ends and goes to matching, and what is left is MISSED. -/
theorem Lane.landmarkEnd_decided (x : Lane) :
    x.landmarkEnd =
      (({ x with detector := { x.detector with run := none } } : Lane).decided
        (x.detector.run.bind fun r => r.ending x.landmark)).missRest := by
  rw [Lane.landmarkEnd, Lane.takeCandidate_decided, LandmarkRun.bind_ending]

theorem getElem?_missRange_length (a : Nat) (entries : List LandmarkEntry) (i : Nat) :
    (missRange a entries.length entries)[i]? = if i < a then entries[i]? else entries[i]?.map LandmarkEntry.miss := by
  rw [getElem?_missRange]
  cases he : entries[i]? with
  | none => simp
  | some e =>
    have hi := (List.getElem?_eq_some_iff.1 he).1
    by_cases ha : i < a
    · simp [ha, Nat.not_le.2 ha]
    · simp [ha, hi, Nat.le_of_not_lt ha]

/-! ### The location pass (R113, R148) -/

/-- A job of the lane waits, or is in the engine and not discarded. -/
theorem State.hasJob_iff (s : State) (l : LaneId) (p : Job → Bool) :
    s.hasJob l p = true ↔
      (s.lane l).jobs.any p = true ∨ ∃ e, s.engine.busy = some e ∧ e.lane = l ∧ e.discarded = false ∧ p e.job = true := by
  rw [State.hasJob, Bool.or_eq_true]
  refine or_congr_right ?_
  cases s.engine.busy with
  | none => simp
  | some e => simp [and_assoc]

/-- FINISH with its wait over, or with a MEASURE job of the tube left, stays as it is (R148). -/
theorem State.finishWait_waits {s : State} {l : LaneId} {u : Tube} (hu : (s.lane l).ctl.tube = some u)
    (h : u.located = true ∨ s.hasJob l Job.isMeasure = true) : s.finishWait l = s := by
  have hno : ¬((s.lane l).ctl.state = .finish ∧ u.located = false ∧ s.hasJob l Job.isMeasure = false) := by
    rintro ⟨_, hl, hj⟩
    simp [hl, hj] at h
  rw [State.finishWait_eq, State.upd_eq_setLane, Lane.updTube_some hu, if_neg hno, ← hu]
  exact s.setLane_lane l

/-- FINISH's wait ends with the location pass (R113, R148). -/
theorem State.finishWait_ends {s : State} {l : LaneId} {u : Tube} (hst : (s.lane l).ctl.state = .finish)
    (hu : (s.lane l).ctl.tube = some u) (hl : u.located = false) (hj : s.hasJob l Job.isMeasure = false) :
    s.finishWait l =
      s.setLane l
        { s.lane l with ctl := { (s.lane l).ctl with tube := some (u.locate (s.lane l).detector.landmarks) } } := by
  rw [State.finishWait_eq, State.upd_eq_setLane, Lane.updTube_some hu, if_pos ⟨hst, hl, hj⟩]

theorem matchedPlace_eq_some_iff {m : LandmarkEntry} {q : LandmarkEntry × Int} :
    matchedPlace m = some q ↔ m.state = .matched ∧ m.nominal = some q.2 ∧ q.1 = m := by
  unfold matchedPlace
  split
  · rename_i n hstate hnominal
    simp only [hstate, hnominal, Option.some.injEq, Prod.ext_iff, true_and]
    exact ⟨fun ⟨ha, hb⟩ => ⟨hb, ha.symm⟩, fun ⟨hb, ha⟩ => ⟨ha.symm, hb⟩⟩
  · rename_i hno
    exact ⟨nofun, fun ⟨hstate, hnominal, _⟩ => absurd hnominal (hno _ hstate)⟩

/-- The place `a` is nearer to `x` than `b`, or as near and lower (R113). -/
def NearerPlace (x a b : Int) : Prop := (x - a).natAbs < (x - b).natAbs ∨ ((x - a).natAbs = (x - b).natAbs ∧ a < b)

theorem nearer_best {x : Int} {a b best : LandmarkEntry × Int} (ha : best = a ∨ NearerPlace x best.2 a.2)
    (hb : best = b ∨ NearerPlace x best.2 b.2) (hmem : best = a ∨ best = b) : nearer x a b = best := by
  unfold nearer
  unfold NearerPlace at ha hb
  split
  · rename_i hlt
    obtain rfl | rfl := hmem
    · obtain rfl | hb := hb
      · rfl
      · omega
    · rfl
  · rename_i hge
    obtain rfl | rfl := hmem
    · rfl
    · obtain rfl | ha := ha
      · rfl
      · omega

/-- The choice over a list is the one that is nearer than every other. -/
theorem foldl_nearer_best {x : Int} {best : LandmarkEntry × Int} (qs : List (LandmarkEntry × Int)) {a : LandmarkEntry × Int}
    (hmem : best ∈ a :: qs) (hbest : ∀ q ∈ a :: qs, best = q ∨ NearerPlace x best.2 q.2) : qs.foldl (nearer x) a = best := by
  induction qs generalizing a with
  | nil => exact (List.mem_singleton.1 hmem).symm
  | cons b qs ih =>
    have hchosen : nearer x a b = a ∨ nearer x a b = b := by
      unfold nearer
      split
      · exact .inr rfl
      · exact .inl rfl
    have ha := hbest a List.mem_cons_self
    have hb := hbest b (List.mem_cons_of_mem _ List.mem_cons_self)
    refine ih ?_ fun q hq => ?_
    · by_cases hab : best = a ∨ best = b
      · rw [nearer_best ha hb hab]
        exact List.mem_cons_self
      · simp only [List.mem_cons] at hmem ⊢
        exact .inr ((hmem.resolve_left fun h => hab (.inl h)).resolve_left fun h => hab (.inr h))
    · obtain rfl | hq := List.mem_cons.1 hq
      · obtain h | h := hchosen <;> rw [h] <;> assumption
      · exact hbest q (List.mem_cons_of_mem _ (List.mem_cons_of_mem _ hq))

/-- Without a MATCHED entry there is no location (R113). -/
theorem locationOf_none {landmarks : List LandmarkEntry} (x : Int) (h : ∀ m ∈ landmarks, m.state ≠ .matched) :
    locationOf landmarks x = none := by
  have hnil : landmarks.filterMap matchedPlace = [] := List.filterMap_eq_nil_iff.2 fun m hm =>
    Option.eq_none_iff_forall_ne_some.2 fun q hq => h m hm (matchedPlace_eq_some_iff.1 hq).1
  rw [locationOf, hnil]

theorem locationOf_cons {landmarks : List LandmarkEntry} {a : LandmarkEntry × Int} {qs : List (LandmarkEntry × Int)} (x : Int)
    (h : landmarks.filterMap matchedPlace = a :: qs) :
    locationOf landmarks x =
      some
        { kind := (qs.foldl (nearer x) a).1.kind, ordinal := (qs.foldl (nearer x) a).1.ordinal,
          offset := clampS32 (x - (qs.foldl (nearer x) a).2) } := by
  rw [locationOf, h]

/-- A MATCHED entry is among the places that the location pass compares. -/
theorem exists_matchedPlaces {landmarks : List LandmarkEntry} {m : LandmarkEntry} {n : Int} (hm : m ∈ landmarks)
    (hstate : m.state = .matched) (hn : m.nominal = some n) :
    ∃ a qs, landmarks.filterMap matchedPlace = a :: qs ∧ (m, n) ∈ a :: qs := by
  have hmem : (m, n) ∈ landmarks.filterMap matchedPlace :=
    List.mem_filterMap.2 ⟨m, hm, matchedPlace_eq_some_iff.2 ⟨hstate, hn, rfl⟩⟩
  obtain ⟨a, qs, h⟩ := List.exists_cons_of_ne_nil (List.ne_nil_of_mem hmem)
  exact ⟨a, qs, h, h ▸ hmem⟩

/-- The location is the offset from the nearest MATCHED entry, of equally near ones the lower (R113). -/
theorem locationOf_nearest {landmarks : List LandmarkEntry} {m : LandmarkEntry} {n x : Int} (hm : m ∈ landmarks)
    (hstate : m.state = .matched) (hn : m.nominal = some n)
    (hbest : ∀ m' ∈ landmarks, ∀ n' : Int, m'.state = .matched → m'.nominal = some n' → NearerPlace x n n' ∨ m' = m) :
    locationOf landmarks x = some { kind := m.kind, ordinal := m.ordinal, offset := clampS32 (x - n) } := by
  obtain ⟨a, qs, h, hmem⟩ := exists_matchedPlaces hm hstate hn
  have hfold : qs.foldl (nearer x) a = (m, n) := foldl_nearer_best qs hmem fun q hq => by
    obtain ⟨k, hk, hkq⟩ := List.mem_filterMap.1 (h ▸ hq)
    obtain ⟨hkstate, hkn, rfl⟩ := matchedPlace_eq_some_iff.1 hkq
    obtain hnear | rfl := hbest _ hk _ hkstate hkn
    · exact .inr hnear
    · exact .inl (Prod.ext rfl (Option.some.inj (hn.symm.trans hkn)))
  rw [locationOf_cons x h, hfold]

/-! ### Landmarks as the statement has them -/

/-- Settles O59: each clause by the lemmas about the operation it speaks of. -/
theorem landmarksAreExpectedMatchedAndLocated : Obligations.LandmarksAreExpectedMatchedAndLocated := by
  refine ⟨fun stopA stopB => ⟨rfl, fun y => ⟨?list, fun e he => ?entry⟩⟩, ?matching, fun x expected => ⟨_, ?watch, rfl⟩,
    fun x line => ⟨fun h => Lane.landmarkLine_off h line, ?line⟩, ?ending,
    fun s l u hst hu => ⟨fun h => ?waits, fun hl hj he => State.finishWait_ends hst hu hl ?finished⟩,
    fun landmarks x => ⟨locationOf_none x, fun m hm hstate hn => ?located, fun m n hm hstate hn hbest => ?nearest⟩⟩
  case list => exact (expectedList_named y stopA stopB).trans (by rw [y.landmarks_named])
  case entry =>
    obtain ⟨kind, ordinal, nominal, rfl⟩ := expectedList_expected _ _ _ e he
    exact ⟨rfl, rfl, rfl⟩
  case matching =>
    intro d tolerance kind p x d' missed unexpected hm hx
    have hle := d.pointer_le_stop tolerance x
    have hlength : d.pointer < d.stop tolerance x → d.stop tolerance x ≤ d.expected.length := Detector.stop_le_length
    have hstops : ∀ e, d.expected[d.stop tolerance x]? = some e → e.place - (tolerance : Int) ≤ x := fun _ => Detector.stop_stops
    refine ⟨d.stop tolerance x, ?_⟩
    obtain ⟨e, he, ⟨hkind, hnear⟩, hcase⟩ | ⟨hunfit, hcase⟩ := d.matchCandidate_cases tolerance kind hx
    · obtain ⟨hmissed, hrest⟩ := Detector.pass_frame (tolerance := tolerance) (x := x)
        (entries := ((d.pass (d.stop tolerance x)).matched e x p).expected) fun i hi => List.getElem?_set_ne hi.symm
      rw [hcase] at hm
      cases hm
      refine ⟨rfl, hle, hlength, rfl, List.length_set.trans (d.length_pass _), hmissed, hstops, hrest, fun k hk _ _ => ?_,
        fun hfar => absurd hnear (Nat.not_le.2 (hfar e he ((e.accepts_iff kind).1 hkind)))⟩
      obtain rfl := Option.some.inj (he.symm.trans hk)
      exact ⟨rfl, rfl, add_sub_cancel p _, d.matched_pass x p he, rfl, rfl⟩
    · obtain ⟨listed, overflow, hadd, hlisted, hcounted⟩ := (d.pass (d.stop tolerance x)).addUnexpected_eq kind x p
      obtain ⟨hmissed, hrest⟩ := Detector.pass_frame (d := d) (tolerance := tolerance) (x := x) fun _ _ => rfl
      rw [hcase, hadd] at hm
      cases hm
      exact ⟨rfl, hle, hlength, rfl, d.length_pass _, hmissed, hstops, hrest,
        fun k hk hkind hnear => absurd ⟨(k.accepts_iff kind).2 hkind, hnear⟩ (hunfit k hk),
        fun _ => ⟨rfl, rfl, rfl, Detector.getElem?_pass_outside (.inr (Nat.le_refl _)), hlisted, hcounted⟩⟩
  case watch =>
    cases x.landmark.channel with
    | none => exact ⟨nofun, nofun⟩
    | some ch => simp
  case line =>
    intro ch v marked run cand hw hch hv hmarked hgrow hend
    have hline := Lane.landmarkLine_on hw hch hv hmarked rfl
    cases hm : marked with
    | true =>
      obtain ⟨r, hr, hrun⟩ := hgrow hm
      have hgrown : r = LandmarkRun.grown x.detector.run line.index (!x.detector.firstTaken) := by
        rw [hr]
        cases x.detector.run <;> rfl
      rw [hm, runStep_marked x.landmark x.detector.run line.index (!x.detector.firstTaken) hgrown] at hline
      split at hrun <;> obtain ⟨rfl, rfl⟩ := hrun
      · rwa [if_pos ‹_›] at hline
      · rwa [if_neg ‹_›] at hline
    | false =>
      obtain ⟨rfl, hnone, hsome⟩ := hend hm
      have hcand : cand = x.detector.run.bind fun r => r.ending x.landmark := by
        cases hr : x.detector.run with
        | none => exact hnone hr
        | some r => exact hsome r hr
      rwa [hm, runStep_unmarked, LandmarkRun.bind_ending, ← hcand] at hline
  case ending =>
    intro x y d hy hd
    refine ⟨missRange d.pointer d.expected.length d.expected, length_missRange _ _ _,
      getElem?_missRange_length d.pointer d.expected, ?_⟩
    rw [Lane.landmarkEnd_decided, ← hy, hd]
    simp only [Lane.missRest, Lane.flagLandmarks, Lane.updFlags, Lane.updTube, Bool.or_false]
  case waits => exact State.finishWait_waits hu (h.imp_right fun h => (s.hasJob_iff l _).2 h)
  case finished =>
    refine Bool.eq_false_iff.2 fun h => ?_
    obtain h | ⟨e, hb, hel, hed, hem⟩ := (s.hasJob_iff l _).1 h
    · exact Bool.eq_false_iff.1 hj h
    · exact Bool.eq_false_iff.1 (he e hb hel hed) hem
  case located =>
    obtain ⟨n, hn⟩ := Option.ne_none_iff_exists'.1 hn
    obtain ⟨a, qs, h, _⟩ := exists_matchedPlaces hm hstate hn
    rw [locationOf_cons x h]
    exact Option.some_ne_none _
  case nearest => exact locationOf_nearest hm hstate hn fun m' hm' n' hs' hn' => or_assoc.2 (hbest m' hm' n' hs' hn')

end Sys2Proof.Machine

/-! The catalogue of the current tube (chapter 6): every step keeps it in order, within 64 entries, with distinct join numbers (R107 to
R109). -/

namespace Sys2Proof.Machine

/-! ### What keeps a catalogue legal (R107 to R113) -/

section

variable {t : Tube}

theorem Tube.catalogueLegal.of_empty (h : t.catalogue = []) : t.catalogueLegal := by
  unfold Tube.catalogueLegal
  rw [h]
  exact ⟨Nat.zero_le _, .nil, List.nodup_nil, List.forall_mem_nil _⟩

/-- An entry that meets a full catalogue takes the place of a weaker one, or is dropped (R109). -/
theorem Tube.catalogueLegal.join (h : t.catalogueLegal) (e : CatEntry) : (t.join e).catalogueLegal := by
  have ⟨hmax, _⟩ := h
  obtain hroom | hfull : t.catalogue.length < 64 ∨ t.catalogue.length = 64 := Nat.lt_or_eq_of_le hmax
  · rw [Tube.join_room e hroom]
    exact Tube.insert_legal e h hroom
  · obtain ⟨w, hw, -, hall⟩ := weakest_cases (List.ne_nil_of_length_pos (by omega : 0 < t.catalogue.length))
    by_cases hweak : w.amplitude < e.amplitude
    · rw [Tube.join_evicts h hfull hw hweak hall]
      refine Tube.insert_legal e (h.erase w) ?_
      show (t.catalogue.erase w).length < 64
      rw [List.length_erase_of_mem hw]
      omega
    · have hdrop : ∀ k ∈ t.catalogue, e.amplitude ≤ k.amplitude := fun k hk => by
        have hwk := hall k hk
        unfold CatEntry.evictedBefore at hwk
        omega
      rw [Tube.join_dropped hfull hdrop]
      exact h

/-- The location pass touches neither the order nor the join numbers (R113). -/
theorem Tube.catalogueLegal.locate (h : t.catalogueLegal) (landmarks : List LandmarkEntry) : (t.locate landmarks).catalogueLegal := by
  obtain ⟨hmax, hpairwise, hnodup, hgiven⟩ := h
  refine ⟨?_, List.pairwise_map.2 hpairwise, ?_, List.forall_mem_map.2 hgiven⟩
  · rwa [Tube.locate, List.length_map]
  · rwa [Tube.locate, List.map_map]

end

/-! ### The catalogue of a lane

`Lane.entries` is what the legality of a lane's catalogue depends on. Few operations change it: an entry joins, the entries are located,
the per-pull reset empties the catalogue, and a tube is taken or leaves. -/

/-- The catalogue of the lane's tube and its join count. -/
def Lane.entries (x : Lane) : Option (List CatEntry × Nat) := x.ctl.tube.map fun t => (t.catalogue, t.joins)

section

variable {x y : Lane}

/-- The legality of a catalogue depends on `Lane.entries` alone. -/
theorem Lane.catalogueLegal.of_entries (h : x.catalogueLegal) (hy : y.entries = x.entries) : y.catalogueLegal := fun u hu => by
  rw [Lane.entries, hu, Option.map_some] at hy
  obtain ⟨v, hv, hvu⟩ := Option.map_eq_some_iff.1 hy.symm
  obtain ⟨hcatalogue, hjoins⟩ := Prod.mk.inj hvu
  have hlegal := h v hv
  rwa [Tube.catalogueLegal, hcatalogue, hjoins] at hlegal

theorem Lane.catalogueLegal.of_none (hx : x.ctl.tube = none) : x.catalogueLegal := fun t ht => by
  rw [hx] at ht
  cases ht

theorem Lane.catalogueLegal.of_some {u : Tube} (hx : x.ctl.tube = some u) (hu : u.catalogueLegal) : x.catalogueLegal := fun t ht => by
  rw [hx] at ht
  exact Option.some.inj ht ▸ hu

/-- A change of the tube's record that keeps its catalogue legal. -/
theorem Lane.catalogueLegal.updTube (h : x.catalogueLegal) {f : Tube → Tube} (hf : ∀ t, t.catalogueLegal → (f t).catalogueLegal) :
    (x.updTube f).catalogueLegal := fun t ht => by
  obtain ⟨u, hu, rfl⟩ := Option.map_eq_some_iff.1 ht
  exact hf u (h u hu)

/-- The per-pull reset empties the catalogue (R112). -/
theorem Lane.catalogueLegal.turned (h : x.catalogueLegal) (layout : Option Layout) (now : Nat) :
    (x.turned layout now).catalogueLegal := fun t ht => by
  rw [x.turned_tube layout now] at ht
  exact h.updTube (fun _ _ => .of_empty rfl) t ht

end

/-! ### What leaves the catalogue alone -/

section

variable (x : Lane)

/-- A change of the tube's record outside its catalogue. -/
theorem Lane.entries_updTube {f : Tube → Tube} (h : ∀ t, ((f t).catalogue, (f t).joins) = (t.catalogue, t.joins)) :
    (x.updTube f).entries = x.entries := by simp only [Lane.entries, Lane.updTube, Option.map_map, Function.comp_def, h]

@[simp] theorem Lane.entries_updFlags (f : TubeFlags → TubeFlags) : (x.updFlags f).entries = x.entries :=
  x.entries_updTube fun _ => rfl

@[simp] theorem Lane.entries_mark (c : FaultCause) : (x.updTube fun t => t.mark c).entries = x.entries :=
  x.entries_updTube (f := fun t => t.mark c) fun _ => rfl

@[simp] theorem Lane.entries_decideOutcome (o : TubeOutcome) : (x.updTube fun t => t.decideOutcome o).entries = x.entries :=
  x.entries_updTube (f := fun t => t.decideOutcome o) fun _ => rfl

/-- A motor fault decides the outcome and marks the tube (R149). -/
theorem Lane.entries_failed (o : TubeOutcome) (c : FaultCause) :
    (x.updTube fun t => (t.decideOutcome o).mark c).entries = x.entries :=
  x.entries_updTube (f := fun t => (t.decideOutcome o).mark c) fun _ => rfl

/-- A tube flagged and marked with a fault (R147, R150). -/
theorem Lane.entries_marked (f : TubeFlags → TubeFlags) (c : FaultCause) :
    ((x.updFlags f).updTube fun t => t.mark c).entries = x.entries :=
  (Lane.entries_mark _ c).trans (x.entries_updFlags f)

@[simp] theorem Lane.entries_setBlock (kind : BlockKind) (b : Option Block) : (x.setBlock kind b).entries = x.entries := by
  cases kind <;> rfl

@[simp] theorem Lane.entries_storeLine (c : CapLine) : (x.storeLine c).entries = x.entries := by
  unfold Lane.storeLine
  split <;> rfl

@[simp] theorem Lane.entries_takeCandidate (c : Option Candidate) : (x.takeCandidate c).entries = x.entries := by
  cases c with
  | none => rfl
  | some c => exact Lane.entries_updFlags _ _

@[simp] theorem Lane.entries_landmarkLine (line : ChanLine) : (x.landmarkLine line).entries = x.entries := by
  unfold Lane.landmarkLine
  dsimp only
  split
  · exact Lane.entries_takeCandidate _ _
  · rfl

@[simp] theorem Lane.entries_missRest : x.missRest.entries = x.entries := Lane.entries_updFlags _ _

@[simp] theorem Lane.entries_landmarkEnd : x.landmarkEnd.entries = x.entries := by
  rw [Lane.landmarkEnd, Lane.entries_missRest, Lane.entries_takeCandidate]
  rfl

@[simp] theorem Lane.entries_testStart (p : MotionPhase) : (x.testStart p).1.entries = x.entries := by
  unfold Lane.testStart
  split <;> rfl

@[simp] theorem Lane.entries_motionStart (p : MotionPhase) : (x.motionStart p).1.entries = x.entries := by
  unfold Lane.motionStart
  split
  · rfl
  · split
    · rfl
    · exact Lane.entries_testStart _ p

@[simp] theorem Lane.entries_retarget : x.retarget.1.entries = x.entries := by
  unfold Lane.retarget
  split
  · exact Lane.entries_testStart _ _
  · exact x.entries_motionStart _

@[simp] theorem Lane.entries_passGuide : x.passGuide.entries = x.entries := Lane.entries_updTube _ fun _ => rfl

@[simp] theorem Lane.entries_holding (now : Nat) : (x.holding now).entries = x.entries :=
  x.entries_updFlags fun f => { f with holdOccurred := true }

/-- The end of a control period changes the pull speeds of the record alone (R29). -/
theorem Lane.entries_controlPeriod (tight : Bool) : ((x.periodMeasure.pullSpeeds).drivePeriod tight).entries = x.entries := by
  have hdrive : ∀ y : Lane, (y.drivePeriod tight).entries = y.entries := fun y => by
    unfold Lane.drivePeriod
    split <;> rfl
  have hspeeds : ∀ y : Lane, y.pullSpeeds.entries = y.entries := fun y => by
    unfold Lane.pullSpeeds
    dsimp only
    split
    · exact y.entries_updTube fun _ => rfl
    · rfl
  rw [hdrive, hspeeds]
  rfl

end

/-! ### What the station line leaves alone

A received byte and a reply change neither lane. -/

theorem State.lane_withLink (s : State) (k : Link) (l : LaneId) : ({ s with link := k } : State).lane l = s.lane l :=
  State.lane_congr rfl rfl l

theorem State.lane_withPool (s : State) (p : Pool) (l : LaneId) : ({ s with pool := p } : State).lane l = s.lane l :=
  State.lane_congr rfl rfl l

theorem State.signOfLife_lane (s : State) (l : LaneId) : s.signOfLife.lane l = s.lane l := by
  unfold State.signOfLife
  dsimp only
  split
  · exact s.lane_withLink _ l
  · exact (((State.formNotice_reports _ _).trans (State.kick_reports _)).lane l).trans (s.lane_withLink _ l)

theorem State.frameByte_lane (s : State) (got : List Byte) (l : LaneId) : (s.frameByte got).lane l = s.lane l := by
  unfold State.frameByte State.judge
  split
  · exact s.badFrame_lane l
  · split
    · split
      · exact (State.lane_withLink _ _ l).trans ((State.signOfLife_lane _ l).trans (s.lane_withLink _ l))
      · exact s.badFrame_lane l
    · exact s.lane_withLink _ l

theorem State.rxByte_lane (s : State) (b : Byte) (l : LaneId) : (s.rxByte b).lane l = s.lane l := by
  unfold State.rxByte
  split
  · split <;> exact s.lane_withLink _ l
  · exact s.frameByte_lane _ l

theorem State.receive_lane (s : State) (bytes : List Byte) (l : LaneId) : (s.receive bytes).lane l = s.lane l := by
  refine (State.lane_withLink _ _ l).trans ?_
  induction bytes generalizing s with
  | nil => rfl
  | cons b bytes ih => exact (ih (s.rxByte b)).trans (s.rxByte_lane b l)

theorem State.answerFlight_lane (s : State) (code : ReplyCode) (body : ReplyBody) (l : LaneId) :
    (s.answerFlight code body).lane l = s.lane l := by
  unfold State.answerFlight
  split
  · exact ((State.placeReply_reports _ _).lane l).trans (s.lane_withLink _ l)
  · rfl

/-! ### Both lanes -/

/-- The catalogues of both lanes are legal. -/
def State.Catalogued (s : State) : Prop := ∀ l, (s.lane l).catalogueLegal

theorem State.cataloguesLegal_iff (s : State) : s.cataloguesLegal ↔ s.Catalogued :=
  ⟨fun ⟨ha, hb⟩ l => by cases l <;> assumption, fun h => ⟨h .a, h .b⟩⟩

/-- Power-on drops both tubes (R186). -/
theorem State.poweredOn_catalogued (s : State) : s.poweredOn.Catalogued := fun l => by
  rw [State.poweredOn_lane]
  exact .of_none rfl

namespace State.Catalogued

variable {s t : State} {l : LaneId}

/-- Both lanes as they were. -/
theorem of_lanes (h : s.Catalogued) (ht : ∀ l, t.lane l = s.lane l) : t.Catalogued := fun l => by
  rw [ht]
  exact h l

theorem reports (h : s.Catalogued) (ht : s.Reports t) : t.Catalogued := h.of_lanes ht.lane

theorem emit (h : s.Catalogued) (l : LaneId) (kind : NoticeKind) (cause : Option FaultCause) : (s.emit l kind cause).Catalogued :=
  h.reports (s.emit_reports l kind cause)

theorem reach (h : s.Catalogued) (due : Nat) : (s.reach due).Catalogued := h.of_lanes (s.reach_lane due)

theorem setLane (h : s.Catalogued) (l : LaneId) {x : Lane} (hx : x.catalogueLegal) : (s.setLane l x).Catalogued := fun k => by
  obtain rfl | rfl := eq_or_eq_otherLane l k
  · rwa [State.lane_setLane]
  · rw [State.lane_setLane_other]
    exact h _

theorem upd (h : s.Catalogued) (l : LaneId) {f : Lane → Lane} (hf : (f (s.lane l)).catalogueLegal) : (s.upd l f).Catalogued :=
  h.setLane l hf

/-- A lane replaced by one with the same catalogue. -/
theorem same (h : s.Catalogued) (l : LaneId) {x : Lane} (hx : x.entries = (s.lane l).entries) : (s.setLane l x).Catalogued :=
  h.setLane l ((h l).of_entries hx)

/-- A change of a lane outside its catalogue. -/
theorem frame (h : s.Catalogued) (l : LaneId) {f : Lane → Lane} (hf : (f (s.lane l)).entries = (s.lane l).entries) :
    (s.upd l f).Catalogued := h.same l hf

/-- A change of the tube's record outside its catalogue. -/
theorem frameTube (h : s.Catalogued) (l : LaneId) {f : Tube → Tube}
    (hf : ∀ t, ((f t).catalogue, (f t).joins) = (t.catalogue, t.joins)) : (s.upd l fun x => x.updTube f).Catalogued :=
  h.frame l (Lane.entries_updTube _ hf)

/-- A change of the tube's record that keeps its catalogue legal. -/
theorem updTube (h : s.Catalogued) (l : LaneId) {f : Tube → Tube} (hf : ∀ t, t.catalogueLegal → (f t).catalogueLegal) :
    (s.upd l fun x => x.updTube f).Catalogued := h.upd l ((h l).updTube hf)

/-- A list of operations that each keep it. -/
theorem foldl {α : Type} {f : State → α → State} (hf : ∀ {s : State} a, s.Catalogued → (f s a).Catalogued) (as : List α)
    (h : s.Catalogued) : (as.foldl f s).Catalogued := by
  induction as generalizing s with
  | nil => exact h
  | cons a as ih => exact ih (hf a h)

/-! ### Jobs and screening: an indication joins where the job queue is full (R106) -/

theorem appendJob (h : s.Catalogued) (l : LaneId) (j : Job) : (s.appendJob l j).Catalogued := fun k => by
  obtain rfl | rfl := eq_or_eq_otherLane l k
  · obtain ⟨jobs, hl⟩ := s.appendJob_lane k j
    rw [hl]
    exact h k
  · rw [(s.appendJob_keeps l j).other]
    exact h _

theorem closeSpan (h : s.Catalogued) (l : LaneId) (ch : Nat) (span : List SpanEntry) (long truncated : Bool) :
    (s.closeSpan l ch span long truncated).Catalogued := by
  unfold State.closeSpan State.handOn
  dsimp only
  split
  · split
    · exact h.appendJob l _
    · exact h.upd l ((h l).updTube fun _ ht => ht.join _)
  · exact h

theorem screenChannel (h : s.Catalogued) (line : ChanLine) (l : LaneId) (ch : Nat) : (s.screenChannel line l ch).Catalogued := by
  unfold State.screenChannel
  dsimp only
  split
  · split
    · exact (h.frame l rfl).closeSpan l _ _ _ _
    · exact h.frame l rfl
  · exact h

theorem screenLine (h : s.Catalogued) (l : LaneId) (line : ChanLine) : (s.screenLine l line).1.Catalogued :=
  (foldl (fun ch ht => ht.screenChannel line l ch) channelNumbers h).frame l rfl

theorem screenEndChannel (h : s.Catalogued) (l : LaneId) (ch : Nat) : (s.screenEndChannel l ch).Catalogued := by
  have closed : ∀ k : Screen, (s.upd l fun y => { y with screens := y.screens.set ch k }).Catalogued := fun _ => h.frame l rfl
  unfold State.screenEndChannel
  dsimp only
  split
  · split
    · exact h
    · exact closed _
    all_goals exact closeSpan ((closed _).frame l (Lane.entries_updFlags _ _)) l _ _ _ _
  · exact h

theorem screenEnd (h : s.Catalogued) (l : LaneId) : (s.screenEnd l).Catalogued :=
  (foldl (fun ch ht => ht.screenEndChannel l ch) channelNumbers h).frame l rfl

/-! ### The assemblers and line capture (chapters 9 and 2) -/

theorem setBlock (h : s.Catalogued) (l : LaneId) (kind : BlockKind) (b : Lane → Option Block) :
    (s.upd l fun x => x.setBlock kind (b x)).Catalogued := h.frame l (Lane.entries_setBlock _ _ _)

theorem closeBlock (h : s.Catalogued) (l : LaneId) (kind : BlockKind) : (s.closeBlock l kind).Catalogued := by
  obtain ⟨_, hc⟩ | ⟨b, _, hc⟩ := s.closeBlock_cases l kind <;> rw [hc]
  · exact h
  · exact (h.setBlock l kind _).reports (State.enqueue_reports _ _)

theorem openBlock (h : s.Catalogued) (l : LaneId) (kind : BlockKind) (line : RingLine) : (s.openBlock l kind line).Catalogued := by
  unfold State.openBlock
  split
  · exact (h.setBlock l kind _).reports (State.takeBuffer_reports _)
  · exact h

theorem appendLine (h : s.Catalogued) (l : LaneId) (kind : BlockKind) (line : RingLine) : (s.appendLine l kind line).Catalogued := by
  unfold State.appendLine
  split
  · exact h.frameTube l fun _ => rfl
  · dsimp only
    split
    · exact (h.setBlock l kind _).closeBlock l kind
    · exact h.setBlock l kind _

theorem placeLine (h : s.Catalogued) (l : LaneId) (kind : BlockKind) (line : RingLine) : (s.placeLine l kind line).Catalogued := by
  have closed : (if (s.lane l).correctionMoved kind line then s.closeBlock l kind else s).Catalogued := by
    split
    · exact h.closeBlock l kind
    · exact h
  have opened : ∀ {t : State}, t.Catalogued → (if ((t.lane l).block kind).isNone then t.openBlock l kind line else t).Catalogued :=
    fun {t} ht => by
      split
      · exact ht.openBlock l kind line
      · exact ht
  exact (opened closed).appendLine l kind line

theorem lineAssembler (h : s.Catalogued) (l : LaneId) (line : ChanLine) (m : RegionMarks) :
    (s.lineAssembler l line m).Catalogued := by
  unfold State.lineAssembler
  dsimp only
  split
  · exact h
  · exact h.placeLine l _ _

theorem placeRegion (h : s.Catalogued) (l : LaneId) (line : ChanLine) (m : RegionMarks) : (s.placeRegion l line m).Catalogued := by
  refine foldl (fun k ht => ht.placeLine l .region k) _ ?_
  split
  · exact h.frame l (f := fun y => { y with ring := [] }) rfl
  · exact h

theorem regionAssembler (h : s.Catalogued) (l : LaneId) (line : ChanLine) (m : RegionMarks) :
    (s.regionAssembler l line m).Catalogued := by
  by_cases hmask : (s.lane l).mask .region = []
  · rw [State.regionAssembler_empty hmask]
    exact h
  cases hwithin : m.within with
  | false =>
    rw [State.regionAssembler_outside hmask hwithin]
    exact h.frame l rfl
  | true =>
    rw [State.regionAssembler_within hmask hwithin]
    split
    · exact (h.placeRegion l line m).closeBlock l .region
    · exact h.placeRegion l line m

theorem assemblersEnd (h : s.Catalogued) (l : LaneId) : (s.assemblersEnd l).Catalogued :=
  ((h.closeBlock l .full).closeBlock l .region).frame l rfl

theorem giveUpBlock (h : s.Catalogued) (l : LaneId) (kind : BlockKind) : (s.giveUpBlock l kind).Catalogued := by
  unfold State.giveUpBlock
  split
  · exact (h.setBlock l kind _).reports (State.returnBuffer_reports _)
  · exact h

theorem commitLine (h : s.Catalogued) (l : LaneId) (c : CapLine) : (s.commitLine l c).Catalogued := by
  have taken : (s.upd l fun x =>
      ((x.updTube fun t => t.countCommit s.clock c).storeLine c).landmarkLine ((s.lane l).chanLine c)).Catalogued := by
    refine h.frame l ?_
    rw [Lane.entries_landmarkLine, Lane.entries_storeLine]
    exact Lane.entries_updTube _ fun _ => rfl
  exact ((taken.screenLine l _).lineAssembler l _ _).regionAssembler l _ _

theorem captureCycle (h : s.Catalogued) (l : LaneId) (c : Cycle) : (s.captureCycle l c).Catalogued := by
  unfold State.captureCycle
  dsimp only
  split
  · exact foldl (fun c ht => ht.commitLine l c) _ (h.frame l (Lane.entries_updTube _ fun _ => rfl))
  · exact h

theorem flush (h : s.Catalogued) (l : LaneId) : (s.flush l).Catalogued :=
  (foldl (fun c ht => ht.commitLine l c) _ (h.frame l rfl)).frame l rfl

/-! ### The lane controller (chapter 8) -/

/-- FINISH's wait may end with the location pass (R148, R113). -/
theorem finishWait (h : s.Catalogued) (l : LaneId) : (s.finishWait l).Catalogued := by
  rw [State.finishWait_eq]
  refine h.updTube l fun u hu => ?_
  split
  · exact hu.locate _
  · exact hu

theorem enterFinish (h : s.Catalogued) (l : LaneId) : (s.enterFinish l).Catalogued := (h.frame l rfl).finishWait l

theorem enterFaulted (h : s.Catalogued) (l : LaneId) (cause : FaultCause) : (s.enterFaulted l cause).Catalogued :=
  (h.frame l rfl).emit l _ _

/-- A tube marked with a fault enters FINISH. -/
theorem markFinish (h : s.Catalogued) (l : LaneId) (c : FaultCause) :
    ((s.upd l fun x => x.updTube fun t => t.mark c).enterFinish l).Catalogued := (h.frame l (Lane.entries_mark _ c)).enterFinish l

theorem withdrawResult (h : s.Catalogued) (l : LaneId) (r : StartResult) : (s.withdrawResult l r).Catalogued := by
  cases r with
  | started => exact h
  | homeArrival => exact h.enterFinish l
  | refused => exact h.markFinish l _
  | homeLimit => exact enterFinish (h.frame l (Lane.entries_marked _ _ _)) l

theorem startWithdraw (h : s.Catalogued) (l : LaneId) : (s.startWithdraw l).Catalogued :=
  withdrawResult (h.same l ((s.lane l).toWithdraw.entries_motionStart _)) l _

theorem retargetWithdraw (h : s.Catalogued) (l : LaneId) : (s.retargetWithdraw l).Catalogued :=
  withdrawResult (h.same l (s.lane l).toWithdraw.entries_retarget) l _

/-- The end of a pull flushes the window and closes what is open (R146). -/
theorem endPull (h : s.Catalogued) (l : LaneId) (o : TubeOutcome) : (s.endPull l o).Catalogued := by
  have ended : ((s.flush l).upd l Lane.landmarkEnd).Catalogued := (h.flush l).frame l (Lane.entries_landmarkEnd _)
  exact (((ended.screenEnd l).assemblersEnd l).emit l _ _).frame l (Lane.entries_decideOutcome _ _)

theorem testStopB (h : s.Catalogued) (l : LaneId) : (s.testStopB l).Catalogued := by
  unfold State.testStopB
  dsimp only
  split
  · split
    · exact ((h.frame l rfl).endPull l _).retargetWithdraw l
    · exact h
  · exact h

theorem motorFaultEvent (h : s.Catalogued) (l : LaneId) : (s.motorFaultEvent l).Catalogued := by
  unfold State.motorFaultEvent
  dsimp only
  split
  case h_1 | h_2 => exact (h.frame l (Lane.entries_failed _ _ _)).enterFinish l
  case h_3 => exact enterFinish (h.frame l ((Lane.entries_failed _ _ _).trans (Lane.entries_missRest _))) l
  case h_4 => exact (h.endPull l _).markFinish l _
  case h_5 => exact h.markFinish l _
  case h_6 => exact h.enterFaulted l _
  all_goals exact h

theorem stallEvent (h : s.Catalogued) (l : LaneId) (position : Int) : (s.stallEvent l position).Catalogued := by
  unfold State.stallEvent
  split
  · refine startWithdraw (h.frameTube l ?_) l
    exact fun _ => rfl
  · exact (h.endPull l _).markFinish l _
  · exact enterFinish (h.frame l (Lane.entries_marked _ _ _)) l
  · exact h.enterFaulted l _
  all_goals exact h

theorem enterPull (h : s.Catalogued) (l : LaneId) : (s.enterPull l).Catalogued := by
  have started := (h.same l ((s.lane l).toPull.entries_motionStart .pull)).emit l .pullStarted none
  unfold State.enterPull
  dsimp only
  split
  · exact started.motorFaultEvent l
  · exact started.testStopB l
  all_goals exact started

theorem enterTurn (h : s.Catalogued) (l : LaneId) : (s.enterTurn l).Catalogued := by
  have turned : (s.upd l fun x => x.turned (s.tubeLayout l) s.clock).Catalogued := h.upd l ((h l).turned _ _)
  rw [State.enterTurn_eq]
  split
  · exact turned.enterPull l
  · exact turned

theorem testStopA (h : s.Catalogued) (l : LaneId) : (s.testStopA l).Catalogued := by
  unfold State.testStopA
  dsimp only
  split
  · split
    · exact h.enterTurn l
    · exact h
  · exact h

theorem testStops (h : s.Catalogued) (l : LaneId) : (s.testStops l).Catalogued := (h.testStopA l).testStopB l

theorem guideTest (h : s.Catalogued) (l : LaneId) : (s.guideTest l).Catalogued := by
  have hcount : ((s.lane l).updCtl fun c => { c with attempts := c.attempts + 1 }).entries = (s.lane l).entries := rfl
  unfold State.guideTest
  dsimp only
  generalize (s.lane l).updCtl (fun c => { c with attempts := c.attempts + 1 }) = x at *
  have started := h.same l (((x.passGuide.entries_motionStart .insert).trans x.entries_passGuide).trans hcount)
  split
  · split
    · exact started.motorFaultEvent l
    · exact started.testStopA l
    all_goals exact started
  · split
    · exact enterFinish (h.same l ((x.entries_decideOutcome _).trans hcount)) l
    · exact h.same l hcount

/-- A taken order opens a record with an empty catalogue (R141). -/
theorem openTube (h : s.Catalogued) (l : LaneId) (o : Order) (rest : List Order) : (s.openTube l o rest).Catalogued := by
  have opened : ((s.upd l fun x => x.clearDetector.updCtl fun c =>
      { c with worklist := rest, tube := some (Tube.open o (s.stops l o)) }).emit l .tubeStarted none).Catalogued :=
    (h.upd l (.of_some rfl (.of_empty rfl))).emit l _ _
  unfold State.openTube
  dsimp only
  split
  · exact (opened.frame l rfl).guideTest l
  · exact (opened.frame l (Lane.entries_decideOutcome _ _)).enterFinish l

theorem takeFrontOrder (h : s.Catalogued) (l : LaneId) : (s.takeFrontOrder l).Catalogued := by
  unfold State.takeFrontOrder
  split
  · exact h.openTube l _ _
  · exact h

theorem homeArrivalEvent (h : s.Catalogued) (l : LaneId) : (s.homeArrivalEvent l).Catalogued := by
  unfold State.homeArrivalEvent
  split
  · exact h.enterFinish l
  · exact h.frame l rfl
  all_goals exact h

theorem inputChange (h : s.Catalogued) (l : LaneId) (i : InputId) : (s.inputChange l i).Catalogued := by
  have changed : (s.upd l fun y =>
      { y with drive := y.drive.setInput i { (s.lane l).drive.input i with active := ((s.lane l).drive.input i).raw } }).Catalogued :=
    h.frame l rfl
  unfold State.inputChange
  dsimp only
  split
  · split
    · exact changed
    · exact changed.frame l rfl
  · split
    · exact (changed.frame l rfl).homeArrivalEvent l
    · exact changed
  · split
    · exact (changed.frame l rfl).motorFaultEvent l
    · exact changed

theorem settleInput (h : s.Catalogued) (l : LaneId) (i : InputId) : (s.settleInput l i).Catalogued := by
  unfold State.settleInput
  dsimp only
  split
  · exact h.inputChange l i
  · exact h

theorem enterHeld (h : s.Catalogued) (l : LaneId) : (s.enterHeld l).Catalogued := by
  rw [State.enterHeld_eq]
  exact (h.frame l (Lane.entries_holding _ _)).emit l _ _

theorem holdIf (h : s.Catalogued) (l : LaneId) : (s.holdIf l).Catalogued := by
  unfold State.holdIf
  split
  · exact h.enterHeld l
  · exact h

theorem holdIfLost (h : s.Catalogued) (l : LaneId) : (s.holdIfLost l).Catalogued := by
  unfold State.holdIfLost
  split
  · exact h
  · exact h.holdIf l

theorem resumeMotion (h : s.Catalogued) (l : LaneId) (p : MotionPhase) : (s.resumeMotion l p).Catalogued := by
  have started := h.same l ((s.lane l).entries_motionStart p)
  unfold State.resumeMotion
  dsimp only
  split
  · exact started.testStops l
  · exact started.motorFaultEvent l
  · exact started.homeArrivalEvent l
  · exact started.withdrawResult l _

theorem resumeLane (h : s.Catalogued) (l : LaneId) : (s.resumeLane l).Catalogued := by
  unfold State.resumeLane
  split
  · exact h
  · rename_i st _
    have resumed : ((s.upd l fun x => x.unhold st s.clock).emit l .resumed none).Catalogued := (h.frame l rfl).emit l _ _
    dsimp only
    split
    case h_1 | h_2 | h_3 => exact resumed.resumeMotion l _
    case h_4 =>
      split
      · exact resumed.frame l rfl
      · exact resumed.resumeMotion l _
    all_goals exact resumed

theorem abortLane (h : s.Catalogued) (l : LaneId) (ht : s.abortLane l = some t) : t.Catalogued := by
  unfold State.abortLane at ht
  dsimp only at ht
  split at ht <;> cases ht
  · exact enterFinish (h.frame l (Lane.entries_decideOutcome _ _)) l
  · exact startWithdraw (h.frame l (Lane.entries_decideOutcome _ _)) l
  · exact startWithdraw (h.frame l ((Lane.entries_decideOutcome _ _).trans (Lane.entries_missRest _))) l
  · exact (h.endPull l _).retargetWithdraw l
  all_goals exact h

theorem startRetract (h : s.Catalogued) (l : LaneId) : (s.startRetract l).Catalogued := by
  have started := h.same l ((s.lane l).toRetract.entries_motionStart .retract)
  unfold State.startRetract
  dsimp only
  split
  · exact started.motorFaultEvent l
  all_goals exact started

/-- LANE_RESET drops the tube (R155). -/
theorem resetLane (h : s.Catalogued) (l : LaneId) : (s.resetLane l).Catalogued := by
  have reset : ({ s.upd l Lane.resetLane with engine := (s.upd l Lane.resetLane).engine.discard l } : State).Catalogued :=
    (h.upd l (f := Lane.resetLane) (.of_none rfl)).of_lanes (State.lane_congr rfl rfl)
  exact ((reset.giveUpBlock l .full).giveUpBlock l .region).emit l _ _

/-- The tube leaves the lane (R148). -/
theorem leaveFinish (h : s.Catalogued) (l : LaneId) (fault : Option FaultCause) : (s.leaveFinish l fault).Catalogued := by
  have closed : (s.upd l Lane.closeTube).Catalogued := h.upd l (.of_none rfl)
  unfold State.leaveFinish
  dsimp only
  split
  · exact closed.enterFaulted l _
  · exact closed.frame l rfl

/-! ### The measurement engine (chapter 4) -/

/-- A measured entry joins (R80). -/
theorem deliver (h : s.Catalogued) (l : LaneId) (j : Job) : (s.deliver l j).Catalogued := by
  cases j with
  | measure tag ind => exact h.upd l ((h l).updTube fun _ ht => ht.join _)
  | span ch amplitude phase values =>
    unfold State.deliver State.deliverSpan
    dsimp only
    split
    · exact (h.frame l rfl).of_lanes (State.answerFlight_lane _ _ _)
    · exact h.of_lanes (s.answerFlight_lane _ _)
  | solve ch ps qs =>
    unfold State.deliver State.deliverSolve
    dsimp only
    split
    · exact (h.frame l rfl).of_lanes (State.answerFlight_lane _ _ _)
    · exact h.of_lanes (s.answerFlight_lane _ _)

theorem engineChoose (h : s.Catalogued) : s.engineChoose.Catalogued := fun l => by
  obtain ⟨_, _, _, _, hlane⟩ := s.engineChoose_frame
  rw [hlane]
  exact h l

end State.Catalogued

/-! ### Events -/

section

variable {s t : State} {l : LaneId}

theorem execJobCompletion_catalogued (h : s.Catalogued) (ht : execJobCompletion s = .next t) : t.Catalogued := by
  cases ht
  split
  · exact h
  · rename_i e _
    have delivered : (if e.discarded then s.reach e.doneAt else (s.reach e.doneAt).deliver e.lane e.job).Catalogued := by
      split
      · exact h.reach _
      · exact (h.reach _).deliver _ _
    exact delivered.engineChoose.finishWait _

theorem execFrameTimeout_catalogued (h : s.Catalogued) (ht : execFrameTimeout s = .next t) : t.Catalogued := by
  cases ht
  split
  · exact (h.reach _).of_lanes (State.badFrame_lane _)
  · exact h

/-- The silence holds both lanes (R151, R176). -/
theorem execSilenceTimeout_catalogued (h : s.Catalogued) (ht : execSilenceTimeout s = .next t) : t.Catalogued := by
  cases ht
  split
  · exact (((h.reach _).of_lanes (State.loseLink_lane _)).holdIf .a).holdIf .b
  · exact h

theorem execTransmissionEnd_catalogued (h : s.Catalogued) (ht : execTransmissionEnd s = .next t) : t.Catalogued := by
  cases ht
  split
  · exact h
  · exact (h.reach _).reports (State.choose_reports _)
  · exact ((h.reach _).of_lanes (State.lane_withPool _ _)).reports
      ((State.returnBuffer_reports _).trans (State.choose_reports _))

theorem State.Catalogued.moveCount (h : s.Catalogued) (l : LaneId) (count : Int) : (s.moveCount l count).Catalogued := by
  have tested : (State.testStops (s.upd l fun x => { x with pos := { x.pos with count := count } }) l).Catalogued :=
    (h.frame l rfl).testStops l
  unfold State.moveCount State.testHomeLimit
  dsimp only
  split
  · exact (tested.frame l rfl).withdrawResult l _
  · exact tested

theorem execEdge_catalogued {phase : EncPhase} (h : s.Catalogued) (ht : execEdge l phase s = .next t) : t.Catalogued := by
  have accepted : (s.upd l fun x => x.accept phase).Catalogued := h.frame l rfl
  cases ht
  split
  · exact accepted.frame l rfl
  · split
    · exact accepted.moveCount l _
    · exact accepted

theorem execControlPeriodEnd_catalogued (h : s.Catalogued) (ht : execControlPeriodEnd l s = .next t) : t.Catalogued := by
  cases ht
  exact (h.reach _).frame l (Lane.entries_controlPeriod _ _)

theorem execStall_catalogued (h : s.Catalogued) (ht : execStall l s = .next t) : t.Catalogued := by
  cases ht
  split
  · exact (h.frame l rfl).stallEvent l _
  · exact h

theorem execDebouncedStateChange_catalogued {i : InputId} (h : s.Catalogued) (ht : execDebouncedStateChange l i s = .next t) :
    t.Catalogued := by
  cases ht
  split
  · exact h
  · exact (h.reach _).inputChange l i

theorem execSwitchEnd_catalogued (h : s.Catalogued) (ht : execSwitchEnd l s = .next t) : t.Catalogued := by
  cases ht
  split
  · exact (h.reach _).frame l rfl
  · exact h

theorem execSettleEnd_catalogued (h : s.Catalogued) (ht : execSettleEnd l s = .next t) : t.Catalogued := by
  cases ht
  split
  · exact (h.reach _).frame l rfl
  · exact h

theorem State.Catalogued.endSlot (h : s.Catalogued) (l : LaneId) (r : Running) (k : Sample) : (s.endSlot l r k).Catalogued := by
  unfold State.endSlot
  dsimp only
  split
  · exact (h.reach _).frame l rfl
  · exact ((h.reach _).frame l rfl).captureCycle l _

theorem execSlotEnd_catalogued {d : Demod} (h : s.Catalogued) (ht : execSlotEnd l d s = .next t) : t.Catalogued := by
  cases ht
  split
  · exact h.endSlot l _ _
  · exact h

theorem execGuidePoll_catalogued (h : s.Catalogued) (ht : execGuidePoll l s = .next t) : t.Catalogued := by
  cases ht
  split
  · exact ((h.reach _).frame l rfl).guideTest l
  · exact h

theorem execTurnDwellEnd_catalogued (h : s.Catalogued) (ht : execTurnDwellEnd l s = .next t) : t.Catalogued := by
  cases ht
  split
  · exact (h.reach _).enterPull l
  · exact h

theorem execReportRecord_catalogued (h : s.Catalogued) (ht : execReportRecord l s = .next t) : t.Catalogued := by
  cases ht
  split
  · split
    · unfold State.report
      split
      · refine State.Catalogued.reports (h.frameTube l ?_) (State.queueRecord_reports _ _)
        exact fun _ => rfl
      · exact (h.reports (State.queueRecord_reports _ _)).leaveFinish l _
    · exact h
  · exact h

/-! ### Requests -/

theorem State.Catalogued.handle {kind : Nat → Bool} {f : List Byte → State → Handled} (h : s.Catalogued)
    (hf : ∀ p {u : State}, u.Catalogued → (f p u).Meets State.Catalogued)
    (ht : Host.Outcome.next (φ := Fault) (ρ := Refusal) (s.handle kind f) = .next t) : t.Catalogued := by
  cases ht
  obtain hid | ⟨p, _, _, htaken⟩ := s.handle_cases kind f
  · rw [hid]
    exact h
  · have popped : s.popRequest.Catalogued := h.of_lanes s.popRequest_lane
    have met := hf p popped
    rw [htaken]
    generalize f p s.popRequest = o at met
    cases o with
    | refused code => exact popped.reports (State.placeReply_reports _ _)
    | done u body => exact State.Catalogued.reports met (State.placeReply_reports _ _)
    | inFlight u => exact State.Catalogued.of_lanes met (u.working_lane _)

variable (p : List Byte)

theorem handleSetLink_catalogued (h : s.Catalogued) : (handleSetLink p s).Meets State.Catalogued := by
  refine forUnit_meets ?_
  split
  · refine State.Catalogued.reports ?_ (State.testPool_reports _)
    exact h.of_lanes (State.lane_congr rfl rfl)
  · trivial

theorem handleSetLayout_catalogued (h : s.Catalogued) : (handleSetLayout p s).Meets State.Catalogued := by
  refine forUnit_meets (Handled.meets_of_check (Handled.meets_of_check ?_))
  split
  · exact h.of_lanes (State.lane_congr rfl rfl)
  · trivial

theorem handleSetScan_catalogued (h : s.Catalogued) : (handleSetScan p s).Meets State.Catalogued := by
  refine forSetup_meets fun l => ?_
  split
  · exact h.frame l rfl
  · trivial

theorem handleSetChannel_catalogued (h : s.Catalogued) : (handleSetChannel p s).Meets State.Catalogued := by
  refine forSetup_meets fun l => Handled.meets_of_check ?_
  split
  · exact h.frame l rfl
  · trivial

theorem handleSetMix_catalogued (h : s.Catalogued) : (handleSetMix p s).Meets State.Catalogued := by
  have mixed : ∀ (l : LaneId) (ch : Nat) (m : MixChannel), (s.setMix l ch m).Meets State.Catalogued := fun l _ _ => h.frame l rfl
  refine forSetup_meets fun l => Handled.meets_of_check ?_
  split
  · exact mixed l _ _
  · split
    · split
      · exact mixed l _ _
      · trivial
    · trivial

theorem handleSetLandmark_catalogued (h : s.Catalogued) : (handleSetLandmark p s).Meets State.Catalogued := by
  refine forSetup_meets fun l => ?_
  split
  · exact h.frame l rfl
  · trivial

theorem handleSetMotion_catalogued (h : s.Catalogued) : (handleSetMotion p s).Meets State.Catalogued := by
  refine forSetup_meets fun l => ?_
  split
  · exact State.Catalogued.foldl (fun i ht => ht.settleInput l i) allInputs (h.frame l rfl)
  · trivial

theorem handleQueueTube_catalogued (h : s.Catalogued) : (handleQueueTube p s).Meets State.Catalogued := by
  refine forLaneLength_meets fun l => ?_
  have queued : ((s.upd l fun y => y.appendOrder (orderAt p)).takeFrontOrder l).Catalogued := (h.frame l rfl).takeFrontOrder l
  exact Handled.meets_of_check (Handled.meets_of_check (Handled.meets_of_check (Handled.meets_of_check
    (Handled.meets_of_check queued))))

theorem handleCancelTube_catalogued (h : s.Catalogued) : (handleCancelTube p s).Meets State.Catalogued := by
  refine forLaneLength_meets fun l => ?_
  dsimp only
  split
  · exact h.frame l rfl
  · trivial

theorem handleAbort_catalogued (h : s.Catalogued) : (handleAbort p s).Meets State.Catalogued := by
  refine forLaneLength_meets fun l => ?_
  split
  · rename_i u hu
    exact (h.abortLane l hu).holdIfLost l
  · trivial

theorem handleHold_catalogued (h : s.Catalogued) : (handleHold p s).Meets State.Catalogued := by
  refine forLaneLength_meets fun l => ?_
  dsimp only
  split
  · exact h.enterHeld l
  · split
    · exact h
    · trivial

theorem handleResume_catalogued (h : s.Catalogued) : (handleResume p s).Meets State.Catalogued := by
  refine forLaneLength_meets fun l => ?_
  split
  · exact (h.resumeLane l).holdIfLost l
  · trivial

theorem handleRetract_catalogued (h : s.Catalogued) : (handleRetract p s).Meets State.Catalogued := by
  refine forLaneLength_meets fun l => ?_
  dsimp only
  split
  · exact (h.startRetract l).holdIfLost l
  · trivial

theorem handleSpanCal_catalogued (h : s.Catalogued) : (handleSpanCal p s).Meets State.Catalogued :=
  forSetup_meets fun l => Handled.meets_of_check (Handled.meets_of_check (Handled.meets_of_check (Handled.meets_of_check
    (h.appendJob l _))))

theorem handleSolveMix_catalogued (h : s.Catalogued) : (handleSolveMix p s).Meets State.Catalogued := by
  refine forSetup_meets fun l => ?_
  dsimp only
  split
  · exact Handled.meets_of_check (Handled.meets_of_check (h.appendJob l _))
  · trivial

/-! ### Every step -/

theorem exec_catalogued {c : Instr} (h : s.Catalogued) (ht : exec c s = .next t) : t.Catalogued := by
  cases c with
  | powerOn =>
    cases ht
    exact s.poweredOn_catalogued
  | rawLevelChange l i level => cases ht; exact h.frame l rfl
  | debouncedStateChange l i => exact execDebouncedStateChange_catalogued h ht
  | edge l phase => exact execEdge_catalogued h ht
  | controlPeriodEnd l => exact execControlPeriodEnd_catalogued h ht
  | stall l => exact execStall_catalogued h ht
  | switchEnd l => exact execSwitchEnd_catalogued h ht
  | settleEnd l => exact execSettleEnd_catalogued h ht
  | slotEnd l d => exact execSlotEnd_catalogued h ht
  | guidePoll l => exact execGuidePoll_catalogued h ht
  | turnDwellEnd l => exact execTurnDwellEnd_catalogued h ht
  | takeOrder l => cases ht; exact h.takeFrontOrder l
  | jobCompletion => exact execJobCompletion_catalogued h ht
  | reportRecord l => exact execReportRecord_catalogued h ht
  | frameReceived bytes | syncWordFound bytes | frameLengthOutOfRange bytes => cases ht; exact h.of_lanes (s.receive_lane bytes)
  | frameTimeout => exact execFrameTimeout_catalogued h ht
  | silenceTimeout => exact execSilenceTimeout_catalogued h ht
  | transmissionEnd => exact execTransmissionEnd_catalogued h ht
  | badKind => exact h.handle (f := fun _ _ => .refused .badKind) (fun _ _ _ => trivial) ht
  | status => exact h.handle (f := handleStatus) (fun _ _ hu => forUnit_meets hu) ht
  | setLink => exact h.handle (fun p _ hu => handleSetLink_catalogued p hu) ht
  | setLayout => exact h.handle (fun p _ hu => handleSetLayout_catalogued p hu) ht
  | setScan => exact h.handle (fun p _ hu => handleSetScan_catalogued p hu) ht
  | setChannel => exact h.handle (fun p _ hu => handleSetChannel_catalogued p hu) ht
  | setMix => exact h.handle (fun p _ hu => handleSetMix_catalogued p hu) ht
  | setLandmark => exact h.handle (fun p _ hu => handleSetLandmark_catalogued p hu) ht
  | setMotion => exact h.handle (fun p _ hu => handleSetMotion_catalogued p hu) ht
  | queueTube => exact h.handle (fun p _ hu => handleQueueTube_catalogued p hu) ht
  | cancelTube => exact h.handle (fun p _ hu => handleCancelTube_catalogued p hu) ht
  | abort => exact h.handle (fun p _ hu => handleAbort_catalogued p hu) ht
  | hold => exact h.handle (fun p _ hu => handleHold_catalogued p hu) ht
  | resume => exact h.handle (fun p _ hu => handleResume_catalogued p hu) ht
  | retract => exact h.handle (fun p _ hu => handleRetract_catalogued p hu) ht
  | laneReset => exact h.handle (f := handleLaneReset) (fun _ _ hu => forLaneLength_meets fun l => hu.resetLane l) ht
  | spanCal => exact h.handle (fun p _ hu => handleSpanCal_catalogued p hu) ht
  | solveMix => exact h.handle (fun p _ hu => handleSolveMix_catalogued p hu) ht

theorem step_catalogued (h : s.Catalogued) (ht : step s = .next t) : t.Catalogued := by
  unfold step at ht
  split at ht
  · cases ht
    exact h.of_lanes s.idle_lane
  · exact exec_catalogued (h.of_lanes (s.withPending_lane _)) ht

end

/-- Settles O10: `State.Catalogued` is the statement's property, lane by lane; `step_catalogued` keeps it. -/
theorem everyStepKeepsTheCatalogues : Obligations.EveryStepKeepsTheCatalogues := fun s t hs hstep =>
  t.cataloguesLegal_iff.2 (step_catalogued (s.cataloguesLegal_iff.1 hs) hstep)

end Sys2Proof.Machine

/-! The motor law (R121, R123, R124, R26, R151): every step keeps drive, brake, lane state and armed stops in agreement. -/

namespace Sys2Proof.Machine

/-! ### The part of a lane that the motor law speaks of

`Lane.motoring` is that part; an operation on anything else leaves it as it is. -/

/-- A lane with blanks for everything that the motor law does not speak of. -/
def Lane.motoring (x : Lane) : Lane :=
  { Lane.reset with
    drive :=
      { x.drive with
        guide := Drive.reset.guide, home := Drive.reset.home, fault := { Drive.reset.fault with active := x.drive.fault.active } },
    ctl := { Control.reset with state := x.ctl.state, heldPhase := x.ctl.heldPhase, returnTo := x.ctl.returnTo },
    pos := { Position.reset with armedA := x.pos.armedA, armedB := x.pos.armedB } }

/-- The law reads nothing but `Lane.motoring`. -/
theorem Lane.motorLawful.of_motoring {x y : Lane} {up : Bool} (h : x.motorLawful up) (hy : y.motoring = x.motoring) :
    y.motorLawful up := show y.motoring.motorLawful up from hy ▸ h

theorem Lane.motoring_of_upstream {x y : Lane} (h : y.upstream = x.upstream) : y.motoring = x.motoring :=
  (congrArg Lane.motoring h :)

theorem Lane.motoring_setBlock (x : Lane) (kind : BlockKind) (b : Option Block) : (x.setBlock kind b).motoring = x.motoring := by
  cases kind <;> rfl

theorem Lane.motoring_updateRearm (x : Lane) : x.updateRearm.motoring = x.motoring := by
  unfold Lane.updateRearm
  split
  · split <;> rfl
  · rfl

theorem Lane.motoring_commit (now : Nat) (x : Lane) (c : CapLine) : (x.commit now c).motoring = x.motoring := by
  unfold Lane.commit Lane.storeLine
  split <;> rfl

theorem Lane.motoring_periodMeasure (x : Lane) : x.periodMeasure.motoring = x.motoring := by
  unfold Lane.periodMeasure Position.measure
  split <;> rfl

theorem Lane.motoring_pullSpeeds (x : Lane) : x.pullSpeeds.motoring = x.motoring := by
  unfold Lane.pullSpeeds
  dsimp only
  split <;> rfl

/-- A raw level is no part of the law (R119). -/
theorem Lane.motoring_rawLevel (x : Lane) (i : InputId) (level : Bool) (now : Nat) :
    ({ x with drive := x.drive.setInput i ((x.drive.input i).level level now) } : Lane).motoring = x.motoring := by
  have hactive : ((x.drive.input i).level level now).active = (x.drive.input i).active := by
    unfold Input.level
    split <;> rfl
  generalize (x.drive.input i).level level now = v at hactive ⊢
  cases i with
  | guideLatched => rfl
  | probeHome => rfl
  | motorFault =>
    simp only [Drive.input] at hactive
    simp only [Lane.motoring, Drive.setInput, hactive]

/-- From `s` to `t` both lanes keep what the law speaks of, and the link stays UP or LOST. -/
structure State.SameMotoring (s t : State) : Prop where
  lanes : ∀ l, (t.lane l).motoring = (s.lane l).motoring
  up : t.link.up = s.link.up

namespace State.SameMotoring

variable {s t u : State}

theorem refl (s : State) : s.SameMotoring s := ⟨fun _ => rfl, rfl⟩

theorem trans (h : s.SameMotoring t) (k : t.SameMotoring u) : s.SameMotoring u :=
  ⟨fun l => (k.lanes l).trans (h.lanes l), k.up.trans h.up⟩

/-- Lanes and link state as they were. -/
theorem of_lanes (h : ∀ l, t.lane l = s.lane l) (hup : t.link.up = s.link.up) : s.SameMotoring t :=
  ⟨fun l => congrArg Lane.motoring (h l), hup⟩

theorem of_reports (h : s.Reports t) : s.SameMotoring t := of_lanes h.lane (by rw [h.link])

/-- An operation that keeps to a lane. -/
theorem of_keeps {l : LaneId} (h : State.KeepsTo l s t) (hl : (t.lane l).motoring = (s.lane l).motoring) : s.SameMotoring t := by
  refine ⟨fun k => ?_, by rw [h.link]⟩
  obtain rfl | rfl := eq_or_eq_otherLane l k
  · exact hl
  · rw [h.other]

theorem upd (s : State) (l : LaneId) {f : Lane → Lane} (hf : (f (s.lane l)).motoring = (s.lane l).motoring) :
    s.SameMotoring (s.upd l f) := of_keeps (.upd l s f) (by rw [State.lane_upd, hf])

end State.SameMotoring

/-! ### Line capture, the end of a pull and the engine leave the motor alone -/

theorem State.commitLines_motoring (l : LaneId) (out : List CapLine) (s : State) :
    s.SameMotoring (out.foldl (State.commitLine l) s) := by
  induction out generalizing s with
  | nil => exact .refl s
  | cons c out ih =>
    have committed : ((s.commitLine l c).lane l).motoring = (s.lane l).motoring := by
      rw [← Lane.motoring_commit s.clock (s.lane l) c]
      refine (congrArg Lane.motoring (State.commitLine_upstream l s c)).trans ?_
      rw [Lane.motoring_commit, Lane.motoring_commit]
      rfl
    exact (State.SameMotoring.of_keeps (State.commitLine_keeps l s c) committed).trans (ih _)

theorem State.captureCycle_motoring (s : State) (l : LaneId) (c : Cycle) : s.SameMotoring (s.captureCycle l c) := by
  unfold State.captureCycle
  dsimp only
  split
  · exact .trans (.upd s l rfl) (State.commitLines_motoring l _ _)
  · exact .refl s

theorem State.pullEnding_motoring (s : State) (l : LaneId) : s.SameMotoring (s.pullEnding l) := by
  have flushed : s.SameMotoring (s.flush l) := by
    unfold State.flush
    exact .trans (.upd s l rfl) (.trans (State.commitLines_motoring l _ _) (.upd _ l rfl))
  have ended : ∀ t : State, t.SameMotoring (t.setLane l (t.lane l).landmarkEnd) := fun t =>
    .upd t l (f := Lane.landmarkEnd) (Lane.motoring_of_upstream (Lane.upstream_landmarkEnd _))
  have screened : ∀ t : State, t.SameMotoring (t.screenEnd l) := fun t => by
    obtain ⟨_, _, _, hlane, _⟩ := t.screenEnd_lane l
    exact .of_keeps (t.screenEnd_keeps l) (by rw [hlane]; rfl)
  have assembled : ∀ t : State, t.SameMotoring (t.assemblersEnd l) := fun t =>
    .of_keeps (t.assemblersEnd_keeps l) (by rw [State.assemblersEnd_lane]; rfl)
  exact ((flushed.trans (ended _)).trans (screened _)).trans (assembled _)

/-- The end of a pull disarms both stops and leaves the rest to what follows (R146). -/
theorem State.endPull_motoring (s : State) (l : LaneId) (o : TubeOutcome) :
    ((s.endPull l o).lane l).motoring = (s.lane l).disarmStops.motoring := by
  rw [State.endPull_eq, State.lane_upd, State.emit_lane]
  exact congrArg Lane.disarmStops ((s.pullEnding_motoring l).lanes l)

theorem State.finishWait_motoring (s : State) (l : LaneId) : s.SameMotoring (s.finishWait l) := by
  rw [State.finishWait_eq]
  exact .upd s l rfl

theorem State.giveUpBlock_motoring (s : State) (l : LaneId) (kind : BlockKind) : s.SameMotoring (s.giveUpBlock l kind) := by
  unfold State.giveUpBlock
  split
  · exact .trans (.upd s l (Lane.motoring_setBlock _ _ _)) (.of_reports (State.returnBuffer_reports _))
  · exact .refl s

theorem State.answerFlight_motoring (s : State) (code : ReplyCode) (body : ReplyBody) :
    s.SameMotoring (s.answerFlight code body) := by
  unfold State.answerFlight
  split
  · have freed : s.SameMotoring { s with link := { s.link with handler := .free } } := .of_lanes (s.lane_withLink _) rfl
    exact freed.trans (.of_reports (State.placeReply_reports _ _))
  · exact .refl s

theorem State.deliver_motoring (s : State) (l : LaneId) (j : Job) : s.SameMotoring (s.deliver l j) := by
  cases j with
  | measure tag ind =>
    unfold State.deliver
    exact .upd s l rfl
  | span ch amplitude phase values =>
    unfold State.deliver State.deliverSpan
    dsimp only
    split
    · exact .trans (.upd s l rfl) (State.answerFlight_motoring _ _ _)
    · exact s.answerFlight_motoring _ _
  | solve ch ps qs =>
    unfold State.deliver State.deliverSolve
    dsimp only
    split
    · exact .trans (.upd s l rfl) (State.answerFlight_motoring _ _ _)
    · exact s.answerFlight_motoring _ _

theorem State.engineChoose_motoring (s : State) : s.SameMotoring s.engineChoose := by
  obtain ⟨_, hlink, _, _, hlanes⟩ := s.engineChoose_frame
  exact ⟨fun l => by rw [hlanes]; rfl, by rw [hlink]⟩

theorem State.appendJob_motoring (s : State) (l : LaneId) (j : Job) : s.SameMotoring (s.appendJob l j) := by
  obtain ⟨_, hlane⟩ := s.appendJob_lane l j
  exact .of_keeps (s.appendJob_keeps l j) (by rw [hlane]; rfl)

/-! ### Stopped and running lanes -/

/-- A retraction would return to IDLE or FAULTED (R154). -/
def Lane.returnsLegally (x : Lane) : Prop := ∀ st, x.ctl.returnTo = some st → st = .idle ∨ st = .faulted

/-- The motor is DISABLED as a stop leaves it, and the phases agree: the lane as a stop hands it to the lane controller. -/
structure Lane.Halted (x : Lane) : Prop where
  stopped : x.drive.stopped
  phases : x.phasesLegal

section

variable {x : Lane} {up : Bool} {p : MotionPhase}

theorem Lane.returnsLegally_of_motoring {y : Lane} (h : x.returnsLegally) (hy : y.motoring = x.motoring) : y.returnsLegally :=
  show y.motoring.returnsLegally from hy ▸ h

theorem Lane.phasesLegal.returns (h : x.phasesLegal) : x.returnsLegally := by
  obtain ⟨_, _, hreturn, _, _⟩ := h
  exact hreturn

theorem Lane.motorLawful.phases (h : x.motorLawful up) : x.phasesLegal := by
  obtain ⟨_, hphases, _, _⟩ := h
  exact hphases

/-- Outside HELD no phase is remembered. -/
theorem Lane.phasesLegal.heldPhase_none (h : x.phasesLegal) (hst : x.ctl.state ≠ .held) : x.ctl.heldPhase = none := by
  obtain ⟨hheld, _⟩ := h
  rwa [← Option.not_isSome_iff_eq_none, ← hheld]

/-- Outside INSERT and PULL, held or not, no stop is armed (R26). -/
theorem Lane.phasesLegal.disarmed (h : x.phasesLegal) {st : LaneState} (hst : x.phaseOrHeld = st)
    (hn : st ≠ .insert ∧ st ≠ .pull) : x.pos.armedA = false ∧ x.pos.armedB = false := by
  obtain ⟨_, _, _, hA, hB⟩ := h
  obtain ⟨hinsert, hpull⟩ := hn
  exact ⟨Bool.eq_false_iff.2 fun ha => hinsert (hst.symm.trans (hA ha)), Bool.eq_false_iff.2 fun hb => hpull (hst.symm.trans (hB hb))⟩

theorem Lane.phaseOrHeld_of_state {st : LaneState} (hst : x.ctl.state = st) (hn : st ≠ .held) : x.phaseOrHeld = st :=
  Stage.phase_eq (k := x.stage) hst hn

/-- A lane that is not HELD and remembers no phase, with armed stops of its state. -/
theorem Lane.phasesLegal_of_state {st : LaneState} (hst : x.ctl.state = st) (hn : st ≠ .held) (hp : x.ctl.heldPhase = none)
    (hr : x.returnsLegally) (hA : x.pos.armedA = true → st = .insert) (hB : x.pos.armedB = true → st = .pull) : x.phasesLegal := by
  have hphase := Lane.phaseOrHeld_of_state hst hn
  refine ⟨⟨fun hh => absurd (hst.symm.trans hh) hn, fun hs => ?_⟩, fun st hs => ?_, hr, hphase.trans ∘ hA, hphase.trans ∘ hB⟩
  · rw [hp] at hs
    cases hs
  · rw [hp] at hs
    cases hs

theorem LaneState.motion_none_of_not_holdable {st : LaneState} : st.holdable = false → st.motion = .none := by
  cases st <;> decide

/-- A stopped motor belongs to a state without motion; a LOST link to one that it does not hold (R121, R123). -/
theorem Lane.Halted.lawful (h : x.Halted) (hm : x.ctl.state.motion = .none) (hup : up = false → x.ctl.state.holdable = false) :
    x.motorLawful up := by
  obtain ⟨⟨hoff, hbrake, hduty, hphase, hwindow⟩, hphases⟩ := h
  refine ⟨⟨hphase.trans hm.symm, by rw [hoff, hm]; rfl, by rw [hbrake, hoff]; rfl, fun hon => ?_, fun _ => ⟨hduty, hwindow⟩⟩,
    hphases,
    fun hon => ?_, hup⟩
  · cases hoff.symm.trans hon
  · cases hoff.symm.trans hon

/-- In a state that no link loss holds, a stopped motor is lawful. -/
theorem Lane.Halted.lawful_rest (h : x.Halted) (hst : x.ctl.state.holdable = false) : x.motorLawful up :=
  h.lawful (LaneState.motion_none_of_not_holdable hst) fun _ => hst

/-- A lane whose motor was just set going in its state's phase (R122). -/
theorem Lane.run_lawful (hp : x.phasesLegal) (hm : x.ctl.state.motion = p) (hn : p ≠ .none) (hf : x.drive.fault.active = false)
    (duty : Nat) : (x.run p duty).motorLawful true := by
  subst hm
  refine ⟨⟨rfl, ?_, rfl, fun _ => ?_, nofun⟩, hp, fun _ => ⟨rfl, hf⟩, nofun⟩
  · exact (bne_iff_ne.2 hn).symm
  · show x.ctl.state.motion.dir x.drive.dir = x.ctl.state.motion.dir (x.ctl.state.motion.dir x.drive.dir)
    cases x.ctl.state.motion <;> rfl

/-- In a state that drives a phase the motor runs, the link is UP and motor-fault INACTIVE (R121, R123). -/
theorem Lane.motorLawful.running (h : x.motorLawful up) (hm : x.ctl.state.motion ≠ .none) :
    x.drive.enabled = true ∧ up = true ∧ x.drive.fault.active = false := by
  obtain ⟨⟨_, henabled, _⟩, _, hon, _⟩ := h
  have hrun : x.drive.enabled = true := henabled.trans (bne_iff_ne.2 hm)
  exact ⟨hrun, hon hrun⟩

/-- In a state that drives no phase the motor is stopped (R121, R124). -/
theorem Lane.motorLawful.halted (h : x.motorLawful up) (hm : x.ctl.state.motion = .none) : x.Halted := by
  obtain ⟨⟨hphase, henabled, hbrake, _, hoff⟩, hphases, _, _⟩ := h
  have hdisabled : x.drive.enabled = false := by rw [henabled, hm]; rfl
  obtain ⟨hduty, hwindow⟩ := hoff hdisabled
  exact ⟨⟨hdisabled, by rw [hbrake, hdisabled]; rfl, hduty, hphase.trans hm, hwindow⟩, hphases⟩

/-- A stop halts the lane (R124). -/
theorem Lane.phasesLegal.halt (h : x.phasesLegal) : x.stopDrive.Halted := ⟨x.drive.stop_stopped, h⟩

/-- The link is UP in a state that its loss would hold (R123). -/
theorem Lane.motorLawful.up_of_holdable (h : x.motorLawful up) (hst : x.ctl.state.holdable = true) : up = true := by
  obtain ⟨_, _, _, hlost⟩ := h
  cases up with
  | false => exact (hlost rfl).symm.trans hst
  | true => rfl

/-- The link becomes UP (R175). -/
theorem Lane.motorLawful.of_up (h : x.motorLawful up) : x.motorLawful true := by
  obtain ⟨hfollows, hphases, hon, _⟩ := h
  exact ⟨hfollows, hphases, fun hrun => ⟨rfl, (hon hrun).2⟩, fun h => absurd h (by decide)⟩

/-- In a state that no link loss holds the law is the same for either link state. -/
theorem Lane.motorLawful.of_not_holdable (h : x.motorLawful up) (hst : x.ctl.state.holdable = false) (other : Bool) :
    x.motorLawful other := (h.halted (LaneState.motion_none_of_not_holdable hst)).lawful_rest hst

/-! ### Motion starts (R122, R123, R125, R132) -/

/-- What a motion start can come to. -/
theorem Lane.motionStart_cases (x : Lane) (p : MotionPhase) :
    (x.drive.fault.active = true ∧ x.motionStart p = (x.stopDrive, .refused)) ∨
    (p = .withdraw ∧ x.drive.home.active = true ∧ x.motionStart p = (x.stopDrive, .homeArrival)) ∨
    (p = .withdraw ∧ x.atHomeLimit = true ∧ x.motionStart p = ((x.run p x.motion.startDuty).stopDrive, .homeLimit)) ∨
    (x.drive.fault.active = false ∧ x.motionStart p = (x.run p x.motion.startDuty, .started)) := by
  unfold Lane.motionStart
  split
  next hfault => exact .inl ⟨hfault, rfl⟩
  next hfault =>
    split
    next hhome => exact .inr (.inl ⟨hhome.1, hhome.2, rfl⟩)
    · unfold Lane.testStart
      split
      next hlimit => exact .inr (.inr (.inl ⟨hlimit.1, hlimit.2, rfl⟩))
      · exact .inr (.inr (.inr ⟨Bool.eq_false_iff.2 hfault, rfl⟩))

/-- A motion start is a matter of the drive alone. -/
theorem Lane.motionStart_frame (x : Lane) (p : MotionPhase) :
    (x.motionStart p).1 = { x with drive := (x.motionStart p).1.drive } := by
  obtain ⟨_, h⟩ | ⟨_, _, h⟩ | ⟨_, _, h⟩ | ⟨_, h⟩ := x.motionStart_cases p <;> rw [h] <;> rfl

/-- Only the start of a withdrawal is a home arrival (R122). -/
theorem Lane.motionStart_homeArrival (h : (x.motionStart p).2 = .homeArrival) : p = .withdraw := by
  obtain ⟨_, hs⟩ | ⟨hp, _, _⟩ | ⟨hp, _, _⟩ | ⟨_, hs⟩ := x.motionStart_cases p
  · cases (congrArg Prod.snd hs).symm.trans h
  · exact hp
  · exact hp
  · cases (congrArg Prod.snd hs).symm.trans h

/-- A motor that started runs in its state's phase. -/
theorem Lane.motionStart_lawful (hp : x.phasesLegal) (hm : x.ctl.state.motion = p) (hn : p ≠ .none)
    (h : (x.motionStart p).2 = .started) : (x.motionStart p).1.motorLawful true := by
  obtain ⟨_, hs⟩ | ⟨_, _, hs⟩ | ⟨_, _, hs⟩ | ⟨hf, hs⟩ := x.motionStart_cases p
  · cases (congrArg Prod.snd hs).symm.trans h
  · cases (congrArg Prod.snd hs).symm.trans h
  · cases (congrArg Prod.snd hs).symm.trans h
  · rw [hs]
    exact Lane.run_lawful hp hm hn hf _

/-- A motor that did not start is stopped. -/
theorem Lane.motionStart_halted (hp : x.phasesLegal) (h : (x.motionStart p).2 ≠ .started) : (x.motionStart p).1.Halted := by
  obtain ⟨_, hs⟩ | ⟨_, _, hs⟩ | ⟨_, _, hs⟩ | ⟨_, hs⟩ := x.motionStart_cases p
  · rw [hs]
    exact hp.halt
  · rw [hs]
    exact hp.halt
  · rw [hs]
    exact Lane.phasesLegal.halt (x := x.run p x.motion.startDuty) hp
  · exact absurd (congrArg Prod.snd hs) h

/-- A retarget is a matter of the drive alone (R125). -/
theorem Lane.retarget_frame (x : Lane) : x.retarget.1 = { x with drive := x.retarget.1.drive } := by
  unfold Lane.retarget Lane.testStart
  split
  · split <;> rfl
  · exact x.motionStart_frame .withdraw

/-- A retarget that goes on runs in WITHDRAW (R125). -/
theorem Lane.retarget_lawful (hp : x.phasesLegal) (hst : x.ctl.state = .withdraw)
    (hf : x.drive.enabled = true → x.drive.fault.active = false) (h : x.retarget.2 = .started) : x.retarget.1.motorLawful true := by
  have hm : x.ctl.state.motion = .withdraw := by rw [hst]; rfl
  unfold Lane.retarget at h ⊢
  split at h
  next hon =>
    rw [if_pos hon]
    unfold Lane.testStart at h ⊢
    split at h
    · cases h
    next hlimit =>
      rw [if_neg hlimit]
      exact Lane.run_lawful hp hm (by decide) (hf hon) _
  next hoff =>
    rw [if_neg hoff]
    exact Lane.motionStart_lawful hp hm (by decide) h

end

/-! ### FINISH, FAULTED and withdrawal (R147 to R150) -/

section

variable {s t : State} {l : LaneId} {up : Bool}

/-- FINISH is lawful from whatever came before (R148). -/
theorem State.enterFinish_lawful (hr : (s.lane l).returnsLegally) : ((s.enterFinish l).lane l).motorLawful up := by
  refine .of_motoring ?_ ((State.finishWait_motoring _ l).lanes l)
  rw [State.lane_upd]
  exact Lane.Halted.lawful_rest ⟨Drive.stop_stopped _, Lane.phasesLegal_of_state (st := .finish) rfl (by decide) rfl hr nofun nofun⟩ rfl

/-- FINISH is entered after a change of the tube's record. -/
theorem State.upd_enterFinish_lawful {f : Lane → Lane} (hr : (f (s.lane l)).returnsLegally) :
    (((s.upd l f).enterFinish l).lane l).motorLawful up := State.enterFinish_lawful (by rwa [State.lane_upd])

/-- FAULTED is lawful from where no stop is armed (R150). -/
theorem State.enterFaulted_lawful (h : (s.lane l).pos.armedA = false ∧ (s.lane l).pos.armedB = false) (cause : FaultCause) :
    ((s.enterFaulted l cause).lane l).motorLawful up := by
  obtain ⟨hA, hB⟩ := h
  unfold State.enterFaulted
  rw [State.emit_lane, State.lane_upd]
  exact Lane.Halted.lawful_rest
    ⟨Drive.stop_stopped _, Lane.phasesLegal_of_state (st := .faulted) rfl (by decide) rfl nofun
      (fun ha => absurd ha (Bool.eq_false_iff.1 hA)) fun hb => absurd hb (Bool.eq_false_iff.1 hB)⟩ rfl

theorem State.withdrawResult_lawful {r : StartResult} (hr : (s.lane l).returnsLegally)
    (hs : r = .started → (s.lane l).motorLawful up) : ((s.withdrawResult l r).lane l).motorLawful up := by
  cases r with
  | started => exact hs rfl
  | homeArrival => exact State.enterFinish_lawful hr
  | refused => exact State.upd_enterFinish_lawful hr
  | homeLimit => exact State.upd_enterFinish_lawful hr

/-- The lane as it enters WITHDRAW has its phases in order (R147). -/
theorem Lane.toWithdraw_phases {x : Lane} (hr : x.returnsLegally) : x.toWithdraw.phasesLegal :=
  Lane.phasesLegal_of_state (st := .withdraw) rfl (by decide) rfl hr nofun nofun

/-- A withdrawal begins with a motion start, whatever that comes to (R144, R153). -/
theorem State.startWithdraw_lawful (hr : (s.lane l).returnsLegally) : ((s.startWithdraw l).lane l).motorLawful true := by
  refine State.withdrawResult_lawful ?_ fun hs => ?_ <;> rw [State.lane_setLane]
  · rw [Lane.motionStart_frame]
    exact hr
  · exact Lane.motionStart_lawful (Lane.toWithdraw_phases hr) rfl (by decide) hs

/-- A withdrawal begins with a retarget (R125, R146). -/
theorem State.retargetWithdraw_lawful (hr : (s.lane l).returnsLegally)
    (hf : (s.lane l).drive.enabled = true → (s.lane l).drive.fault.active = false) :
    ((s.retargetWithdraw l).lane l).motorLawful true := by
  refine State.withdrawResult_lawful ?_ fun hs => ?_ <;> rw [State.lane_setLane]
  · rw [Lane.retarget_frame]
    exact hr
  · exact Lane.retarget_lawful (Lane.toWithdraw_phases hr) rfl hf hs

/-- A pull that ends passes to WITHDRAW (R146). -/
theorem State.endPull_retarget_lawful (h : (s.lane l).returnsLegally)
    (hf : (s.lane l).drive.enabled = true → (s.lane l).drive.fault.active = false) (o : TubeOutcome) :
    (((s.endPull l o).retargetWithdraw l).lane l).motorLawful true := by
  have hended := s.endPull_motoring l o
  have hon : ((s.endPull l o).lane l).drive.enabled = (s.lane l).drive.enabled := (congrArg (fun y => y.drive.enabled) hended :)
  have hfault : ((s.endPull l o).lane l).drive.fault.active = (s.lane l).drive.fault.active :=
    (congrArg (fun y => y.drive.fault.active) hended :)
  refine State.retargetWithdraw_lawful (Lane.returnsLegally_of_motoring (x := (s.lane l).disarmStops) h hended) ?_
  rw [hon, hfault]
  exact hf

/-- A pull that ends with a fault passes to FINISH (R146, R149). -/
theorem State.endPull_enterFinish_lawful (h : (s.lane l).returnsLegally) (o : TubeOutcome) (c : FaultCause) :
    ((((s.endPull l o).upd l fun x => x.updTube fun t => t.mark c).enterFinish l).lane l).motorLawful up :=
  State.upd_enterFinish_lawful
    (Lane.returnsLegally_of_motoring (x := (s.lane l).disarmStops) h (s.endPull_motoring l o))

/-! ### The lane controller's events (R25, R129 to R131, R144 to R149) -/

/-- A motor-fault leaves a halted lane lawful in every state (R149). -/
theorem State.motorFaultEvent_lawful (h : (s.lane l).Halted) : ((s.motorFaultEvent l).lane l).motorLawful up := by
  have hr := h.phases.returns
  unfold State.motorFaultEvent
  dsimp only
  split
  next => exact State.upd_enterFinish_lawful hr
  next => exact State.upd_enterFinish_lawful hr
  next => exact State.upd_enterFinish_lawful hr
  next => exact State.endPull_enterFinish_lawful hr _ _
  next => exact State.upd_enterFinish_lawful hr
  next hst => exact State.enterFaulted_lawful (h.phases.disarmed (Lane.phaseOrHeld_of_state hst (by decide)) (by decide)) _
  all_goals
    rename_i hst
    exact h.lawful_rest (by rw [hst]; rfl)

/-- A stall ends the phase of a lane that it halted (R129). -/
theorem State.stallEvent_lawful (h : (s.lane l).Halted) (position : Int) : ((s.stallEvent l position).lane l).motorLawful true := by
  have hr := h.phases.returns
  unfold State.stallEvent
  split
  next => exact State.startWithdraw_lawful (by rwa [State.lane_upd])
  next => exact State.endPull_enterFinish_lawful hr _ _
  next => exact State.upd_enterFinish_lawful hr
  next hst => exact State.enterFaulted_lawful (h.phases.disarmed (Lane.phaseOrHeld_of_state hst (by decide)) (by decide)) _
  all_goals
    rename_i hst
    exact h.lawful (by rw [hst]; rfl) nofun

/-- A retraction that ends returns to IDLE or FAULTED (R154). -/
theorem Lane.endRetract_lawful {x : Lane} (h : x.phasesLegal) (hst : x.ctl.state = .retract) : x.endRetract.motorLawful up := by
  obtain ⟨hA, hB⟩ := h.disarmed (Lane.phaseOrHeld_of_state hst (by decide)) (by decide)
  have hback : x.ctl.returnTo.getD .idle = .idle ∨ x.ctl.returnTo.getD .idle = .faulted := by
    cases hr : x.ctl.returnTo with
    | none => exact .inl rfl
    | some st => exact h.returns st hr
  have hrest : ∀ st : LaneState, st = .idle ∨ st = .faulted → st ≠ .held ∧ st.holdable = false := by
    rintro _ (rfl | rfl) <;> decide
  obtain ⟨hheld, hholdable⟩ := hrest _ hback
  exact Lane.Halted.lawful_rest
    ⟨Drive.stop_stopped _, Lane.phasesLegal_of_state (x := x.endRetract) rfl hheld rfl nofun
      (fun ha => absurd ha (Bool.eq_false_iff.1 hA)) fun hb => absurd hb (Bool.eq_false_iff.1 hB)⟩ hholdable

/-- Home arrival ends a withdrawal or a retraction (R131). -/
theorem State.homeArrivalEvent_lawful (h : (s.lane l).phasesLegal)
    (hst : (s.lane l).ctl.state = .withdraw ∨ (s.lane l).ctl.state = .retract) :
    ((s.homeArrivalEvent l).lane l).motorLawful up := by
  unfold State.homeArrivalEvent
  obtain hst | hst := hst <;> rw [hst] <;> dsimp only
  · exact State.enterFinish_lawful h.returns
  · rw [State.lane_upd]
    exact Lane.endRetract_lawful h hst

/-- Stop B ends the pull (R25, R146). -/
theorem State.testStopB_lawful (h : (s.lane l).motorLawful up) : ((s.testStopB l).lane l).motorLawful up := by
  unfold State.testStopB
  dsimp only
  split
  next harmed _ _ =>
    split
    next hreached =>
      obtain ⟨hheld, _⟩ := hreached
      have hpull : (s.lane l).ctl.state = .pull := by
        obtain ⟨_, _, _, _, hB⟩ := h.phases
        exact (Lane.phaseOrHeld_of_state rfl hheld).symm.trans (hB harmed)
      obtain ⟨_, rfl, hfault⟩ := h.running (by rw [hpull]; decide)
      refine State.endPull_retarget_lawful ?_ (fun _ => ?_) _ <;> rw [State.lane_upd]
      · exact h.phases.returns
      · exact hfault
    · exact h
  · exact h

/-- The lane as it enters PULL from TURN has its phases in order (R145). -/
theorem Lane.toPull_phases {x : Lane} (h : x.phasesLegal) (hst : x.ctl.state = .turn) : x.toPull.phasesLegal := by
  obtain ⟨hA, _⟩ := h.disarmed (Lane.phaseOrHeld_of_state hst (by decide)) (by decide)
  exact Lane.phasesLegal_of_state (st := .pull) rfl (by decide) (h.heldPhase_none (by rw [hst]; decide)) h.returns
    (fun ha => absurd ha (Bool.eq_false_iff.1 hA)) fun _ => rfl

/-- PULL is entered with a motion start (R145). -/
theorem State.enterPull_lawful (h : (s.lane l).phasesLegal) (hst : (s.lane l).ctl.state = .turn) :
    ((s.enterPull l).lane l).motorLawful true := by
  have hphases := Lane.toPull_phases h hst
  unfold State.enterPull
  dsimp only
  split
  next hr =>
    refine State.motorFaultEvent_lawful ?_
    rw [State.emit_lane, State.lane_setLane]
    exact Lane.motionStart_halted hphases (hr ▸ by decide)
  next hr =>
    refine State.testStopB_lawful ?_
    rw [State.emit_lane, State.lane_setLane]
    exact Lane.motionStart_lawful hphases rfl (by decide) hr
  next hr => cases Lane.motionStart_homeArrival hr
  next hr => cases Lane.motionStart_homeLimit hr

/-- Stop A stops the motor and passes the lane to TURN (R144, R145). -/
theorem State.enterTurn_lawful (h : (s.lane l).phasesLegal) (hst : (s.lane l).ctl.state = .insert) :
    ((s.enterTurn l).lane l).motorLawful true := by
  have turned : ((s.lane l).turned (s.tubeLayout l) s.clock).Halted :=
    ⟨Drive.stop_stopped _, Lane.phasesLegal_of_state (st := .turn) rfl (by decide) (h.heldPhase_none (by rw [hst]; decide)) h.returns
      nofun nofun⟩
  rw [State.enterTurn_eq]
  split
  · refine State.enterPull_lawful ?_ ?_ <;> rw [State.lane_upd]
    · exact turned.phases
    · rfl
  · rw [State.lane_upd]
    exact turned.lawful rfl nofun

theorem State.testStopA_lawful (h : (s.lane l).motorLawful up) : ((s.testStopA l).lane l).motorLawful up := by
  unfold State.testStopA
  dsimp only
  split
  next harmed _ _ =>
    split
    next hreached =>
      obtain ⟨hheld, _⟩ := hreached
      have hinsert : (s.lane l).ctl.state = .insert := by
        obtain ⟨_, _, _, hA, _⟩ := h.phases
        exact (Lane.phaseOrHeld_of_state rfl hheld).symm.trans (hA harmed)
      obtain ⟨_, rfl, _⟩ := h.running (by rw [hinsert]; decide)
      exact State.enterTurn_lawful h.phases hinsert
    · exact h
  · exact h

theorem State.testStops_lawful (h : (s.lane l).motorLawful up) : ((s.testStops l).lane l).motorLawful up :=
  State.testStopB_lawful (State.testStopA_lawful h)

/-- The home limit stops a running withdrawal (R132). -/
theorem State.testHomeLimit_lawful (h : (s.lane l).motorLawful up) : ((s.testHomeLimit l).lane l).motorLawful up := by
  unfold State.testHomeLimit
  dsimp only
  split
  · refine State.withdrawResult_lawful ?_ nofun
    rw [State.lane_upd]
    exact h.phases.returns
  · exact h

/-! ### Guide check and orders (R142, R143) -/

/-- The lane as the guide check passes has its phases in order (R143). -/
theorem Lane.passGuide_phases {x : Lane} (h : x.phasesLegal) (hst : x.ctl.state = .guideCheck) : x.passGuide.phasesLegal := by
  obtain ⟨_, hB⟩ := h.disarmed (Lane.phaseOrHeld_of_state hst (by decide)) (by decide)
  exact Lane.phasesLegal_of_state (st := .insert) rfl (by decide) (h.heldPhase_none (by rw [hst]; decide)) h.returns (fun _ => rfl)
    fun hb => absurd hb (Bool.eq_false_iff.1 hB)

theorem State.guideTest_lawful (h : (s.lane l).motorLawful true) (hst : (s.lane l).ctl.state = .guideCheck) :
    ((s.guideTest l).lane l).motorLawful true := by
  unfold State.guideTest
  dsimp only
  split
  · have hphases := Lane.passGuide_phases (x := (s.lane l).updCtl fun c => { c with attempts := c.attempts + 1 }) h.phases hst
    split
    next hr => exact State.motorFaultEvent_lawful ((State.lane_setLane ..).symm ▸ Lane.motionStart_halted hphases (hr ▸ by decide))
    next hr => exact State.testStopA_lawful ((State.lane_setLane ..).symm ▸ Lane.motionStart_lawful hphases rfl (by decide) hr)
    next hr => cases Lane.motionStart_homeArrival hr
    next hr => cases Lane.motionStart_homeLimit hr
  · split
    · refine State.enterFinish_lawful ?_
      rw [State.lane_setLane]
      exact h.phases.returns
    · rw [State.lane_setLane]
      exact h.of_motoring rfl

theorem State.openTube_lawful (h : (s.lane l).motorLawful true) (hst : (s.lane l).ctl.state = .idle) (o : Order) (rest : List Order) :
    ((s.openTube l o rest).lane l).motorLawful true := by
  have hopened : (((s.upd l fun x => x.clearDetector.updCtl fun c =>
      { c with worklist := rest, tube := some (Tube.open o (s.stops l o)) }).emit l .tubeStarted none).lane l).motoring =
      (s.lane l).motoring := by
    rw [State.emit_lane, State.lane_upd]
    rfl
  unfold State.openTube
  dsimp only
  generalize (s.upd l fun x => x.clearDetector.updCtl fun c =>
      { c with worklist := rest, tube := some (Tube.open o (s.stops l o)) }).emit l .tubeStarted none = q at hopened
  have hq := h.of_motoring hopened
  have hidle : (q.lane l).ctl.state = .idle := (congrArg (fun y => y.ctl.state) hopened :).trans hst
  split
  · have checking : ((q.lane l).enter .guideCheck).Halted := by
      obtain ⟨hstopped, hphases⟩ := hq.halted (by rw [hidle]; rfl)
      obtain ⟨hA, hB⟩ := hphases.disarmed (Lane.phaseOrHeld_of_state hidle (by decide)) (by decide)
      exact ⟨hstopped, Lane.phasesLegal_of_state (st := .guideCheck) rfl (by decide) (hphases.heldPhase_none (by rw [hidle]; decide))
        hphases.returns (fun ha => absurd ha (Bool.eq_false_iff.1 hA)) fun hb => absurd hb (Bool.eq_false_iff.1 hB)⟩
    refine State.guideTest_lawful ?_ ?_ <;> rw [State.lane_upd]
    · exact (checking.lawful (up := true) rfl nofun).of_motoring rfl
    · rfl
  · exact State.upd_enterFinish_lawful hq.phases.returns

/-- An order is taken only while the link is UP (R142). -/
theorem State.takeFrontOrder_lawful (h : (s.lane l).motorLawful s.link.up) :
    ((s.takeFrontOrder l).lane l).motorLawful s.link.up := by
  unfold State.takeFrontOrder
  split
  next htake _ =>
    simp only [State.canTake, Bool.and_eq_true, beq_iff_eq] at htake
    obtain ⟨⟨⟨⟨hidle, _⟩, hup⟩, _⟩, _⟩ := htake
    rw [hup] at h ⊢
    exact State.openTube_lawful h hidle _ _
  · exact h

/-! ### The debounced inputs (R119, R120) -/

/-- The debounced state of an input follows its raw level: home arrival and motor-fault stop the motor (R130, R131). -/
theorem State.inputChange_lawful (h : (s.lane l).motorLawful up) (i : InputId) : ((s.inputChange l i).lane l).motorLawful up := by
  unfold State.inputChange
  cases i with
  | guideLatched =>
    dsimp only
    split
    · rw [State.lane_upd]
      exact h.of_motoring rfl
    · rw [State.upd_upd, State.lane_upd]
      exact h.of_motoring rfl
  | probeHome =>
    dsimp only
    split
    next hhome =>
      have hphases := h.phases
      obtain ⟨⟨hphase, _⟩, _⟩ := h
      have hst : (s.lane l).ctl.state = .withdraw ∨ (s.lane l).ctl.state = .retract := by
        simp only [Drive.homing, Bool.and_eq_true, Bool.or_eq_true, beq_iff_eq] at hhome
        rw [hphase] at hhome
        generalize (s.lane l).ctl.state = st at hhome ⊢
        cases st <;> simp_all [LaneState.motion]
      rw [State.upd_upd]
      refine State.homeArrivalEvent_lawful ?_ ?_ <;> rw [State.lane_upd]
      · exact hphases
      · exact hst
    · rw [State.lane_upd]
      exact h.of_motoring rfl
  | motorFault =>
    dsimp only
    split
    · rw [State.upd_upd]
      refine State.motorFaultEvent_lawful ?_
      rw [State.lane_upd]
      exact Lane.phasesLegal.halt (x := { s.lane l with drive := _ }) h.phases
    next hclear =>
      rw [State.lane_upd]
      obtain ⟨hfollows, hphases, hon, hlost⟩ := h
      exact ⟨hfollows, hphases, fun hrun => ⟨(hon hrun).1, Bool.eq_false_iff.2 hclear⟩, hlost⟩

theorem State.settleInput_lawful (h : (s.lane l).motorLawful up) (i : InputId) : ((s.settleInput l i).lane l).motorLawful up := by
  unfold State.settleInput
  dsimp only
  split
  · exact State.inputChange_lawful h i
  · exact h

/-! ### Holding (R151, R152) -/

/-- A held lane is lawful with the link UP or LOST (R151). -/
theorem State.enterHeld_lawful (h : (s.lane l).phasesLegal) (hst : (s.lane l).ctl.state.holdable = true) :
    ((s.enterHeld l).lane l).motorLawful up := by
  rw [State.enterHeld_eq, State.emit_lane, State.lane_upd]
  generalize s.lane l = x at h hst
  have hn : x.ctl.state ≠ .held := fun he => by
    rw [he] at hst
    cases hst
  obtain ⟨_, _, hreturn, hA, hB⟩ := h
  rw [Lane.phaseOrHeld_of_state rfl hn] at hA hB
  exact Lane.Halted.lawful_rest
    ⟨Drive.stop_stopped _, ⟨fun _ => rfl, fun _ => rfl⟩, fun st he => Option.some.inj he ▸ hst, hreturn, hA, hB⟩ rfl

/-- A lane that runs while the link is LOST is HELD at the end of its step (R123; log entry 10). -/
theorem State.holdIfLost_lawful (h : (s.lane l).motorLawful true) : ((s.holdIfLost l).lane l).motorLawful s.link.up := by
  unfold State.holdIfLost State.holdIf
  split
  next hup => rwa [hup]
  · split
    next hst => exact State.enterHeld_lawful h.phases hst
    next hst => exact h.of_not_holdable (Bool.eq_false_iff.2 hst) _

/-- The lane as it leaves HELD for its held phase has its phases in order, the motor still stopped (R152). -/
theorem Lane.unhold_halted {x : Lane} (h : x.motorLawful up) (hst : x.ctl.state = .held) {st : LaneState}
    (hp : x.ctl.heldPhase = some st) (now : Nat) : (x.unhold st now).Halted := by
  obtain ⟨hstopped, _, hholds, hreturn, hA, hB⟩ := h.halted (by rw [hst]; rfl)
  have hphase : x.phaseOrHeld = st := by rw [Lane.phaseOrHeld, if_pos hst, hp]; rfl
  rw [hphase] at hA hB
  have hn : st ≠ .held := fun he => by
    have hholdable := hholds st hp
    rw [he] at hholdable
    cases hholdable
  exact ⟨hstopped, Lane.phasesLegal_of_state (x := x.unhold st now) rfl hn rfl hreturn hA hB⟩

/-- A motion start of a resumed phase, whatever it comes to (R152). -/
theorem State.resumeMotion_lawful {p : MotionPhase} (h : (s.lane l).phasesLegal) (hm : (s.lane l).ctl.state.motion = p)
    (hn : p ≠ .none) : ((s.resumeMotion l p).lane l).motorLawful true := by
  have hlane := s.lane_setLane l ((s.lane l).motionStart p).1
  unfold State.resumeMotion
  dsimp only
  split
  next hr => exact State.testStops_lawful (hlane.symm ▸ Lane.motionStart_lawful h hm hn hr)
  next hr => exact State.motorFaultEvent_lawful (hlane.symm ▸ Lane.motionStart_halted h (hr ▸ by decide))
  next hr =>
    have hst : (s.lane l).ctl.state = .withdraw := LaneState.eq_withdraw_of_motion (hm.trans (Lane.motionStart_homeArrival hr))
    refine State.homeArrivalEvent_lawful (hlane.symm ▸ (Lane.motionStart_halted h (hr ▸ by decide)).phases) (.inl ?_)
    rw [hlane, Lane.motionStart_frame]
    exact hst
  next hr =>
    exact State.withdrawResult_lawful (hlane.symm ▸ (Lane.motionStart_halted h (hr ▸ by decide)).phases.returns) nofun

/-- RESUME brings a held lane back as if the link were UP (R152). -/
theorem State.resumeLane_lawful (h : (s.lane l).motorLawful up) (hst : (s.lane l).ctl.state = .held) :
    ((s.resumeLane l).lane l).motorLawful true := by
  unfold State.resumeLane
  split
  · exact h.of_up
  next st hp =>
    have halted : (((s.upd l fun x => x.unhold st s.clock).emit l .resumed none).lane l).Halted := by
      rw [State.emit_lane, State.lane_upd]
      exact Lane.unhold_halted h hst hp _
    have hstate : (((s.upd l fun x => x.unhold st s.clock).emit l .resumed none).lane l).ctl.state = st := by
      rw [State.emit_lane, State.lane_upd]
      rfl
    dsimp only
    generalize (s.upd l fun x => x.unhold st s.clock).emit l .resumed none = q at *
    split
    · exact State.resumeMotion_lawful halted.phases (by rw [hstate]; rfl) (by decide)
    · exact State.resumeMotion_lawful halted.phases (by rw [hstate]; rfl) (by decide)
    · exact State.resumeMotion_lawful halted.phases (by rw [hstate]; rfl) (by decide)
    · split
      · rw [State.lane_upd]
        exact Lane.endRetract_lawful halted.phases hstate
      · exact State.resumeMotion_lawful halted.phases (by rw [hstate]; rfl) (by decide)
    all_goals exact halted.lawful (by rw [hstate]; rfl) nofun

/-! ### ABORT (R153), RETRACT (R154) and LANE_RESET (R155) -/

theorem State.abortLane_lawful (h : (s.lane l).motorLawful up) (ht : s.abortLane l = some t) : (t.lane l).motorLawful true := by
  have hr := h.phases.returns
  unfold State.abortLane at ht
  dsimp only at ht
  split at ht <;> cases ht
  · exact State.upd_enterFinish_lawful hr
  · exact State.startWithdraw_lawful (by rwa [State.lane_upd])
  · exact State.startWithdraw_lawful (by rw [State.lane_upd]; exact hr)
  · obtain ⟨_, _, hon, _⟩ := h
    exact State.endPull_retarget_lawful hr (fun hrun => (hon hrun).2) _
  all_goals exact h.of_up

theorem State.startRetract_lawful (h : (s.lane l).motorLawful up) (hst : (s.lane l).ctl.state.setup = true) :
    ((s.startRetract l).lane l).motorLawful true := by
  have hcases := LaneState.setup_cases hst
  have hrest : (s.lane l).ctl.state ≠ .held ∧ (s.lane l).ctl.state ≠ .insert ∧ (s.lane l).ctl.state ≠ .pull := by
    obtain hidle | hfaulted := hcases
    · rw [hidle]; decide
    · rw [hfaulted]; decide
  obtain ⟨hheld, hstops⟩ := hrest
  have hphases : (s.lane l).toRetract.phasesLegal := by
    obtain ⟨hA, hB⟩ := h.phases.disarmed (Lane.phaseOrHeld_of_state rfl hheld) hstops
    exact Lane.phasesLegal_of_state (st := .retract) rfl (by decide) (h.phases.heldPhase_none hheld)
      (fun st he => Option.some.inj he ▸ hcases) (fun ha => absurd ha (Bool.eq_false_iff.1 hA))
      fun hb => absurd hb (Bool.eq_false_iff.1 hB)
  have hlane := s.lane_setLane l ((s.lane l).toRetract.motionStart .retract).1
  unfold State.startRetract
  dsimp only
  split
  next hr => exact State.motorFaultEvent_lawful (hlane.symm ▸ Lane.motionStart_halted hphases (hr ▸ by decide))
  next hr => exact hlane.symm ▸ Lane.motionStart_lawful hphases rfl (by decide) hr
  next hr => cases Lane.motionStart_homeArrival hr
  next hr => cases Lane.motionStart_homeLimit hr

theorem State.resetLane_lawful : ((s.resetLane l).lane l).motorLawful up := by
  have reset : (s.lane l).resetLane.motorLawful up :=
    Lane.Halted.lawful_rest
      ⟨Drive.stop_stopped _, Lane.phasesLegal_of_state (st := .idle) rfl (by decide) rfl nofun nofun nofun⟩ rfl
  have marked : ({ s.upd l Lane.resetLane with engine := (s.upd l Lane.resetLane).engine.discard l } : State).lane l =
      (s.lane l).resetLane := (State.lane_congr rfl rfl l).trans (s.lane_upd l _)
  unfold State.resetLane
  rw [State.emit_lane]
  refine .of_motoring (marked.symm ▸ reset) ?_
  exact ((State.giveUpBlock_motoring _ l .full).trans (State.giveUpBlock_motoring _ l .region)).lanes l

/-- The tube leaves a lane in FINISH (R148, R150). -/
theorem State.leaveFinish_lawful (h : (s.lane l).motorLawful up) (hst : (s.lane l).ctl.state = .finish) (fault : Option FaultCause) :
    ((s.leaveFinish l fault).lane l).motorLawful up := by
  have hclosed : (s.lane l).closeTube.motoring = (s.lane l).motoring := Lane.motoring_updateRearm _
  have hlawful := h.of_motoring hclosed
  have hfinish : (s.lane l).closeTube.ctl.state = .finish := (congrArg (fun y => y.ctl.state) hclosed :).trans hst
  obtain ⟨hstopped, hphases⟩ := hlawful.halted (by rw [hfinish]; rfl)
  have hdisarmed := hphases.disarmed (Lane.phaseOrHeld_of_state hfinish (by decide)) (by decide)
  unfold State.leaveFinish
  dsimp only
  split
  · exact State.enterFaulted_lawful ((s.lane_upd l _).symm ▸ hdisarmed) _
  · obtain ⟨hA, hB⟩ := hdisarmed
    rw [State.upd_upd, State.lane_upd]
    exact Lane.Halted.lawful_rest
      ⟨hstopped, Lane.phasesLegal_of_state (st := .idle) rfl (by decide) (hphases.heldPhase_none (by rw [hfinish]; decide))
        hphases.returns (fun ha => absurd ha (Bool.eq_false_iff.1 hA)) fun hb => absurd hb (Bool.eq_false_iff.1 hB)⟩ rfl

end

end Sys2Proof.Machine

/-! The motor law over every step (R121, R123, R124, R26, R151): events, the station line and requests, lane by lane. -/

namespace Sys2Proof.Machine

/-! ### Both lanes -/

/-- Both lanes obey the motor law for the link as it stands. -/
def State.Lawful (s : State) : Prop := ∀ l, (s.lane l).motorLawful s.link.up

theorem State.motorLaw_iff (s : State) : s.motorLaw ↔ s.Lawful :=
  ⟨fun ⟨ha, hb⟩ l => by cases l <;> assumption, fun h => ⟨h .a, h .b⟩⟩

namespace State.Lawful

variable {s t : State} {l : LaneId}

theorem same (h : s.Lawful) (ht : s.SameMotoring t) : t.Lawful := fun l => by
  rw [ht.up]
  exact (h l).of_motoring (ht.lanes l)

/-- A change of a lane outside what the law speaks of. -/
theorem frame (h : s.Lawful) (l : LaneId) {f : Lane → Lane} (hf : (f (s.lane l)).motoring = (s.lane l).motoring) :
    (s.upd l f).Lawful := h.same (.upd s l hf)

theorem reports (h : s.Lawful) (ht : s.Reports t) : t.Lawful := h.same (.of_reports ht)

theorem reach (h : s.Lawful) (due : Nat) : (s.reach due).Lawful := h.same (.of_lanes (s.reach_lane due) rfl)

/-- An operation that keeps to a lane and leaves it lawful. -/
theorem of_keeps (h : s.Lawful) (hk : State.KeepsTo l s t) (hl : (t.lane l).motorLawful s.link.up) : t.Lawful := fun k => by
  have hup : t.link.up = s.link.up := by rw [hk.link]
  rw [hup]
  obtain rfl | rfl := eq_or_eq_otherLane l k
  · exact hl
  · rw [hk.other]
    exact h _

theorem upd (h : s.Lawful) (l : LaneId) {f : Lane → Lane} (hf : (f (s.lane l)).motorLawful s.link.up) : (s.upd l f).Lawful :=
  h.of_keeps (.upd l s f) (by rwa [State.lane_upd])

theorem foldl {α : Type} {f : State → α → State} (hf : ∀ {s : State} a, s.Lawful → (f s a).Lawful) (as : List α) (h : s.Lawful) :
    (as.foldl f s).Lawful := by
  induction as generalizing s with
  | nil => exact h
  | cons a as ih => exact ih (hf a h)

/-! ### Operations of a lane in both lanes -/

theorem finishWait (h : s.Lawful) (l : LaneId) : (s.finishWait l).Lawful := h.same (s.finishWait_motoring l)

theorem captureCycle (h : s.Lawful) (l : LaneId) (c : Cycle) : (s.captureCycle l c).Lawful := h.same (s.captureCycle_motoring l c)

theorem testStops (h : s.Lawful) (l : LaneId) : (s.testStops l).Lawful := h.of_keeps (s.testStops_keeps l) (State.testStops_lawful (h l))

theorem testHomeLimit (h : s.Lawful) (l : LaneId) : (s.testHomeLimit l).Lawful := by
  refine h.of_keeps (l := l) ?_ (State.testHomeLimit_lawful (h l))
  unfold State.testHomeLimit
  dsimp only
  split
  · exact .upd_trans (State.withdrawResult_keeps _ l _)
  · exact .refl l s

theorem takeFrontOrder (h : s.Lawful) (l : LaneId) : (s.takeFrontOrder l).Lawful :=
  h.of_keeps (s.takeFrontOrder_keeps l) (State.takeFrontOrder_lawful (h l))

theorem inputChange (h : s.Lawful) (l : LaneId) (i : InputId) : (s.inputChange l i).Lawful :=
  h.of_keeps (s.inputChange_keeps l i) (State.inputChange_lawful (h l) i)

theorem settleInput (h : s.Lawful) (l : LaneId) (i : InputId) : (s.settleInput l i).Lawful :=
  h.of_keeps (s.settleInput_keeps l i) (State.settleInput_lawful (h l) i)

theorem enterHeld (h : s.Lawful) (hst : (s.lane l).ctl.state.holdable = true) : (s.enterHeld l).Lawful :=
  h.of_keeps (s.enterHeld_keeps l) (State.enterHeld_lawful (h l).phases hst)

/-- A lane that is lawful for a link that is UP is HELD at the end of its step where the link is LOST (log entry 10). -/
theorem holdIfLost (h : s.Lawful) (hk : State.KeepsTo l s t) (hl : (t.lane l).motorLawful true) : (t.holdIfLost l).Lawful := by
  have hup : t.link.up = s.link.up := by rw [hk.link]
  exact h.of_keeps (hk.trans (t.holdIfLost_keeps l)) (hup ▸ State.holdIfLost_lawful hl)

/-- A received byte changes neither lane, and the link can only become UP (R173, R175). -/
theorem bringsUp (h : s.Lawful) (ht : ∀ l, t.lane l = s.lane l) (hup : t.link.up = s.link.up ∨ t.link.up = true) : t.Lawful :=
  fun l => by
    rw [ht]
    obtain hup | hup := hup <;> rw [hup]
    · exact h l
    · exact (h l).of_up

end State.Lawful

/-! ### The station line (chapter 10) -/

theorem State.signOfLife_up (s : State) : s.signOfLife.link.up = true := by
  unfold State.signOfLife
  dsimp only
  split
  · rfl
  · rw [((State.formNotice_reports _ _).trans (State.kick_reports _)).link]

/-- A good frame leaves the link UP, whether the request queue takes it or not (R175). -/
theorem State.goodFrame_up (s : State) (payload : List Byte) : (s.goodFrame payload).link.up = true := by
  have haccept : ∀ k : Link, (k.accept payload).up = k.up := fun k => by
    unfold Link.accept
    split <;> rfl
  exact (haccept _).trans s.signOfLife_up

theorem State.frameByte_up (s : State) (got : List Byte) :
    (s.frameByte got).link.up = s.link.up ∨ (s.frameByte got).link.up = true := by
  unfold State.frameByte State.judge
  split
  · exact .inl rfl
  · split
    · split
      · exact .inr (State.goodFrame_up _ _)
      · exact .inl rfl
    · exact .inl rfl

theorem State.rxByte_up (s : State) (b : Byte) : (s.rxByte b).link.up = s.link.up ∨ (s.rxByte b).link.up = true := by
  unfold State.rxByte
  split
  · split <;> exact .inl rfl
  · exact s.frameByte_up _

theorem State.Lawful.receive {s : State} (h : s.Lawful) (bytes : List Byte) : (s.receive bytes).Lawful :=
  (State.Lawful.foldl (fun b hs => hs.bringsUp (State.rxByte_lane _ b) (State.rxByte_up _ b)) bytes h).same
    (.of_lanes (State.lane_withLink _ _) rfl)

section

variable {s t : State} {l : LaneId}

theorem execFrameTimeout_lawful (h : s.Lawful) (ht : execFrameTimeout s = .next t) : t.Lawful := by
  cases ht
  split
  · exact (h.reach _).same (.of_lanes (State.badFrame_lane _) rfl)
  · exact h

/-- The loss of the link holds each lane that its loss can hold (R151, R176). -/
theorem execSilenceTimeout_lawful (h : s.Lawful) (ht : execSilenceTimeout s = .next t) : t.Lawful := by
  have held : ∀ (u : State) (k : LaneId) (up : Bool), (u.lane k).motorLawful up → ((u.holdIf k).lane k).motorLawful false := by
    intro u k up hu
    unfold State.holdIf
    split
    next hst => exact State.enterHeld_lawful hu.phases hst
    next hst => exact hu.of_not_holdable (Bool.eq_false_iff.2 hst) _
  cases ht
  split
  next due _ _ =>
    have hA := held (s.reach due).loseLink .a _ (by rw [State.loseLink_lane, State.reach_lane]; exact h .a)
    have hother : ((s.reach due).loseLink.holdIf .a).lane .b = s.lane .b :=
      ((State.holdIf_keeps _ .a).other.trans (State.loseLink_lane _ _)).trans (s.reach_lane _ _)
    have hB := held ((s.reach due).loseLink.holdIf .a) .b _ (by rw [hother]; exact h .b)
    have hup : (((s.reach due).loseLink.holdIf .a).holdIf .b).link.up = false := by
      rw [((State.holdIf_keeps _ .a).link.symm ▸ (State.holdIf_keeps _ .b).link :)]
      rfl
    intro k
    rw [hup]
    cases k with
    | a =>
      have hfirst : (((s.reach due).loseLink.holdIf .a).holdIf .b).lane .a = ((s.reach due).loseLink.holdIf .a).lane .a :=
        (State.holdIf_keeps _ .b).other
      exact hfirst ▸ hA
    | b => exact hB
  · exact h

theorem execTransmissionEnd_lawful (h : s.Lawful) (ht : execTransmissionEnd s = .next t) : t.Lawful := by
  cases ht
  split
  · exact h
  · exact (h.reach _).reports (State.choose_reports _)
  · exact ((h.reach _).reports (.pool _ _)).reports ((State.returnBuffer_reports _).trans (State.choose_reports _))

/-! ### Inputs, encoder, control period and scan (chapters 1, 2 and 7) -/

theorem execEdge_lawful {phase : EncPhase} (h : s.Lawful) (ht : execEdge l phase s = .next t) : t.Lawful := by
  have accepted : (s.upd l fun x => x.accept phase).Lawful := h.frame l rfl
  cases ht
  split
  · exact accepted.frame l rfl
  · split
    · exact ((accepted.frame l rfl).testStops l).testHomeLimit l
    · exact accepted

/-- The speed loop and the stall test set duty and window of a running motor alone (R126, R128). -/
theorem Lane.drivePeriod_lawful {x : Lane} {up : Bool} (h : x.motorLawful up) (tight : Bool) : (x.drivePeriod tight).motorLawful up := by
  unfold Lane.drivePeriod
  split
  next hrun =>
    obtain ⟨⟨hphase, henabled, hbrake, hdir, _⟩, hrest⟩ := h
    exact ⟨⟨hphase, henabled, hbrake, hdir, fun hoff => absurd (hrun.symm.trans hoff) (by decide)⟩, hrest⟩
  · exact h

theorem execControlPeriodEnd_lawful (h : s.Lawful) (ht : execControlPeriodEnd l s = .next t) : t.Lawful := by
  cases ht
  refine (h.reach _).upd l (Lane.drivePeriod_lawful ?_ _)
  rw [State.reach_lane]
  exact (h l).of_motoring ((Lane.motoring_pullSpeeds _).trans (Lane.motoring_periodMeasure _))

theorem execStall_lawful (h : s.Lawful) (ht : execStall l s = .next t) : t.Lawful := by
  cases ht
  split
  next hdue =>
    obtain ⟨hrun, _⟩ := Bool.and_eq_true_iff.1 hdue
    obtain ⟨_, hphases, hon, _⟩ := h l
    obtain ⟨hup, _⟩ := hon hrun
    refine h.of_keeps (.upd_trans (State.stallEvent_keeps _ l _)) ?_
    rw [hup]
    exact State.stallEvent_lawful ((s.lane_upd l _).symm ▸ Lane.phasesLegal.halt hphases) _
  · exact h

theorem execDebouncedStateChange_lawful {i : InputId} (h : s.Lawful) (ht : execDebouncedStateChange l i s = .next t) : t.Lawful := by
  cases ht
  split
  · exact h
  · exact (h.reach _).inputChange l i

theorem execSwitchEnd_lawful (h : s.Lawful) (ht : execSwitchEnd l s = .next t) : t.Lawful := by
  cases ht
  split
  · exact (h.reach _).frame l rfl
  · exact h

theorem execSettleEnd_lawful (h : s.Lawful) (ht : execSettleEnd l s = .next t) : t.Lawful := by
  cases ht
  split
  · exact (h.reach _).frame l rfl
  · exact h

theorem execSlotEnd_lawful {d : Demod} (h : s.Lawful) (ht : execSlotEnd l d s = .next t) : t.Lawful := by
  cases ht
  split
  · unfold State.endSlot
    dsimp only
    split
    · exact (h.reach _).frame l rfl
    · exact ((h.reach _).frame l rfl).captureCycle l _
  · exact h

/-! ### The lane controller and the engine (chapters 4 and 8) -/

theorem execGuidePoll_lawful (h : s.Lawful) (ht : execGuidePoll l s = .next t) : t.Lawful := by
  cases ht
  split
  next due hst _ =>
    have polled : ((s.reach due).upd l fun x => x.nextPoll due).Lawful := (h.reach _).frame l rfl
    have hstate : (((s.reach due).upd l fun x => x.nextPoll due).lane l).ctl.state = .guideCheck := by
      rw [State.lane_upd, State.reach_lane]
      exact hst
    have hlane := polled l
    have hup := hlane.up_of_holdable (by rw [hstate]; rfl)
    refine polled.of_keeps (State.guideTest_keeps _ l) ?_
    rw [hup] at hlane ⊢
    exact State.guideTest_lawful hlane hstate
  · exact h

theorem execTurnDwellEnd_lawful (h : s.Lawful) (ht : execTurnDwellEnd l s = .next t) : t.Lawful := by
  cases ht
  split
  next due hst _ =>
    have hlane := (h.reach due) l
    rw [State.reach_lane] at hlane
    have hup := hlane.up_of_holdable (by rw [hst]; rfl)
    refine (h.reach due).of_keeps (State.enterPull_keeps _ l) ?_
    rw [hup]
    exact State.enterPull_lawful ((s.reach_lane due l).symm ▸ hlane.phases) ((s.reach_lane due l).symm ▸ hst)
  · exact h

theorem State.leaveFinish_keeps (s : State) (l : LaneId) (fault : Option FaultCause) : KeepsTo l s (s.leaveFinish l fault) := by
  unfold State.leaveFinish
  dsimp only
  split
  · exact .upd_trans (State.enterFaulted_keeps _ l _)
  · exact (KeepsTo.upd l s _).trans_upd _

theorem execReportRecord_lawful (h : s.Lawful) (ht : execReportRecord l s = .next t) : t.Lawful := by
  cases ht
  split
  next u hst _ =>
    split
    · unfold State.report
      split
      · exact (h.frame l rfl).reports (State.queueRecord_reports _ _)
      · have queued := h.reports (s.queueRecord_reports (.summary l ((s.lane l).summary u)))
        have hlane := (s.queueRecord_reports (.summary l ((s.lane l).summary u))).lane l
        exact queued.of_keeps (State.leaveFinish_keeps _ l _) (State.leaveFinish_lawful (queued l) (by rw [hlane]; exact hst) _)
    · exact h
  · exact h

theorem execJobCompletion_lawful (h : s.Lawful) (ht : execJobCompletion s = .next t) : t.Lawful := by
  cases ht
  split
  · exact h
  next e _ =>
    have delivered : (if e.discarded then s.reach e.doneAt else (s.reach e.doneAt).deliver e.lane e.job).Lawful := by
      split
      · exact h.reach _
      · exact (h.reach _).same (State.deliver_motoring _ _ _)
    exact (delivered.same (State.engineChoose_motoring _)).finishWait _

/-- After power-on both lanes are IDLE, their motors stopped (R135, R156). -/
theorem State.poweredOn_lawful (s : State) : s.poweredOn.Lawful := fun l => by
  rw [State.poweredOn_lane]
  exact Lane.Halted.lawful_rest
    ⟨⟨rfl, rfl, rfl, rfl, rfl⟩, Lane.phasesLegal_of_state (st := .idle) rfl (by decide) rfl nofun nofun nofun⟩ rfl

/-! ### Requests (R177, R178) -/

theorem State.Lawful.handle {kind : Nat → Bool} {f : List Byte → State → Handled} (h : s.Lawful)
    (hf : ∀ p {u : State}, u.Lawful → (f p u).Meets State.Lawful)
    (ht : Host.Outcome.next (φ := Fault) (ρ := Refusal) (s.handle kind f) = .next t) : t.Lawful := by
  cases ht
  obtain hid | ⟨p, _, _, htaken⟩ := s.handle_cases kind f
  · rw [hid]
    exact h
  · have popped : s.popRequest.Lawful := h.same (.of_lanes s.popRequest_lane rfl)
    have met := hf p popped
    rw [htaken]
    generalize f p s.popRequest = o at met
    cases o with
    | refused code => exact popped.reports (State.placeReply_reports _ _)
    | done u body => exact State.Lawful.reports met (State.placeReply_reports _ _)
    | inFlight u => exact State.Lawful.same met (.of_lanes (u.working_lane _) rfl)

variable (p : List Byte)

theorem handleSetLink_lawful (h : s.Lawful) : (handleSetLink p s).Meets State.Lawful := by
  refine forUnit_meets ?_
  split
  · refine State.Lawful.reports ?_ (State.testPool_reports _)
    exact h.same (.of_lanes (State.lane_congr rfl rfl) rfl)
  · trivial

theorem handleSetLayout_lawful (h : s.Lawful) : (handleSetLayout p s).Meets State.Lawful := by
  refine forUnit_meets (Handled.meets_of_check (Handled.meets_of_check ?_))
  split
  · exact h.same (.of_lanes (State.lane_congr rfl rfl) rfl)
  · trivial

theorem handleSetScan_lawful (h : s.Lawful) : (handleSetScan p s).Meets State.Lawful := by
  refine forSetup_meets fun l => ?_
  split
  · exact h.frame l rfl
  · trivial

theorem handleSetChannel_lawful (h : s.Lawful) : (handleSetChannel p s).Meets State.Lawful := by
  refine forSetup_meets fun l => Handled.meets_of_check ?_
  split
  · exact h.frame l rfl
  · trivial

theorem handleSetMix_lawful (h : s.Lawful) : (handleSetMix p s).Meets State.Lawful := by
  have mixed : ∀ (l : LaneId) (ch : Nat) (m : MixChannel), (s.setMix l ch m).Meets State.Lawful := fun l _ _ => h.frame l rfl
  refine forSetup_meets fun l => Handled.meets_of_check ?_
  split
  · exact mixed l _ _
  · split
    · split
      · exact mixed l _ _
      · trivial
    · trivial

theorem handleSetLandmark_lawful (h : s.Lawful) : (handleSetLandmark p s).Meets State.Lawful := by
  refine forSetup_meets fun l => ?_
  split
  · exact h.frame l rfl
  · trivial

theorem Lane.motoring_setMotion (x : Lane) (scale : Nat) (m : Motion) : (x.setMotion scale m).motoring = x.motoring := by
  unfold Lane.setMotion Position.setScale
  split <;> rfl

theorem handleSetMotion_lawful (h : s.Lawful) : (handleSetMotion p s).Meets State.Lawful := by
  refine forSetup_meets fun l => ?_
  split
  · exact State.Lawful.foldl (fun i hs => hs.settleInput l i) allInputs (h.frame l (Lane.motoring_setMotion _ _ _))
  · trivial

theorem handleQueueTube_lawful (h : s.Lawful) : (handleQueueTube p s).Meets State.Lawful := by
  refine forLaneLength_meets fun l => ?_
  have queued : ((s.upd l fun y => y.appendOrder (orderAt p)).takeFrontOrder l).Lawful := (h.frame l rfl).takeFrontOrder l
  exact Handled.meets_of_check (Handled.meets_of_check (Handled.meets_of_check (Handled.meets_of_check
    (Handled.meets_of_check queued))))

theorem handleCancelTube_lawful (h : s.Lawful) : (handleCancelTube p s).Meets State.Lawful := by
  refine forLaneLength_meets fun l => ?_
  dsimp only
  split
  · exact h.frame l rfl
  · trivial

theorem handleAbort_lawful (h : s.Lawful) : (handleAbort p s).Meets State.Lawful := by
  refine forLaneLength_meets fun l => ?_
  split
  next u hu => exact h.holdIfLost (s.abortLane_keeps u l hu) (State.abortLane_lawful (h l) hu)
  · trivial

theorem handleHold_lawful (h : s.Lawful) : (handleHold p s).Meets State.Lawful := by
  refine forLaneLength_meets fun l => ?_
  dsimp only
  split
  next hst => exact h.enterHeld hst
  · split
    · exact h
    · trivial

theorem handleResume_lawful (h : s.Lawful) : (handleResume p s).Meets State.Lawful := by
  refine forLaneLength_meets fun l => ?_
  split
  next hst => exact h.holdIfLost (s.resumeLane_keeps l) (State.resumeLane_lawful (h l) hst)
  · trivial

theorem handleRetract_lawful (h : s.Lawful) : (handleRetract p s).Meets State.Lawful := by
  refine forLaneLength_meets fun l => ?_
  dsimp only
  split
  next hst => exact h.holdIfLost (s.startRetract_keeps l) (State.startRetract_lawful (h l) (Bool.and_eq_true_iff.1 hst).1)
  · trivial

theorem handleLaneReset_lawful (h : s.Lawful) : (handleLaneReset p s).Meets State.Lawful :=
  forLaneLength_meets fun l => h.of_keeps (s.resetLane_keeps l) State.resetLane_lawful

theorem handleSpanCal_lawful (h : s.Lawful) : (handleSpanCal p s).Meets State.Lawful :=
  forSetup_meets fun l => Handled.meets_of_check (Handled.meets_of_check (Handled.meets_of_check (Handled.meets_of_check
    (h.same (s.appendJob_motoring l _)))))

theorem handleSolveMix_lawful (h : s.Lawful) : (handleSolveMix p s).Meets State.Lawful := by
  refine forSetup_meets fun l => ?_
  dsimp only
  split
  · exact Handled.meets_of_check (Handled.meets_of_check (h.same (s.appendJob_motoring l _)))
  · trivial

/-! ### Every step -/

theorem exec_lawful {c : Instr} (h : s.Lawful) (ht : exec c s = .next t) : t.Lawful := by
  cases c with
  | powerOn =>
    cases ht
    exact s.poweredOn_lawful
  | rawLevelChange l i level => cases ht; exact h.frame l (Lane.motoring_rawLevel _ i level _)
  | debouncedStateChange l i => exact execDebouncedStateChange_lawful h ht
  | edge l phase => exact execEdge_lawful h ht
  | controlPeriodEnd l => exact execControlPeriodEnd_lawful h ht
  | stall l => exact execStall_lawful h ht
  | switchEnd l => exact execSwitchEnd_lawful h ht
  | settleEnd l => exact execSettleEnd_lawful h ht
  | slotEnd l d => exact execSlotEnd_lawful h ht
  | guidePoll l => exact execGuidePoll_lawful h ht
  | turnDwellEnd l => exact execTurnDwellEnd_lawful h ht
  | takeOrder l => cases ht; exact h.takeFrontOrder l
  | jobCompletion => exact execJobCompletion_lawful h ht
  | reportRecord l => exact execReportRecord_lawful h ht
  | frameReceived bytes | syncWordFound bytes | frameLengthOutOfRange bytes => cases ht; exact h.receive bytes
  | frameTimeout => exact execFrameTimeout_lawful h ht
  | silenceTimeout => exact execSilenceTimeout_lawful h ht
  | transmissionEnd => exact execTransmissionEnd_lawful h ht
  | badKind => exact h.handle (f := fun _ _ => .refused .badKind) (fun _ _ _ => trivial) ht
  | status => exact h.handle (f := handleStatus) (fun _ _ hu => forUnit_meets hu) ht
  | setLink => exact h.handle (fun p _ hu => handleSetLink_lawful p hu) ht
  | setLayout => exact h.handle (fun p _ hu => handleSetLayout_lawful p hu) ht
  | setScan => exact h.handle (fun p _ hu => handleSetScan_lawful p hu) ht
  | setChannel => exact h.handle (fun p _ hu => handleSetChannel_lawful p hu) ht
  | setMix => exact h.handle (fun p _ hu => handleSetMix_lawful p hu) ht
  | setLandmark => exact h.handle (fun p _ hu => handleSetLandmark_lawful p hu) ht
  | setMotion => exact h.handle (fun p _ hu => handleSetMotion_lawful p hu) ht
  | queueTube => exact h.handle (fun p _ hu => handleQueueTube_lawful p hu) ht
  | cancelTube => exact h.handle (fun p _ hu => handleCancelTube_lawful p hu) ht
  | abort => exact h.handle (fun p _ hu => handleAbort_lawful p hu) ht
  | hold => exact h.handle (fun p _ hu => handleHold_lawful p hu) ht
  | resume => exact h.handle (fun p _ hu => handleResume_lawful p hu) ht
  | retract => exact h.handle (fun p _ hu => handleRetract_lawful p hu) ht
  | laneReset => exact h.handle (fun p _ hu => handleLaneReset_lawful p hu) ht
  | spanCal => exact h.handle (fun p _ hu => handleSpanCal_lawful p hu) ht
  | solveMix => exact h.handle (fun p _ hu => handleSolveMix_lawful p hu) ht

theorem step_lawful (h : s.Lawful) (ht : step s = .next t) : t.Lawful := by
  unfold step at ht
  split at ht
  · cases ht
    exact h.same (.of_lanes s.idle_lane rfl)
  · have taken : ∀ q, (s.withPending q).Lawful := fun q => h.same (.of_lanes (s.withPending_lane q) rfl)
    exact exec_lawful (taken _) ht

end

/-- Settles O4: `State.Lawful` is the law lane by lane; `step_lawful` keeps it. -/
theorem everyStepKeepsTheMotorLaw : Obligations.EveryStepKeepsTheMotorLaw := fun s t hs hstep =>
  t.motorLaw_iff.2 (step_lawful (s.motorLaw_iff.1 hs) hstep)

end Sys2Proof.Machine

/-! Debounced inputs, motor-faults, the home limit and stalls (R119, R120, R128 to R132, R146 to R149). -/

namespace Sys2Proof.Machine

/-! ### The five commands -/

theorem exec_rawLevelChange (s : State) (l : LaneId) (i : InputId) (level : Bool) :
    exec (.rawLevelChange l i level) s = execRawLevelChange l i level s := by rfl

theorem exec_debouncedStateChange (s : State) (l : LaneId) (i : InputId) :
    exec (.debouncedStateChange l i) s = execDebouncedStateChange l i s := by rfl

theorem exec_stall (s : State) (l : LaneId) : exec (.stall l) s = execStall l s := by rfl

theorem exec_setMotion (s : State) : exec .setMotion s = execSetMotion s := by rfl

/-! ### The drive (R119, R124) -/

@[simp] theorem Drive.input_stop (d : Drive) (i : InputId) : d.stop.input i = d.input i := by cases i <;> rfl

/-- A stop of a stopped motor changes nothing. -/
theorem Drive.stop_of_stopped {d : Drive} (h : d.stopped) : d.stop = d := by
  obtain ⟨henabled, hbrake, hduty, hphase, hwindow⟩ := h
  rw [Drive.stop, ← henabled, ← hbrake, ← hduty, ← hphase, ← hwindow]

theorem Drive.setInput_stopped {d : Drive} (h : d.stopped) (i : InputId) (v : Input) : (d.setInput i v).stopped := by
  cases i <;> exact h

/-- The raw level of an input, and since when it stands (R119). -/
theorem Input.level_eq (v : Input) (level : Bool) (now : Nat) :
    v.level level now = { raw := level, active := v.active, since := if v.raw = level then v.since else now } := by
  unfold Input.level
  split
  next h => rw [← h]
  · rfl

/-- Settles O39: `Input.level_eq`, and an input that has returned meets no debounced change. -/
theorem rawLevelsAreDebounced : Obligations.RawLevelsAreDebounced := by
  refine ⟨fun s l i level => ?_, fun s l i hsame => ?_⟩
  · rw [exec_rawLevelChange, execRawLevelChange, State.upd_eq_setLane, Input.level_eq]
  · rw [exec_debouncedStateChange, execDebouncedStateChange]
    exact congrArg Host.Outcome.next (if_pos hsame)

/-! ### The entry to FINISH (R148) -/

/-- From `s` to `t` lane `l` has entered FINISH: the motor stopped, the stops disarmed, the tube with its order, outcome, fault mark and
flags as they were. -/
structure State.Finishes (l : LaneId) (s t : State) : Prop where
  keeps : State.KeepsTo l s t
  engine : t.engine = s.engine
  pool : t.pool = s.pool
  link : t.link = s.link
  state : (t.lane l).ctl.state = .finish
  stops : (t.lane l).pos.armedA = false ∧ (t.lane l).pos.armedB = false
  drive : (t.lane l).drive = (s.lane l).drive.stop
  detector : (t.lane l).detector = (s.lane l).detector
  tube : ∀ u, (s.lane l).ctl.tube = some u → ∃ v, (t.lane l).ctl.tube = some v ∧
    v.order = u.order ∧ v.outcome = u.outcome ∧ v.fault = u.fault ∧ v.flags = u.flags

/-- FINISH's wait changes the places in the catalogue and its own end alone (R113, R148). -/
theorem State.finishWait_tube (s : State) (l : LaneId) : ∃ f : Tube → Tube, s.finishWait l = (s.upd l fun x => x.updTube f) ∧
    ∀ u, (f u).order = u.order ∧ (f u).outcome = u.outcome ∧ (f u).fault = u.fault ∧ (f u).flags = u.flags := by
  refine ⟨_, s.finishWait_eq l, fun u => ?_⟩
  split <;> exact ⟨rfl, rfl, rfl, rfl⟩

/-- The lane as it enters FINISH. -/
def Lane.toFinish (x : Lane) : Lane :=
  ((x.stopDrive.disarmStops).enter .finish).updCtl fun c => { c.timersOff with heldPhase := none }

theorem State.enterFinish_eq (s : State) (l : LaneId) : s.enterFinish l = (s.upd l Lane.toFinish).finishWait l := rfl

/-- A lane with a stopped motor enters FINISH after its tube's outcome and fault. -/
theorem Lane.toFinish_of_stopped {x : Lane} (h : x.drive.stopped) (o : TubeOutcome) (c : FaultCause) :
    ((x.disarmStops.updTube fun t => t.decideOutcome o).updTube fun t => t.mark c).toFinish = x.finishing o c := by
  calc
    _ = { x.finishing o c with
          drive := x.drive.stop
          ctl := { (x.finishing o c).ctl with tube := (x.ctl.tube.map fun t => t.decideOutcome o).map fun t => t.mark c } } := rfl
    _ = x.finishing o c := by
      rw [Drive.stop_of_stopped h, Option.map_map]
      rfl

theorem State.enterFinish_finishes (s : State) (l : LaneId) : State.Finishes l s (s.enterFinish l) := by
  have hkeeps := s.enterFinish_keeps l
  obtain ⟨f, hwait, hf⟩ := State.finishWait_tube (s.upd l fun x =>
    ((x.stopDrive.disarmStops).enter .finish).updCtl fun c => { c.timersOff with heldPhase := none }) l
  rw [State.upd_upd] at hwait
  have heq : s.enterFinish l = s.upd l fun x => x.toFinish.updTube f := hwait
  rw [heq] at hkeeps ⊢
  refine ⟨hkeeps, s.upd_engine l _, s.upd_pool l _, s.upd_link l _, ?_, ?_, ?_, ?_, fun u hu => ?_⟩
  all_goals rw [State.lane_upd]
  · rfl
  · exact ⟨rfl, rfl⟩
  · rfl
  · rfl
  · exact ⟨f u, congrArg (Option.map f) hu, hf u⟩

/-- A pull that ends with a fault of a stopped motor: FINISH is entered behind PULL_ENDED (R146, R149). -/
theorem State.endPull_finish {s : State} {l : LaneId} (h : (s.lane l).drive.stopped) (o : TubeOutcome) (c : FaultCause) :
    ((s.endPull l o).upd l fun x => x.updTube fun t => t.mark c).enterFinish l =
      (((s.pullEnding l).emit l .pullEnded none).setLane l
        ((((s.pullEnding l).emit l .pullEnded none).lane l).finishing o c)).finishWait l := by
  have hstopped : (((s.pullEnding l).emit l .pullEnded none).lane l).drive.stopped := by
    obtain ⟨_, hsame, _⟩ := Lane.controls_fields (s.pullEnding_controls l)
    rw [State.emit_lane, hsame]
    exact h
  rw [State.endPull_eq, State.upd_upd, State.enterFinish_eq, State.upd_upd, State.upd_eq_setLane, Lane.toFinish_of_stopped hstopped]

/-- That lane is in FINISH with its pull closed, the drive as it was, the tube with outcome and fault mark (R146, R148, R150). -/
theorem State.endPull_finished {s : State} {l : LaneId} (h : (s.lane l).drive.stopped) (o : TubeOutcome) (c : FaultCause) {t : State}
    (ht : t = ((s.endPull l o).upd l fun x => x.updTube fun u => u.mark c).enterFinish l) :
    (t.lane l).ctl.state = .finish ∧ (t.lane l).drive = (s.lane l).drive ∧ (t.lane l).pullClosed ∧
      ∀ u, (s.lane l).ctl.tube = some u → ∃ v, (t.lane l).ctl.tube = some v ∧ v.order = u.order ∧
        v.outcome = some (u.outcome.getD o) ∧ v.fault = some (u.fault.getD c) := by
  have hclosed := s.pullEnding_closed l
  have hcontrols := s.pullEnding_controls l
  obtain ⟨_, hdrive, _⟩ := Lane.controls_fields hcontrols
  obtain ⟨f, hwait, hf⟩ := State.finishWait_tube (((s.pullEnding l).emit l .pullEnded none).setLane l
    ((((s.pullEnding l).emit l .pullEnded none).lane l).finishing o c)) l
  have hlane : t.lane l = (((s.pullEnding l).lane l).finishing o c).updTube f := by
    rw [ht, State.endPull_finish h, hwait, State.lane_upd, State.lane_setLane, State.emit_lane]
  rw [hlane]
  refine ⟨rfl, hdrive, hclosed, fun u hu => ?_⟩
  obtain ⟨w, hw, horder, houtcome, hfault⟩ := Lane.controls_tube hcontrols hu
  obtain ⟨hforder, hfoutcome, hffault, _⟩ := hf { w with outcome := some (w.outcome.getD o), fault := some (w.fault.getD c) }
  refine ⟨_, congrArg (Option.map f) (congrArg (Option.map _) hw), hforder.trans horder, hfoutcome.trans ?_, hffault.trans ?_⟩
  · exact congrArg (fun k => some (k.getD o)) houtcome
  · exact congrArg (fun k => some (k.getD c)) hfault

/-- A notice is a matter of the pool and the event mask that it finds. -/
theorem State.noticed.of_same {r s t : State} {l : LaneId} {kind : NoticeKind} {bit : Nat} {tag : Option Nat} {cause : Option FaultCause}
    (h : r.noticed t l kind bit tag cause) (hpool : r.pool = s.pool) (hlink : r.link = s.link) : s.noticed t l kind bit tag cause := by
  unfold State.noticed State.formed at h ⊢
  rwa [← hpool, ← hlink]

/-- FAULTED is entered with its notice (R150). -/
theorem State.enterFaulted_noticed (s : State) (l : LaneId) (cause : FaultCause) :
    ((s.enterFaulted l cause).lane l).ctl.state = .faulted ∧ ((s.enterFaulted l cause).lane l).ctl.returnTo = none ∧
      ((s.enterFaulted l cause).lane l).drive = (s.lane l).drive.stop ∧
      s.noticed (s.enterFaulted l cause) l .faulted 5 (s.lane l).tag (some cause) := by
  have hnotice := State.emit_noticed (s.upd l fun x =>
    ((x.stopDrive).enter .faulted).updCtl fun c => { c with heldPhase := none, returnTo := none }) l .faulted 5 (some cause) rfl
  unfold State.enterFaulted
  rw [State.emit_lane]
  rw [State.lane_upd] at hnotice ⊢
  refine ⟨rfl, rfl, rfl, ?_⟩
  exact hnotice.of_same (s.upd_pool l _) (s.upd_link l _)

/-! ### A debounced change (R119, R120) -/

/-- The lane with the debounced state of an input changed to its raw level. -/
def Lane.changed (x : Lane) (i : InputId) : Lane :=
  { x with drive := x.drive.setInput i { x.drive.input i with active := (x.drive.input i).raw } }

section

variable {s t : State} {l : LaneId}

/-- A pending change takes effect when the raw level has stood for the debounce time (R119). -/
theorem exec_debounced_pending {i : InputId} (h : ((s.lane l).drive.input i).raw ≠ ((s.lane l).drive.input i).active) :
    exec (.debouncedStateChange l i) s =
      .next ((s.reach (((s.lane l).drive.input i).since + (s.lane l).motion.debounce * 1000000)).inputChange l i) := by
  rw [exec_debouncedStateChange, execDebouncedStateChange]
  exact congrArg Host.Outcome.next (if_neg h)

theorem State.inputChange_guide (s : State) (l : LaneId) :
    s.inputChange l .guideLatched = s.upd l fun x => (x.changed .guideLatched).updCtl fun c =>
      { c with rearm := c.rearm || !(s.lane l).drive.guide.raw } := by
  have hrearm : ∀ c : Control, (s.lane l).drive.guide.raw = true →
      ({ c with rearm := c.rearm || !(s.lane l).drive.guide.raw } : Control) = c :=
    fun c h => by rw [h, Bool.not_true, Bool.or_false]
  unfold State.inputChange
  dsimp only
  split
  next h =>
    rw [State.upd_eq_setLane, State.upd_eq_setLane, Lane.updCtl, hrearm _ h]
    rfl
  next h =>
    have hlow : (s.lane l).drive.guide.raw = false := Bool.eq_false_iff.2 h
    rw [State.upd_upd, hlow]
    simp only [Bool.not_false, Bool.or_true]
    rfl

/-- Probe-home becoming ACTIVE while the motor runs in WITHDRAW or RETRACT is a home arrival (R131). -/
theorem State.inputChange_home_arrival (hraw : (s.lane l).drive.home.raw = true) (hhoming : (s.lane l).drive.homing = true) :
    s.inputChange l .probeHome = (s.upd l fun x => (x.changed .probeHome).stopDrive).homeArrivalEvent l := by
  unfold State.inputChange
  dsimp only
  refine (if_pos (Bool.and_eq_true_iff.2 ⟨hraw, hhoming⟩)).trans ?_
  rw [State.upd_upd]
  rfl

theorem State.inputChange_home (h : ((s.lane l).drive.home.raw && (s.lane l).drive.homing) = false) :
    s.inputChange l .probeHome = s.upd l fun x => x.changed .probeHome := by
  unfold State.inputChange
  dsimp only
  exact if_neg (Bool.eq_false_iff.1 h)

/-- Motor-fault becoming ACTIVE stops the motor before the lane controller takes it (R120, R130). -/
theorem State.inputChange_fault (hraw : (s.lane l).drive.fault.raw = true) :
    s.inputChange l .motorFault = (s.upd l fun x => (x.changed .motorFault).stopDrive).motorFaultEvent l := by
  unfold State.inputChange
  dsimp only
  refine (if_pos hraw).trans ?_
  rw [State.upd_upd]
  rfl

theorem State.inputChange_fault_clears (hraw : (s.lane l).drive.fault.raw = false) :
    s.inputChange l .motorFault = s.upd l fun x => x.changed .motorFault := by
  unfold State.inputChange
  dsimp only
  exact if_neg (Bool.eq_false_iff.1 hraw)

/-! ### What the lane controller's events leave of a stopped drive -/

theorem State.enterFinish_drive (h : (s.lane l).drive.stopped) : ((s.enterFinish l).lane l).drive = (s.lane l).drive :=
  (s.enterFinish_finishes l).drive.trans (Drive.stop_of_stopped h)

theorem State.motorFaultEvent_drive (h : (s.lane l).drive.stopped) : ((s.motorFaultEvent l).lane l).drive = (s.lane l).drive := by
  have finished : ∀ f : Lane → Lane, (f (s.lane l)).drive = (s.lane l).drive →
      (((s.upd l f).enterFinish l).lane l).drive = (s.lane l).drive := fun f hf => by
    have hlane : ((s.upd l f).lane l).drive = (s.lane l).drive := by rw [State.lane_upd, hf]
    exact (State.enterFinish_drive (hlane ▸ h)).trans hlane
  unfold State.motorFaultEvent
  dsimp only
  split
  · exact finished _ rfl
  · exact finished _ rfl
  · exact finished _ rfl
  · obtain ⟨_, hdrive, _⟩ := State.endPull_finished h .motorFault .motorFault rfl
    exact hdrive
  · exact finished _ rfl
  · obtain ⟨_, _, hdrive, _⟩ := s.enterFaulted_noticed l .motorFault
    exact hdrive.trans (Drive.stop_of_stopped h)
  all_goals rfl

theorem State.homeArrivalEvent_drive (h : (s.lane l).drive.stopped) : ((s.homeArrivalEvent l).lane l).drive = (s.lane l).drive := by
  unfold State.homeArrivalEvent
  split
  · exact State.enterFinish_drive h
  · rw [State.lane_upd]
    exact Drive.stop_of_stopped h
  all_goals rfl

/-- A debounced change changes its own input and no other (R119). -/
theorem State.inputChange_inputs (s : State) (l : LaneId) (i j : InputId) :
    ((s.inputChange l i).lane l).drive.input j = ((s.lane l).changed i).drive.input j := by
  have stopped : ∀ x : Lane, x.stopDrive.drive.stopped := fun x => x.drive.stop_stopped
  cases i with
  | guideLatched =>
    rw [State.inputChange_guide, State.lane_upd]
    rfl
  | probeHome =>
    cases harrives : (s.lane l).drive.home.raw && (s.lane l).drive.homing with
    | false => rw [State.inputChange_home harrives, State.lane_upd]
    | true =>
      obtain ⟨hraw, hhoming⟩ := Bool.and_eq_true_iff.1 harrives
      rw [State.inputChange_home_arrival hraw hhoming, State.homeArrivalEvent_drive] <;> rw [State.lane_upd]
      · exact Drive.input_stop _ j
      · exact stopped _
  | motorFault =>
    cases hraw : (s.lane l).drive.fault.raw with
    | false => rw [State.inputChange_fault_clears hraw, State.lane_upd]
    | true =>
      rw [State.inputChange_fault hraw, State.motorFaultEvent_drive] <;> rw [State.lane_upd]
      · exact Drive.input_stop _ j
      · exact stopped _

/-- Settles O40: `State.inputChange` by its input, `State.inputChange_inputs` for the inputs, and home arrival by the lane's state. -/
theorem debouncedStatesFollow : Obligations.DebouncedStatesFollow := by
  rintro s l i v rfl hne
  have hexec := exec_debounced_pending hne
  generalize hdue : ((s.lane l).drive.input i).since + (s.lane l).motion.debounce * 1000000 = due at hexec
  rw [hexec]
  have hclock := ((s.reach due).inputChange_keeps l i).clock
  refine ⟨⟨_, rfl, ?_, fun j hj => ?_, hclock⟩, fun hquiet => ?_, ?_⟩
  · rw [State.inputChange_inputs, State.reach_lane]
    exact Drive.input_setInput _ i _
  · rw [State.inputChange_inputs, State.reach_lane]
    exact Drive.input_setInput_ne _ hj _
  · congr 1
    obtain rfl | ⟨rfl, hoff⟩ | ⟨rfl, hraw⟩ := hquiet
    · rw [State.inputChange_guide, State.reach_upd, State.reach_lane]
      rfl
    · have hstays : ((s.lane l).drive.home.raw && (s.lane l).drive.homing) = false := by
        rw [Drive.homing, hoff, Bool.false_and, Bool.and_false]
      rw [State.inputChange_home (by rwa [State.reach_lane]), State.reach_upd]
      simp [Lane.changed]
    · rw [State.inputChange_fault_clears (by rwa [State.reach_lane]), State.reach_upd]
      simp [Lane.changed]
  · rintro rfl hraw hon
    have harrival : ∀ {p : MotionPhase}, (s.lane l).drive.phase = p → p = .withdraw ∨ p = .retract →
        (s.reach due).inputChange l .probeHome =
          ((s.reach due).upd l fun x => (x.changed .probeHome).stopDrive).homeArrivalEvent l := fun {p} hphase hp => by
      refine State.inputChange_home_arrival ?_ ?_ <;> rw [State.reach_lane]
      · exact hraw
      · rw [Drive.homing, hon, hphase]
        obtain rfl | rfl := hp <;> rfl
    generalize hs1 : (s.reach due).upd l (fun x => (x.changed .probeHome).stopDrive) = s1 at harrival
    have hlane : s1.lane l = ((s.lane l).changed .probeHome).stopDrive := by rw [← hs1, State.lane_upd, State.reach_lane]
    have hpool : s1.pool = s.pool := by rw [← hs1, State.upd_pool, State.reach_pool]
    have hother : s1.lane (otherLane l) = s.lane (otherLane l) := by rw [← hs1, State.lane_upd_other, State.reach_lane]
    have hstopped : (s1.lane l).drive.stopped := by
      rw [hlane]
      exact Drive.stop_stopped _
    have hctl : (s1.lane l).ctl = (s.lane l).ctl := by rw [hlane]; rfl
    refine ⟨fun hst hphase => ?_, fun hst hphase => ?_⟩
    · have hfin := s1.enterFinish_finishes l
      have hevent : s1.homeArrivalEvent l = s1.enterFinish l := by
        unfold State.homeArrivalEvent
        rw [hctl, hst]
      refine ⟨s1.enterFinish l, by rw [harrival hphase (.inl rfl), hevent], ?_, hfin.state, hfin.pool.trans hpool,
        hfin.keeps.other.trans hother, fun u hu => ?_⟩
      · rw [hfin.drive]
        exact Drive.stop_stopped _
      · obtain ⟨w, hw, _, houtcome, hfault, hflags⟩ := hfin.tube u (hctl ▸ hu)
        exact ⟨w, hw, houtcome, hfault, hflags⟩
    · have hevent : s1.homeArrivalEvent l = s1.upd l Lane.endRetract := by
        unfold State.homeArrivalEvent
        rw [hctl, hst]
      refine ⟨s1.upd l Lane.endRetract, by rw [harrival hphase (.inr rfl), hevent], ?_, (s1.upd_pool l _).trans hpool,
        (s1.lane_upd_other l _).trans hother, ?_⟩ <;> rw [State.lane_upd]
      · exact Drive.stop_stopped _
      · rw [hlane]
        rfl

end

end Sys2Proof.Machine

/-! The home limit and the stalls (R128, R129, R132, R144, R146, R147, R154). -/

namespace Sys2Proof.Machine

section

variable {s t : State} {l : LaneId}

/-! ### The home limit (R132) -/

theorem Lane.atHomeLimit_of_le {x : Lane} {r : Int} (hr : x.pos.raw = some r) (h : r ≤ -(x.motion.homeLimit : Int)) :
    x.atHomeLimit = true := by
  unfold Lane.atHomeLimit
  rw [hr]
  exact decide_eq_true h

theorem Lane.flag_mark_tube {x : Lane} {u : Tube} (hu : x.ctl.tube = some u) (f : TubeFlags → TubeFlags) (c : FaultCause) :
    ((x.updFlags f).updTube fun t => t.mark c).ctl.tube = some ({ u with flags := f u.flags }.mark c) := by
  simp only [Lane.updTube, Lane.updFlags, hu, Option.map_some]

/-- The lane after a home limit: the motor stopped, the tube flagged and marked (R132, R147). -/
def Lane.homeLimited (x : Lane) : Lane :=
  ((x.stopDrive).updFlags fun f => { f with homeFault := true }).updTube fun u => u.mark .homeLimit

/-- A running withdrawal at the home limit is stopped and passes to FINISH (R132). -/
theorem State.testHomeLimit_reached (hon : (s.lane l).drive.enabled = true) (hphase : (s.lane l).drive.phase = .withdraw)
    (hat : (s.lane l).atHomeLimit = true) : s.testHomeLimit l = (s.setLane l (s.lane l).homeLimited).enterFinish l := by
  unfold State.testHomeLimit
  refine (if_pos ?_).trans ?_
  · rw [hon, hphase, hat]
    rfl
  · rw [State.withdrawResult, State.upd_upd]
    rfl

/-- An edge with disarmed stops that takes a running withdrawal to the home limit. -/
theorem exec_edge_homeLimit {old : EncPhase} {k : Nat} (ha : (s.lane l).pos.armedA = false) (hb : (s.lane l).pos.armedB = false)
    (hon : (s.lane l).drive.enabled = true) (hphase : (s.lane l).drive.phase = .withdraw) (hk : (s.lane l).pos.scale = some k)
    (hk1 : 1 ≤ k) (hfit : fitsS32 (((s.lane l).pos.count - 1) * (k : Int)))
    (hreach : ((s.lane l).pos.count - 1) * (k : Int) ≤ -((s.lane l).motion.homeLimit : Int))
    (hold : forwardOf old = (s.lane l).pos.phase) :
    exec (.edge l old) s = .next ((s.setLane l ((s.lane l).counted old (-1)).homeLimited).enterFinish l) := by
  have hstep : edgeStep (s.lane l).pos.phase old = some (-1) := hold ▸ edgeStep_backward old
  have hstops : (s.setLane l ((s.lane l).counted old (-1))).testStops l = s.setLane l ((s.lane l).counted old (-1)) := by
    rw [State.testStops, State.testStopA_ahead, State.testStopB_ahead]
    all_goals rw [State.lane_setLane]
    · exact fun r u h => by cases hb.symm.trans h
    · exact fun r u h => by cases ha.symm.trans h
  rw [exec_edge, execEdge_counts hstep (by decide) ((Position.holds_iff hk hk1 _).2 hfit), hstops, State.testHomeLimit_reached,
    State.lane_setLane, State.setLane_setLane]
  all_goals rw [State.lane_setLane]
  · exact hon
  · exact hphase
  · exact Lane.atHomeLimit_of_le (Lane.counted_raw hk old (-1)) hreach

/-- Settles O45: `exec_edge_homeLimit`, then what the entry to FINISH leaves. -/
theorem theHomeLimitStopsAWithdrawal : Obligations.TheHomeLimitStopsAWithdrawal := by
  intro s l u k _ ha hb hon hphase hu hk hk1 hfit hreach
  obtain ⟨old, hold⟩ := exists_forwardOf_eq (s.lane l).pos.phase
  have hexec := exec_edge_homeLimit ha hb hon hphase hk hk1 hfit hreach hold
  generalize hx : ((s.lane l).counted old (-1)).homeLimited = x at hexec
  have hfin := (s.setLane l x).enterFinish_finishes l
  have hkeeps := (State.KeepsTo.setLane l s x).trans hfin.keeps
  have htube : x.ctl.tube = some ({ u with flags := { u.flags with homeFault := true } }.mark .homeLimit) := by
    rw [← hx]
    exact Lane.flag_mark_tube (x := ((s.lane l).counted old (-1)).stopDrive) hu _ .homeLimit
  obtain ⟨v, hv, _, houtcome, hfault, hflags⟩ := hfin.tube _ (by rwa [State.lane_setLane])
  refine ⟨_, v, old, hold, hexec, ⟨hkeeps.layouts, ?_, ?_, ?_, hkeeps.pending⟩, hkeeps.other, hfin.state, ?_, hv, hflags, hfault,
    houtcome⟩
  · rw [hfin.engine, State.setLane_engine]
  · rw [hfin.pool, State.setLane_pool]
  · rw [hfin.link, State.setLane_link]
  · rw [hfin.drive]
    exact Drive.stop_stopped _

/-! ### Stalls (R128, R129) -/

theorem execStall_due {w : StallWindow} (hon : (s.lane l).drive.enabled = true) (hw : (s.lane l).drive.window = some w)
    (hdue : (s.lane l).motion.stallTime ≤ w.periods * 10) :
    execStall l s = .next ((s.setLane l (s.lane l).stopDrive).stallEvent l (s.lane l).pos.refPos) := by
  have : (s.lane l).stallDue = true := by
    rw [Lane.stallDue, hon, hw, Bool.true_and]
    exact decide_eq_true hdue
  exact congrArg Host.Outcome.next (if_pos this)

/-- A window short of the stall time is no stall (R128). -/
theorem execStall_short {w : StallWindow} (hw : (s.lane l).drive.window = some w)
    (hshort : w.periods * 10 < (s.lane l).motion.stallTime) : execStall l s = .next s := by
  have : ¬ (s.lane l).stallDue = true := by
    rw [Lane.stallDue, hw, Bool.and_eq_true, decide_eq_true_eq]
    omega
  exact congrArg Host.Outcome.next (if_neg this)

/-- The withdrawal starts where no motor-fault, probe-home or home limit holds it back (R122, R132). -/
theorem State.startWithdraw_started (hfault : (s.lane l).drive.fault.active = false) (hhome : (s.lane l).drive.home.active = false)
    (hlimit : (s.lane l).atHomeLimit = false) :
    s.startWithdraw l = s.setLane l ((s.lane l).toWithdraw.run .withdraw (s.lane l).motion.startDuty) := by
  unfold State.startWithdraw
  obtain ⟨h, _⟩ | ⟨_, h, _⟩ | ⟨_, h, _⟩ | ⟨_, hstart⟩ := (s.lane l).toWithdraw.motionStart_cases .withdraw
  · cases hfault.symm.trans h
  · cases hhome.symm.trans h
  · cases hlimit.symm.trans h
  · rw [hstart]
    rfl

/-- Settles O47: the stopped lane `y` takes the stall by its state; the pull by `State.endPull_finish`, FINISH and FAULTED by what
entering them leaves. -/
theorem stallsEndThePhase : Obligations.StallsEndThePhase := by
  intro s l w hon hw
  refine ⟨fun hshort => (exec_stall s l).trans (execStall_short hw hshort), fun hdue => ?_⟩
  generalize hy : (s.lane l).stopDrive = y
  have hs1 : (s.setLane l y).lane l = y := s.lane_setLane l y
  have hctl : y.ctl = (s.lane l).ctl := by rw [← hy]; rfl
  have hstopped : ((s.setLane l y).lane l).drive.stopped := by
    rw [hs1, ← hy]
    exact Drive.stop_stopped _
  have hexec := (exec_stall s l).trans (execStall_due hon hw hdue)
  have hother := ((State.KeepsTo.setLane l s y).trans (State.stallEvent_keeps _ l (s.lane l).pos.refPos)).other
  rw [hy] at hexec
  unfold State.stallEvent at hexec hother
  rw [hs1, hctl] at hexec hother
  refine ⟨_, hexec, hother, ?_⟩
  refine ⟨fun hst hfault hhome hlimit => ?_, fun hst => ?_, fun hst => ?_, fun hst => ?_⟩
  all_goals simp only [hst]
  · rw [State.startWithdraw_started] <;> rw [State.lane_upd, hs1, ← hy]
    · rw [State.lane_setLane]
      exact ⟨rfl, ⟨rfl, rfl, rfl, rfl, rfl, rfl⟩, rfl, fun u hu => ⟨_, congrArg (Option.map _) hu, rfl, rfl, rfl⟩⟩
    · exact hfault
    · exact hhome
    · exact hlimit
  · obtain ⟨hfinish, hdrive, hclosed, htube⟩ := State.endPull_finished hstopped .stalled .pullStall rfl
    refine ⟨hfinish, hdrive ▸ hstopped, hclosed, ⟨_, ?_, State.endPull_finish hstopped .stalled .pullStall⟩, fun u hu => ?_⟩
    · rw [← hy]
      exact State.pullEnding_emit _ l
    · obtain ⟨v, hv, _, houtcome, hfault⟩ := htube u (by rw [hs1, hctl, hu])
      exact ⟨v, hv, houtcome, hfault⟩
  · have hfin := ((s.setLane l y).upd l fun x =>
      (x.updFlags fun f => { f with withdrawStall := true }).updTube fun u => u.mark .withdrawStall).enterFinish_finishes l
    refine ⟨hfin.state, ?_, fun u hu => ?_⟩
    · rw [hfin.drive]
      exact Drive.stop_stopped _
    · obtain ⟨v, hv, _, houtcome, hfault, hflags⟩ :=
        hfin.tube ({ u with flags := { u.flags with withdrawStall := true } }.mark .withdrawStall) (by
          rw [State.lane_upd, hs1]
          exact Lane.flag_mark_tube (hctl ▸ hu) _ .withdrawStall)
      exact ⟨v, hv, houtcome, hflags, hfault⟩
  · obtain ⟨hfaulted, _, hdrive, hnotice⟩ := (s.setLane l y).enterFaulted_noticed l .retractStall
    refine ⟨hfaulted, ?_, ?_⟩
    · rw [hdrive]
      exact Drive.stop_stopped _
    · rw [hs1, Lane.tag, hctl] at hnotice
      exact hnotice.of_same (s.setLane_pool l y) (s.setLane_link l y)

end

end Sys2Proof.Machine

/-! Motor-fault becoming ACTIVE (R97, R130, R146, R149). -/

namespace Sys2Proof.Machine

section

variable {s : State} {l : LaneId}

/-- The lane as motor-fault becoming ACTIVE stops it (R130). -/
def Lane.faultStopped (x : Lane) : Lane :=
  { x with drive :=
      { x.drive with
        enabled := false, brake := .engaged, duty := 0, phase := .none, window := none,
        fault := { x.drive.fault with active := true } } }

theorem Lane.changed_stop_of_fault {x : Lane} (h : x.drive.fault.raw = true) : (x.changed .motorFault).stopDrive = x.faultStopped := by
  have hinput : ({ x.drive.fault with active := x.drive.fault.raw } : Input) = { x.drive.fault with active := true } := by rw [h]
  exact congrArg (fun v : Input => ({ x with drive := (x.drive.setInput .motorFault v).stop } : Lane)) hinput

theorem Lane.faultStopped_stopped (x : Lane) : x.faultStopped.drive.stopped := ⟨rfl, rfl, rfl, rfl, rfl⟩

/-- What is left of a lane with control `c` once motor-fault has ended its phase: FINISH, the stops disarmed, the tube with fault mark
and, but for a withdrawal, with outcome (R149). -/
def Lane.FaultEnded (c : Control) (y : Lane) : Prop :=
  y.ctl.state = .finish ∧ y.pos.armedA = false ∧ y.pos.armedB = false ∧
    ∀ u, c.tube = some u → ∃ v, y.ctl.tube = some v ∧ v.order = u.order ∧ v.fault = some (u.fault.getD .motorFault) ∧
      v.outcome = if c.state = .withdraw then u.outcome else some (u.outcome.getD .motorFault)

/-! ### The event by the lane's state (R149) -/

/-- In GUIDE_CHECK, INSERT and WITHDRAW the tube's record is changed and FINISH entered. -/
theorem State.motorFaultEvent_moving (h : (s.lane l).ctl.state ∈ [.guideCheck, .insert, .withdraw]) :
    ∃ f : Tube → Tube, s.motorFaultEvent l = (s.upd l fun x => x.updTube f).enterFinish l ∧
      ∀ u, (f u).order = u.order ∧ (f u).fault = some (u.fault.getD .motorFault) ∧ (f u).flags = u.flags ∧
        (f u).outcome = if (s.lane l).ctl.state = .withdraw then u.outcome else some (u.outcome.getD .motorFault) := by
  unfold State.motorFaultEvent
  simp only [List.mem_cons, List.not_mem_nil, or_false] at h
  obtain hst | hst | hst := h <;> simp only [hst]
  · exact ⟨_, rfl, fun u => ⟨rfl, rfl, rfl, rfl⟩⟩
  · exact ⟨_, rfl, fun u => ⟨rfl, rfl, rfl, rfl⟩⟩
  · exact ⟨_, rfl, fun u => ⟨rfl, rfl, rfl, rfl⟩⟩

/-- So the lane ends its phase, and neither detector nor flags nor pool are changed. -/
theorem State.motorFaultEvent_moving_ended (h : (s.lane l).ctl.state ∈ [.guideCheck, .insert, .withdraw]) :
    Lane.FaultEnded (s.lane l).ctl ((s.motorFaultEvent l).lane l) ∧
      ((s.motorFaultEvent l).lane l).detector = (s.lane l).detector ∧ (s.motorFaultEvent l).pool = s.pool ∧
      ∀ u v, (s.lane l).ctl.tube = some u → ((s.motorFaultEvent l).lane l).ctl.tube = some v → v.flags = u.flags := by
  obtain ⟨f, heq, hf⟩ := State.motorFaultEvent_moving h
  rw [heq]
  have hfin := (s.upd l fun x => x.updTube f).enterFinish_finishes l
  generalize (s.upd l fun x => x.updTube f).enterFinish l = t at hfin
  obtain ⟨hA, hB⟩ := hfin.stops
  have htube : ∀ u, (s.lane l).ctl.tube = some u → ((s.upd l fun x => x.updTube f).lane l).ctl.tube = some (f u) := fun u hu => by
    rw [State.lane_upd]
    exact congrArg (Option.map f) hu
  refine ⟨⟨hfin.state, hA, hB, fun u hu => ?_⟩, ?_, hfin.pool.trans (s.upd_pool l _), fun u v hu hv => ?_⟩
  · obtain ⟨v, hv, horder, houtcome, hfault, _⟩ := hfin.tube _ (htube u hu)
    obtain ⟨hforder, hffault, _, hfoutcome⟩ := hf u
    exact ⟨v, hv, horder.trans hforder, hfault.trans hffault, houtcome.trans hfoutcome⟩
  · rw [hfin.detector, State.lane_upd]
    rfl
  · obtain ⟨w, hw, _, _, _, hflags⟩ := hfin.tube _ (htube u hu)
    obtain ⟨_, _, hfflags, _⟩ := hf u
    cases hv.symm.trans hw
    exact hflags.trans hfflags

/-- What is expected when the tube leaves TURN is MISSED (R97). -/
theorem Lane.missRest_missedRest (x : Lane) : x.detector.missedRest x.missRest.detector :=
  ⟨rfl, length_missRange _ _ _, getElem?_missRange_length _ _⟩

/-- In TURN what is expected is MISSED first. -/
theorem State.motorFaultEvent_turn (h : (s.lane l).ctl.state = .turn) :
    Lane.FaultEnded (s.lane l).ctl ((s.motorFaultEvent l).lane l) ∧
      (s.lane l).detector.missedRest ((s.motorFaultEvent l).lane l).detector ∧ (s.motorFaultEvent l).pool = s.pool ∧
      ∀ u v, (s.lane l).ctl.tube = some u → ((s.motorFaultEvent l).lane l).ctl.tube = some v →
        v.flags =
          { u.flags with
            lmMissed := u.flags.lmMissed || decide ((s.lane l).detector.pointer < (s.lane l).detector.expected.length) } := by
  have heq : s.motorFaultEvent l =
      (s.upd l fun x => x.leaveTurn.updTube fun t => (t.decideOutcome .motorFault).mark .motorFault).enterFinish l := by
    unfold State.motorFaultEvent
    simp only [h]
  rw [heq]
  have hfin := (s.upd l fun x =>
    x.leaveTurn.updTube fun t => (t.decideOutcome .motorFault).mark .motorFault).enterFinish_finishes l
  generalize State.enterFinish _ l = t at hfin
  obtain ⟨hA, hB⟩ := hfin.stops
  have htube : ∀ u, (s.lane l).ctl.tube = some u → ∃ v, (t.lane l).ctl.tube = some v ∧ v.order = u.order ∧
      v.outcome = some (u.outcome.getD .motorFault) ∧ v.fault = some (u.fault.getD .motorFault) ∧
      v.flags =
        { u.flags with
          lmMissed := u.flags.lmMissed || decide ((s.lane l).detector.pointer < (s.lane l).detector.expected.length),
          lmUnexpected := u.flags.lmUnexpected || false } := fun u hu => by
    obtain ⟨v, hv, horder, houtcome, hfault, hflags⟩ := hfin.tube _ (by
      rw [State.lane_upd]
      exact congrArg (Option.map _) (congrArg (Option.map _) hu))
    exact ⟨v, hv, horder, houtcome, hfault, hflags⟩
  refine ⟨⟨hfin.state, hA, hB, fun u hu => ?_⟩, ?_, hfin.pool.trans (s.upd_pool l _), fun u v hu hv => ?_⟩
  · obtain ⟨v, hv, horder, houtcome, hfault, _⟩ := htube u hu
    exact ⟨v, hv, horder, hfault, houtcome.trans (if_neg (by rw [h]; decide)).symm⟩
  · rw [hfin.detector, State.lane_upd]
    exact (s.lane l).missRest_missedRest
  · obtain ⟨w, hw, _, _, _, hflags⟩ := htube u hu
    cases hv.symm.trans hw
    rw [hflags, Bool.or_false]

/-- In PULL the pull ends in its order, then FINISH is entered. -/
theorem State.motorFaultEvent_pull (hstopped : (s.lane l).drive.stopped) (h : (s.lane l).ctl.state = .pull) :
    Lane.FaultEnded (s.lane l).ctl ((s.motorFaultEvent l).lane l) ∧ ((s.motorFaultEvent l).lane l).pullClosed ∧
      ∃ q : State, s.pullEnded l q ∧
        s.motorFaultEvent l = (q.setLane l ((q.lane l).finishing .motorFault .motorFault)).finishWait l := by
  have heq : s.motorFaultEvent l =
      ((s.endPull l .motorFault).upd l fun x => x.updTube fun t => t.mark .motorFault).enterFinish l := by
    unfold State.motorFaultEvent
    simp only [h]
  obtain ⟨hfinish, _, hclosed, htube⟩ := State.endPull_finished hstopped .motorFault .motorFault heq
  have ⟨_, hA, hB, _⟩ := hclosed
  refine ⟨⟨hfinish, hA, hB, fun u hu => ?_⟩, hclosed, _, s.pullEnding_emit l, heq.trans (State.endPull_finish hstopped _ _)⟩
  obtain ⟨v, hv, horder, houtcome, hfault⟩ := htube u hu
  exact ⟨v, hv, horder, hfault, houtcome.trans (if_neg (by rw [h]; decide)).symm⟩

theorem State.motorFaultEvent_rest (h : (s.lane l).ctl.state ∈ [.idle, .finish, .held, .faulted]) : s.motorFaultEvent l = s := by
  unfold State.motorFaultEvent
  simp only [List.mem_cons, List.not_mem_nil, or_false] at h
  obtain hst | hst | hst | hst := h <;> simp only [hst]

/-! ### The debounced change -/

theorem exec_debounced_fault (hraw : (s.lane l).drive.fault.raw = true) (hoff : (s.lane l).drive.fault.active = false) :
    exec (.debouncedStateChange l .motorFault) s =
      .next (({ s.setLane l (s.lane l).faultStopped with
          clock := max s.clock ((s.lane l).drive.fault.since + (s.lane l).motion.debounce * 1000000) } : State).motorFaultEvent l) := by
  have hne : ((s.lane l).drive.input .motorFault).raw ≠ ((s.lane l).drive.input .motorFault).active := fun h => by
    cases hraw.symm.trans (h.trans hoff)
  rw [exec_debounced_pending hne, State.inputChange_fault (by rwa [State.reach_lane]), State.reach_upd,
    Lane.changed_stop_of_fault hraw]
  rfl

/-- Settles O41: the lane stopped by `exec_debounced_fault` takes the event by its state. -/
theorem motorFaultsStopTheMotor : Obligations.MotorFaultsStopTheMotor := by
  intro s l hraw hoff
  have hexec := exec_debounced_fault hraw hoff
  generalize hs1 : ({ s.setLane l (s.lane l).faultStopped with
    clock := max s.clock ((s.lane l).drive.fault.since + (s.lane l).motion.debounce * 1000000) } : State) = s1 at hexec
  have hlane : s1.lane l = (s.lane l).faultStopped := by rw [← hs1, State.lane_setLane_clock]
  have hctl : (s1.lane l).ctl = (s.lane l).ctl := by rw [hlane]; rfl
  have hdetector : (s1.lane l).detector = (s.lane l).detector := by rw [hlane]; rfl
  have hpool : s1.pool = s.pool := by rw [← hs1]; exact s.setLane_pool l _
  have hlink : s1.link = s.link := by rw [← hs1]; exact s.setLane_link l _
  have hstopped : (s1.lane l).drive.stopped := by rw [hlane]; exact Lane.faultStopped_stopped _
  have hmoving := State.motorFaultEvent_moving_ended (s := s1) (l := l)
  have hturn := State.motorFaultEvent_turn (s := s1) (l := l)
  have hpull := State.motorFaultEvent_pull hstopped
  have hrest := State.motorFaultEvent_rest (s := s1) (l := l)
  rw [hctl] at hmoving hturn hpull hrest
  rw [hdetector, hpool] at hmoving hturn
  have hended : (s.lane l).ctl.state ∈ [.guideCheck, .insert, .turn, .pull, .withdraw] →
      Lane.FaultEnded (s.lane l).ctl ((s1.motorFaultEvent l).lane l) := fun h => by
    cases hst : (s.lane l).ctl.state with
    | turn => exact (hturn hst).1
    | pull => exact (hpull hst).1
    | guideCheck | insert | withdraw => exact (hmoving (by rw [hst]; decide)).1
    | idle | retract | finish | held | faulted => exact absurd h (by rw [hst]; decide)
  refine ⟨_, hexec, ?_, hended, fun h => (hmoving h).2, fun h => (hturn h).2, fun h => ?_, fun h => ?_, fun h => ?_⟩
  · rw [State.motorFaultEvent_drive hstopped]
    exact hstopped
  · obtain ⟨_, hclosed, hq⟩ := hpull h
    exact ⟨hclosed, hs1 ▸ hq⟩
  · have heq : s1.motorFaultEvent l = s1.enterFaulted l .motorFault := by
      unfold State.motorFaultEvent
      simp only [hctl, h]
    obtain ⟨hfaulted, hreturn, _, hnotice⟩ := s1.enterFaulted_noticed l .motorFault
    rw [heq]
    rw [Lane.tag, hctl] at hnotice
    exact ⟨hfaulted, hreturn, hnotice.of_same hpool hlink⟩
  · rw [hrest h]
    exact ⟨hctl, hpool⟩

end

end Sys2Proof.Machine

/-! SET_MOTION (R22, R28, R119, R134). -/

namespace Sys2Proof.Machine

/-! ### The count under a new scale (R22) -/

/-- The counts that a scale allows are those whose raw position fits 32 bits. -/
theorem fitsS32_iff_range {k : Nat} (hk : 1 ≤ k) (c : Int) : fitsS32 (c * (k : Int)) ↔ countMin k ≤ c ∧ c ≤ countMax k := by
  have hholds := Position.holds_iff (p := { Position.reset with scale := some k }) rfl hk c
  rw [← hholds, Position.holds, Bool.and_eq_true, decide_eq_true_eq, decide_eq_true_eq]

theorem clampCount_of_range {k : Nat} {c : Int} (h : countMin k ≤ c ∧ c ≤ countMax k) : clampCount k c = c := by
  unfold clampCount
  omega

theorem clampCount_of_above {k : Nat} {c : Int} (h : countMax k < c) : clampCount k c = countMax k := by
  have hrange := clampCount_range k 0
  unfold clampCount at hrange ⊢
  omega

theorem clampCount_of_below {k : Nat} {c : Int} (h : c < countMin k) : clampCount k c = countMin k := by
  have hrange := clampCount_range k 0
  unfold clampCount at hrange ⊢
  omega

/-- The clamp leaves a count that fits, and takes one that does not to the nearer end, next to which no count fits. -/
theorem clampCount_nearest {k : Nat} (hk : 1 ≤ k) (c : Int) :
    fitsS32 (clampCount k c * (k : Int)) ∧ (fitsS32 (c * (k : Int)) → clampCount k c = c) ∧
      (2147483647 < c * (k : Int) → ¬ fitsS32 ((clampCount k c + 1) * (k : Int))) ∧
      (c * (k : Int) < -2147483648 → ¬ fitsS32 ((clampCount k c - 1) * (k : Int))) := by
  have hpos : (0 : Int) < (k : Int) := by omega
  have hzero : countMin k ≤ 0 ∧ 0 ≤ countMax k := (fitsS32_iff_range hk 0).1 (by rw [Int.zero_mul]; decide)
  have hfits := fitsS32_iff_range hk c
  simp only [fitsS32_iff_range hk] at hfits ⊢
  refine ⟨clampCount_range k c, clampCount_of_range, fun habove => ?_, fun hbelow => ?_⟩
  · have hsign : 0 < c := Int.pos_of_mul_pos_left (by omega) hpos
    have hout : countMax k < c := by
      by_contra hle
      have := fitsS32_of_range (k := k) (c := c) (by omega) (by omega)
      omega
    rw [clampCount_of_above hout]
    omega
  · have hsign : c < 0 := by
      by_contra hle
      have := Int.mul_nonneg (Int.not_lt.1 hle) hpos.le
      omega
    have hout : c < countMin k := by
      by_contra hle
      have := fitsS32_of_range (k := k) (c := c) (by omega) (by omega)
      omega
    rw [clampCount_of_below hout]
    omega

/-- The settings that a request carries have a positive scale, and the pitch of their field (R133). -/
theorem motionAt_some {p : List Byte} {scale : Nat} {m : Motion} (h : motionAt p = some (scale, m)) :
    1 ≤ scale ∧ m.pitch = some (u16At p 6) := by
  unfold motionAt at h
  dsimp only at h
  split at h
  next hok =>
    cases h
    simp only [Bool.and_eq_true, within, decide_eq_true_eq] at hok
    exact ⟨by omega, rfl⟩
  · cases h

/-! ### The pending changes at a SET_MOTION (R119, R134) -/

section

variable {s : State} {l : LaneId}

/-- A resting lane after a pending change of an input was taken, where it has stood for the debounce time. -/
def Lane.settled (x : Lane) (i : InputId) (now : Nat) : Lane :=
  { x with
    drive := x.drive.setInput i ((x.drive.input i).followed x.motion.debounce now)
    ctl :=
      { x.ctl with
        rearm := x.ctl.rearm ||
          (decide (i = .guideLatched) && (x.drive.guide.active && !(x.drive.guide.followed x.motion.debounce now).active)) } }

/-- The motor is stopped and the lane is IDLE or FAULTED. -/
def Lane.Resting (x : Lane) : Prop := x.drive.stopped ∧ (x.ctl.state = .idle ∨ x.ctl.state = .faulted)

theorem Lane.settled_guide {x : Lane} {now : Nat} {v : Input} (h : x.drive.guide.followed x.motion.debounce now = v) :
    x.settled .guideLatched now =
      { x with
        drive := { x.drive with guide := v }
        ctl := { x.ctl with rearm := x.ctl.rearm || (x.drive.guide.active && !v.active) } } := by
  have hinput : (x.drive.input .guideLatched).followed x.motion.debounce now = v := h
  simp only [Lane.settled, hinput, h, decide_true, Bool.true_and]
  rfl

theorem Lane.settled_home {x : Lane} {now : Nat} {v : Input} (h : x.drive.home.followed x.motion.debounce now = v) :
    x.settled .probeHome now = { x with drive := { x.drive with home := v } } := by
  have hinput : (x.drive.input .probeHome).followed x.motion.debounce now = v := h
  simp only [Lane.settled, hinput, reduceCtorEq, decide_false, Bool.false_and, Bool.or_false]
  rfl

theorem Lane.settled_fault {x : Lane} {now : Nat} {v : Input} (h : x.drive.fault.followed x.motion.debounce now = v) :
    x.settled .motorFault now = { x with drive := { x.drive with fault := v } } := by
  have hinput : (x.drive.input .motorFault).followed x.motion.debounce now = v := h
  simp only [Lane.settled, hinput, reduceCtorEq, decide_false, Bool.false_and, Bool.or_false]
  rfl

theorem Lane.Resting.settled {x : Lane} (h : x.Resting) (i : InputId) (now : Nat) : (x.settled i now).Resting :=
  ⟨Drive.setInput_stopped h.1 _ _, h.2⟩

/-- A debounced change in a resting lane is one of the input, and of the rearm flag when guide-latched is released (R120, R143). -/
theorem State.inputChange_resting (h : (s.lane l).Resting) (i : InputId) :
    s.inputChange l i = s.upd l fun x => (x.changed i).updCtl fun c =>
      { c with rearm := c.rearm || (decide (i = .guideLatched) && !(s.lane l).drive.guide.raw) } := by
  obtain ⟨hstopped, hst⟩ := h
  have hoff : (s.lane l).drive.enabled = false := hstopped.1
  have same : ∀ {x : Lane}, (x.updCtl fun c => { c with rearm := c.rearm || (false && !(s.lane l).drive.guide.raw) }) = x := by
    intro x
    simp only [Bool.false_and, Bool.or_false]
    rfl
  cases i with
  | guideLatched =>
    rw [State.inputChange_guide]
    rfl
  | probeHome =>
    have hstays : ((s.lane l).drive.home.raw && (s.lane l).drive.homing) = false := by
      rw [Drive.homing, hoff, Bool.false_and, Bool.and_false]
    rw [State.inputChange_home hstays, State.upd_eq_setLane, State.upd_eq_setLane]
    exact congrArg (s.setLane l) same.symm
  | motorFault =>
    have hchanged : s.inputChange l .motorFault = s.setLane l ((s.lane l).changed .motorFault) := by
      cases hraw : (s.lane l).drive.fault.raw with
      | false => exact State.inputChange_fault_clears hraw
      | true =>
        have hstop : ((s.lane l).changed .motorFault).stopDrive = (s.lane l).changed .motorFault :=
          congrArg (fun d => ({ (s.lane l).changed .motorFault with drive := d } : Lane))
            (Drive.stop_of_stopped (Drive.setInput_stopped hstopped .motorFault _))
        have hstate : ((s.lane l).changed .motorFault).ctl.state ∈ [.idle, .finish, .held, .faulted] := by
          change (s.lane l).ctl.state ∈ _
          obtain hidle | hfaulted := hst
          · rw [hidle]
            decide
          · rw [hfaulted]
            decide
        rw [State.inputChange_fault hraw, State.upd_eq_setLane, hstop, State.motorFaultEvent_rest]
        rwa [State.lane_setLane]
    rw [hchanged, State.upd_eq_setLane]
    exact congrArg (s.setLane l) same.symm

/-- A pending change that is due follows the raw level, any other waits (R119). -/
theorem State.settleInput_resting (h : (s.lane l).Resting) (i : InputId) :
    s.settleInput l i = s.upd l fun x => x.settled i s.clock := by
  rw [State.upd_eq_setLane]
  unfold State.settleInput
  dsimp only
  split
  next hdue =>
    obtain ⟨hne, hdue⟩ := hdue
    have hfollowed : ((s.lane l).drive.input i).followed (s.lane l).motion.debounce s.clock =
        { (s.lane l).drive.input i with active := ((s.lane l).drive.input i).raw } := if_pos hdue
    rw [State.inputChange_resting h, State.upd_eq_setLane, Lane.settled, hfollowed]
    cases i with
    | guideLatched =>
      have hactive : (s.lane l).drive.guide.active = !(s.lane l).drive.guide.raw := Bool.eq_not_of_ne (Ne.symm hne)
      have hguide : (s.lane l).drive.guide.followed (s.lane l).motion.debounce s.clock =
        { (s.lane l).drive.guide with active := (s.lane l).drive.guide.raw } := hfollowed
      rw [hguide, hactive, Bool.and_self]
      rfl
    | probeHome | motorFault => rfl
  next hwait =>
    have hsame : ((s.lane l).drive.input i).followed (s.lane l).motion.debounce s.clock = (s.lane l).drive.input i := by
      unfold Input.followed
      split
      next hstood =>
        have hraw : ((s.lane l).drive.input i).raw = ((s.lane l).drive.input i).active := by
          by_contra hne
          exact hwait ⟨hne, hstood⟩
        exact congrArg (fun b => { (s.lane l).drive.input i with active := b }) hraw
      · rfl
    have hsettled : (s.lane l).settled i s.clock = s.lane l := by
      cases i with
      | guideLatched =>
        rw [Lane.settled_guide (v := (s.lane l).drive.guide) hsame, Bool.and_not_self, Bool.or_false]
      | probeHome => exact Lane.settled_home hsame
      | motorFault => exact Lane.settled_fault hsame
    rw [hsettled, State.setLane_lane]

/-- The pending changes of several inputs, taken in turn. -/
theorem State.settleInputs_resting (is : List InputId) (h : (s.lane l).Resting) :
    is.foldl (State.settleInput l) s = s.upd l fun x => is.foldl (fun y i => y.settled i s.clock) x := by
  induction is generalizing s with
  | nil => exact (s.setLane_lane l).symm
  | cons i is ih =>
    have hnext : ((s.upd l fun x => x.settled i s.clock).lane l).Resting := by
      rw [State.lane_upd]
      exact h.settled i s.clock
    rw [List.foldl_cons, State.settleInput_resting h, ih hnext, State.upd_upd, State.upd_clock]
    rfl

/-- The lane with new settings, its inputs settled under the new debounce time (R134). -/
def Lane.resetMotion (x : Lane) (scale : Nat) (m : Motion) (now : Nat) : Lane :=
  allInputs.foldl (fun y i => y.settled i now) (x.setMotion scale m)

theorem Lane.resetMotion_eq {x : Lane} {m : Motion} {now : Nat} {guide home fault : Input}
    (hguide : x.drive.guide.followed m.debounce now = guide) (hhome : x.drive.home.followed m.debounce now = home)
    (hfault : x.drive.fault.followed m.debounce now = fault) (scale : Nat) :
    x.resetMotion scale m now =
      { x with
        pos := x.pos.setScale scale, motion := m,
        drive := { x.drive with guide := guide, home := home, fault := fault },
        ctl := { x.ctl with rearm := x.ctl.rearm || (x.drive.guide.active && !guide.active) } } := by
  rw [Lane.resetMotion, allInputs, List.foldl_cons, List.foldl_cons, List.foldl_cons, List.foldl_nil,
    Lane.settled_guide (x := x.setMotion scale m) hguide, Lane.settled_home (v := home), Lane.settled_fault (v := fault)]
  · rfl
  · exact hfault
  · exact hhome

/-- An accepted SET_MOTION (R134). -/
theorem execSetMotion_accepted {p : List Byte} {scale : Nat} {m : Motion} (ht : s.takes p) (hkind : u8At p 0 = 8)
    (hl : laneOf p = some l) (hrest : (s.lane l).Resting) (hn : p.length = 46) (hm : motionAt p = some (scale, m)) :
    execSetMotion s =
      .next
        ((s.setLane l ((s.lane l).resetMotion scale m s.clock)).afterReply
          (replyTo p .ok ((s.lane l).resetMotion scale m s.clock).motionReply)) := by
  have hset : ((s.popRequest.upd l fun x => x.setMotion scale m).lane l).Resting := by
    rw [State.lane_upd, State.popRequest_lane]
    exact hrest
  have hh : handleSetMotion p s.popRequest =
      .done (s.popRequest.upd l fun x => x.resetMotion scale m s.clock) ((s.lane l).resetMotion scale m s.clock).motionReply := by
    rw [handleSetMotion, forSetup_accepted _ hl (by simpa using hrest.2) hn, hm]
    dsimp only
    rw [State.settleInputs_resting allInputs hset, State.upd_upd, State.lane_upd, State.popRequest_lane, State.upd_clock,
      State.popRequest_clock]
    rfl
  rw [execSetMotion, State.handle_takes s _ _ p ht (by rw [hkind]; rfl), hh, State.popRequest_conclude_upd]

end

/-- Settles O30: `Lane.resetMotion_eq` for the lane, `clampCount_nearest` for the count, and the reply as for SET_SCAN. -/
theorem setMotionReplacesTheSettings : Obligations.SetMotionReplacesTheSettings := by
  intro s p l scale m ht hask hst hn hm hstopped
  obtain ⟨hkind, hl⟩ := hask
  obtain ⟨hscale, hpitch⟩ := motionAt_some hm
  have hexec := execSetMotion_accepted ht (Option.some.inj hkind).symm hl ⟨hstopped, hst⟩ hn hm
  rw [Lane.resetMotion_eq rfl rfl rfl] at hexec
  generalize hx : ({ s.lane l with pos := _, motion := m, drive := _, ctl := _ } : Lane) = x at hexec
  have hmotion : x.motion = m := by rw [← hx]
  have hexc : x.exc = (s.lane l).exc := by rw [← hx]
  refine ⟨(s.lane l).pos.setScale scale, x.lineRateLimit, _, fun hsame => if_pos hsame, fun hnew => ?_, ?_, rfl, ?_⟩
  · have hpos : (s.lane l).pos.setScale scale = _ := if_neg hnew
    rw [hpos]
    exact ⟨rfl, clampCount_nearest hscale _⟩
  · rw [Lane.lineRateLimit_some (by rw [hmotion, hpitch]), hexc]
  · rw [exec_setMotion, hexec, hx, Lane.motionReply]
    cases hlimit : x.lineRateLimit with
    | none => rw [Lane.effectivePull_none hlimit, hmotion]
    | some v => rw [Lane.effectivePull_some hlimit, hmotion]

end Sys2Proof.Machine

/-! Worklists and the request queue (R139, R140, R175): every step keeps at most 32 orders with distinct tags in a lane, the current
tube's among them, and at most 4 requests. -/

namespace Sys2Proof.Machine

/-! ### The orders of a lane

`Lane.orders` is what the legality of a worklist depends on. Once a tube is taken the operations of its lane leave it alone, until the
tube leaves or the lane is reset. -/

/-- The order of the lane's tube and the orders that wait. -/
def Lane.orders (x : Lane) : Option Order × List Order := (x.ctl.tube.map fun t => t.order, x.ctl.worklist)

/-- The tags of a lane are those of its orders. -/
theorem Lane.tags_of_orders (x : Lane) : x.tags = (x.orders.1.toList ++ x.orders.2).map fun o => o.tag := by
  unfold Lane.tags Lane.tag Lane.orders
  cases x.ctl.tube <;> rfl

section

variable {x y : Lane}

/-- A worklist is legal where no order has joined one that was. -/
theorem Lane.worklistLegal.of_sublist (h : x.worklistLegal) (hlen : y.orders.2.length ≤ x.orders.2.length)
    (hsub : (y.orders.1.toList ++ y.orders.2).Sublist (x.orders.1.toList ++ x.orders.2)) : y.worklistLegal := by
  obtain ⟨hmax, hnodup⟩ := h
  rw [Lane.tags_of_orders] at hnodup
  refine ⟨hlen.trans hmax, ?_⟩
  rw [Lane.tags_of_orders]
  exact hnodup.sublist (hsub.map _)

/-- The legality of a worklist depends on `Lane.orders` alone. -/
theorem Lane.worklistLegal.of_orders (h : x.worklistLegal) (hy : y.orders = x.orders) : y.worklistLegal :=
  h.of_sublist (by rw [hy]) (by rw [hy])

/-- A lane without a tube and without orders. -/
theorem Lane.worklistLegal.of_empty (hy : y.orders = (none, [])) : y.worklistLegal := by
  refine ⟨?_, ?_⟩
  · have hw : y.ctl.worklist = [] := (congrArg Prod.snd hy :)
    rw [hw]
    exact Nat.zero_le _
  · rw [Lane.tags_of_orders, hy]
    exact List.nodup_nil

/-- An order with a new tag joins a worklist that has room (R138, R139). -/
theorem Lane.worklistLegal.appendOrder (h : x.worklistLegal) {o : Order} (hroom : x.ctl.worklist.length < 32)
    (hnew : o.tag ∉ x.tags) : (x.appendOrder o).worklistLegal := by
  obtain ⟨_, hnodup⟩ := h
  have htags : (x.appendOrder o).tags = x.tags ++ [o.tag] := by
    show x.tag.toList ++ (x.ctl.worklist ++ [o]).map (fun k => k.tag) = _
    rw [List.map_append, ← List.append_assoc]
    rfl
  refine ⟨?_, ?_⟩
  · show (x.ctl.worklist ++ [o]).length ≤ 32
    rwa [List.length_append, List.length_singleton]
  · rw [htags, List.nodup_append_comm]
    exact List.nodup_cons.2 ⟨hnew, hnodup⟩

theorem Lane.hasTag_iff (x : Lane) (tag : Nat) : x.hasTag tag = true ↔ tag ∈ x.tags := by
  unfold Lane.hasTag Lane.tags
  rw [Bool.or_eq_true, List.any_eq_true, beq_iff_eq, List.mem_append, Option.mem_toList, List.mem_map, or_comm]
  simp only [beq_iff_eq]

end

/-! ### What leaves the orders alone -/

section

variable (x : Lane)

/-- A change of the tube's record apart from its order. -/
theorem Lane.orders_updTube {f : Tube → Tube} (h : ∀ t, (f t).order = t.order := by exact fun _ => rfl) :
    (x.updTube f).orders = x.orders := by
  simp only [Lane.orders, Lane.updTube, Option.map_map, Function.comp_def, h]

/-- A tube flagged and marked with a fault (R147, R150). -/
theorem Lane.orders_marked (f : TubeFlags → TubeFlags) (c : FaultCause) :
    ((x.updFlags f).updTube fun t => t.mark c).orders = x.orders :=
  (Lane.orders_updTube _).trans (x.orders_updTube (f := fun t => { t with flags := f t.flags }))

theorem Lane.orders_missRest : x.missRest.orders = x.orders := Lane.orders_updTube _

theorem Lane.orders_motionStart (p : MotionPhase) : (x.motionStart p).1.orders = x.orders := by
  rw [Lane.motionStart_frame]
  rfl

theorem Lane.orders_retarget : x.retarget.1.orders = x.orders := by
  rw [Lane.retarget_frame]
  rfl

theorem Lane.orders_commit (now : Nat) (c : CapLine) : (x.commit now c).orders = x.orders := by
  have hcount : (x.updTube fun t => t.countCommit now c).orders = x.orders := x.orders_updTube
  rw [← hcount, Lane.commit, Lane.storeLine]
  split <;> rfl

theorem Lane.orders_setBlock (kind : BlockKind) (b : Option Block) : (x.setBlock kind b).orders = x.orders := by
  cases kind <;> rfl

theorem Lane.orders_turned (layout : Option Layout) (now : Nat) : (x.turned layout now).orders = x.orders :=
  x.orders_updTube (f := Tube.startPull)

theorem Lane.orders_holding (now : Nat) : (x.holding now).orders = x.orders :=
  x.orders_updTube

theorem Lane.orders_updateRearm : x.updateRearm.orders = x.orders := by
  unfold Lane.updateRearm
  split
  · split <;> rfl
  · rfl

theorem Lane.orders_of_upstream {x y : Lane} (h : y.upstream = x.upstream) : y.orders = x.orders := by
  have hup : ∀ z : Lane, z.upstream.orders = z.orders := fun z => z.orders_updTube (f := Tube.upstream)
  rw [← hup, h, hup]

/-- The end of a control period changes the pull speeds of the record alone (R29). -/
theorem Lane.orders_controlPeriod (tight : Bool) : ((x.periodMeasure.pullSpeeds).drivePeriod tight).orders = x.orders := by
  have hdrive : ∀ y : Lane, (y.drivePeriod tight).orders = y.orders := fun y => by
    unfold Lane.drivePeriod
    split <;> rfl
  have hspeeds : ∀ y : Lane, y.pullSpeeds.orders = y.orders := fun y => by
    unfold Lane.pullSpeeds
    dsimp only
    split
    · exact y.orders_updTube
    · rfl
  rw [hdrive, hspeeds]
  rfl

end

/-- From `s` to `t` lane `l` has the same orders. -/
def State.SameOrders (l : LaneId) (s t : State) : Prop := (t.lane l).orders = (s.lane l).orders

namespace State.SameOrders

theorem refl (l : LaneId) (s : State) : SameOrders l s s := rfl

theorem trans {l : LaneId} {s t u : State} (h : SameOrders l s t) (k : SameOrders l t u) : SameOrders l s u := Eq.trans k h

theorem of_reports {s t : State} (l : LaneId) (h : s.Reports t) : SameOrders l s t := congrArg Lane.orders (h.lane l)

/-- The blocks behind the calibration store leave the orders alone. -/
theorem of_upstream {l : LaneId} {s t : State} (h : State.SameUpstream l s t) : SameOrders l s t := Lane.orders_of_upstream h

theorem setLane {l : LaneId} (s : State) {x : Lane} (hx : x.orders = (s.lane l).orders) : SameOrders l s (s.setLane l x) := by
  rw [SameOrders, State.lane_setLane, hx]

theorem upd {l : LaneId} (s : State) {f : Lane → Lane} (hf : (f (s.lane l)).orders = (s.lane l).orders) :
    SameOrders l s (s.upd l f) := setLane s hf

/-- A change of the tube's record apart from its order. -/
theorem updTube {l : LaneId} (s : State) {f : Tube → Tube} (hf : ∀ t, (f t).order = t.order := by exact fun _ => rfl) :
    SameOrders l s (s.upd l fun x => x.updTube f) := upd s (Lane.orders_updTube _ hf)

/-- A list of operations that each leave them alone. -/
theorem foldl {α : Type} {l : LaneId} {f : State → α → State} (h : ∀ s a, SameOrders l s (f s a)) (as : List α) :
    ∀ s, SameOrders l s (as.foldl f s) := by
  induction as with
  | nil => exact fun s => .refl l s
  | cons a as ih => exact fun s => (h s a).trans (ih (f s a))

end State.SameOrders

/-! ### Line capture and the end of a pull -/

theorem State.emit_orders (s : State) (l : LaneId) (kind : NoticeKind) (cause : Option FaultCause) :
    State.SameOrders l s (s.emit l kind cause) := .of_reports l (s.emit_reports l kind cause)

theorem State.commitLine_orders (l : LaneId) (s : State) (c : CapLine) : State.SameOrders l s (s.commitLine l c) := by
  have hup : ∀ z : Lane, z.upstream.orders = z.orders := fun z => z.orders_updTube (f := Tube.upstream)
  have hcommit := congrArg Lane.orders (State.commitLine_upstream l s c)
  rwa [hup, Lane.orders_commit, hup] at hcommit

theorem State.captureCycle_orders (s : State) (l : LaneId) (c : Cycle) : State.SameOrders l s (s.captureCycle l c) := by
  unfold State.captureCycle
  dsimp only
  split
  · exact .trans (.upd s (Lane.orders_updTube _)) (.foldl (State.commitLine_orders l) _ _)
  · exact .refl l s

theorem State.flush_orders (s : State) (l : LaneId) : State.SameOrders l s (s.flush l) := by
  unfold State.flush
  exact .trans (.upd s rfl) (.trans (.foldl (State.commitLine_orders l) _ _) (.upd _ rfl))

theorem State.screenEndChannel_orders (l : LaneId) (s : State) (ch : Nat) : State.SameOrders l s (s.screenEndChannel l ch) := by
  have closed : ∀ k : Screen, State.SameOrders l s (s.upd l fun y => { y with screens := y.screens.set ch k }) := fun k => .upd s rfl
  have flagged : ∀ t : State, State.SameOrders l t (t.upd l fun y => y.updFlags fun f => { f with truncated := true }) :=
    fun t => .updTube t
  unfold State.screenEndChannel
  dsimp only
  split
  · split
    · exact .refl l s
    · exact closed _
    all_goals exact ((closed _).trans (flagged _)).trans (.of_upstream (State.closeSpan_upstream _ l _ _ _ _))
  · exact .refl l s

theorem State.pullEnding_orders (s : State) (l : LaneId) : State.SameOrders l s (s.pullEnding l) := by
  have landmarks : ∀ t : State, State.SameOrders l t (t.setLane l (t.lane l).landmarkEnd) := fun t =>
    .setLane t (Lane.orders_of_upstream (Lane.upstream_landmarkEnd _))
  have screened : ∀ t : State, State.SameOrders l t (t.screenEnd l) := fun t =>
    .trans (.foldl (State.screenEndChannel_orders l) channelNumbers t) (.upd _ rfl)
  have assembled : ∀ t : State, State.SameOrders l t (t.assemblersEnd l) := fun t => by
    rw [State.SameOrders, State.assemblersEnd_lane]
    rfl
  exact ((s.flush_orders l).trans (landmarks _)).trans ((screened _).trans (assembled _))

theorem State.endPull_orders (s : State) (l : LaneId) (o : TubeOutcome) : State.SameOrders l s (s.endPull l o) := by
  rw [State.endPull_eq]
  exact ((s.pullEnding_orders l).trans (State.emit_orders _ l _ _)).trans (.upd _ (Lane.orders_updTube _))

theorem State.giveUpBlock_orders (s : State) (l : LaneId) (kind : BlockKind) : State.SameOrders l s (s.giveUpBlock l kind) := by
  unfold State.giveUpBlock
  split
  · exact .trans (.upd s (Lane.orders_setBlock _ _ _)) (.of_reports l (State.returnBuffer_reports _))
  · exact .refl l s

/-! ### The lane controller (chapter 8) -/

theorem State.finishWait_orders (s : State) (l : LaneId) : State.SameOrders l s (s.finishWait l) := by
  obtain ⟨f, hwait, hf⟩ := s.finishWait_tube l
  rw [hwait]
  refine .updTube s fun u => ?_
  obtain ⟨horder, _⟩ := hf u
  exact horder

theorem State.enterFinish_orders (s : State) (l : LaneId) : State.SameOrders l s (s.enterFinish l) :=
  .trans (.upd s rfl) (State.finishWait_orders _ l)

/-- FINISH is entered after a change of the lane apart from its orders. -/
theorem State.upd_enterFinish_orders (s : State) (l : LaneId) {f : Lane → Lane} (hf : (f (s.lane l)).orders = (s.lane l).orders) :
    State.SameOrders l s ((s.upd l f).enterFinish l) := .trans (.upd s hf) (State.enterFinish_orders _ l)

theorem State.enterFaulted_orders (s : State) (l : LaneId) (cause : FaultCause) : State.SameOrders l s (s.enterFaulted l cause) :=
  .trans (.upd s rfl) (State.emit_orders _ l _ _)

theorem State.withdrawResult_orders (s : State) (l : LaneId) (r : StartResult) : State.SameOrders l s (s.withdrawResult l r) := by
  cases r with
  | started => exact .refl l s
  | homeArrival => exact s.enterFinish_orders l
  | refused => exact s.upd_enterFinish_orders l (Lane.orders_updTube _)
  | homeLimit => exact s.upd_enterFinish_orders l (Lane.orders_marked _ _ _)

theorem State.startWithdraw_orders (s : State) (l : LaneId) : State.SameOrders l s (s.startWithdraw l) :=
  .trans (.setLane s ((s.lane l).toWithdraw.orders_motionStart .withdraw)) (State.withdrawResult_orders _ l _)

theorem State.retargetWithdraw_orders (s : State) (l : LaneId) : State.SameOrders l s (s.retargetWithdraw l) :=
  .trans (.setLane s (s.lane l).toWithdraw.orders_retarget) (State.withdrawResult_orders _ l _)

theorem State.testStopB_orders (s : State) (l : LaneId) : State.SameOrders l s (s.testStopB l) := by
  unfold State.testStopB
  dsimp only
  split
  · split
    · exact .trans (.upd s rfl) ((State.endPull_orders _ l _).trans (State.retargetWithdraw_orders _ l))
    · exact .refl l s
  · exact .refl l s

/-- A pull that ends with a fault passes to FINISH (R146, R149). -/
theorem State.endPull_enterFinish_orders (s : State) (l : LaneId) (o : TubeOutcome) (c : FaultCause) :
    State.SameOrders l s (((s.endPull l o).upd l fun x => x.updTube fun t => t.mark c).enterFinish l) :=
  (s.endPull_orders l o).trans (State.upd_enterFinish_orders _ l (Lane.orders_updTube _))

theorem State.motorFaultEvent_orders (s : State) (l : LaneId) : State.SameOrders l s (s.motorFaultEvent l) := by
  unfold State.motorFaultEvent
  dsimp only
  split
  next => exact s.upd_enterFinish_orders l (Lane.orders_updTube _)
  next => exact s.upd_enterFinish_orders l (Lane.orders_updTube _)
  next => exact s.upd_enterFinish_orders l ((Lane.orders_updTube _).trans (Lane.orders_missRest _))
  next => exact s.endPull_enterFinish_orders l _ _
  next => exact s.upd_enterFinish_orders l (Lane.orders_updTube _)
  next => exact s.enterFaulted_orders l _
  all_goals exact .refl l s

theorem State.stallEvent_orders (s : State) (l : LaneId) (position : Int) : State.SameOrders l s (s.stallEvent l position) := by
  unfold State.stallEvent
  split
  next => exact .trans (.updTube s) (State.startWithdraw_orders _ l)
  next => exact s.endPull_enterFinish_orders l _ _
  next => exact s.upd_enterFinish_orders l (Lane.orders_marked _ _ _)
  next => exact s.enterFaulted_orders l _
  all_goals exact .refl l s

theorem State.enterPull_orders (s : State) (l : LaneId) : State.SameOrders l s (s.enterPull l) := by
  have started : State.SameOrders l s ((s.setLane l ((s.lane l).toPull.motionStart .pull).1).emit l .pullStarted none) :=
    .trans (.setLane s ((s.lane l).toPull.orders_motionStart .pull)) (State.emit_orders _ l _ _)
  unfold State.enterPull
  dsimp only
  split
  · exact started.trans (State.motorFaultEvent_orders _ l)
  · exact started.trans (State.testStopB_orders _ l)
  all_goals exact started

theorem State.enterTurn_orders (s : State) (l : LaneId) : State.SameOrders l s (s.enterTurn l) := by
  have turned : State.SameOrders l s (s.upd l fun x => x.turned (s.tubeLayout l) s.clock) := .upd s (Lane.orders_turned _ _ _)
  rw [State.enterTurn_eq]
  split
  · exact turned.trans (State.enterPull_orders _ l)
  · exact turned

theorem State.testStopA_orders (s : State) (l : LaneId) : State.SameOrders l s (s.testStopA l) := by
  unfold State.testStopA
  dsimp only
  split
  · split
    · exact s.enterTurn_orders l
    · exact .refl l s
  · exact .refl l s

theorem State.testStops_orders (s : State) (l : LaneId) : State.SameOrders l s (s.testStops l) :=
  (s.testStopA_orders l).trans (State.testStopB_orders _ l)

theorem State.moveCount_orders (s : State) (l : LaneId) (count : Int) : State.SameOrders l s (s.moveCount l count) := by
  have tested : ∀ t : State, State.SameOrders l t (t.testHomeLimit l) := fun t => by
    unfold State.testHomeLimit
    dsimp only
    split
    · exact .trans (.upd t rfl) (State.withdrawResult_orders _ l _)
    · exact .refl l t
  exact .trans (.upd s rfl) ((State.testStops_orders _ l).trans (tested _))

theorem State.guideTest_orders (s : State) (l : LaneId) : State.SameOrders l s (s.guideTest l) := by
  have hcount : ((s.lane l).updCtl fun c => { c with attempts := c.attempts + 1 }).orders = (s.lane l).orders := rfl
  unfold State.guideTest
  dsimp only
  generalize (s.lane l).updCtl (fun c => { c with attempts := c.attempts + 1 }) = x at hcount ⊢
  have started : State.SameOrders l s (s.setLane l (x.passGuide.motionStart .insert).1) :=
    .setLane s ((x.passGuide.orders_motionStart .insert).trans ((Lane.orders_updTube _).trans hcount))
  split
  · split
    · exact started.trans (State.motorFaultEvent_orders _ l)
    · exact started.trans (State.testStopA_orders _ l)
    all_goals exact started
  · split
    · exact .trans (.setLane s ((Lane.orders_updTube _).trans hcount)) (State.enterFinish_orders _ l)
    · exact .setLane s hcount

theorem State.homeArrivalEvent_orders (s : State) (l : LaneId) : State.SameOrders l s (s.homeArrivalEvent l) := by
  unfold State.homeArrivalEvent
  split
  · exact s.enterFinish_orders l
  · exact .upd s rfl
  all_goals exact .refl l s

theorem State.inputChange_orders (s : State) (l : LaneId) (i : InputId) : State.SameOrders l s (s.inputChange l i) := by
  have changed : State.SameOrders l s (s.upd l fun y =>
      { y with drive := y.drive.setInput i { (s.lane l).drive.input i with active := ((s.lane l).drive.input i).raw } }) := .upd s rfl
  unfold State.inputChange
  dsimp only
  split
  · split
    · exact changed
    · exact changed.trans (.upd _ rfl)
  · split
    · exact (changed.trans (.upd _ rfl)).trans (State.homeArrivalEvent_orders _ l)
    · exact changed
  · split
    · exact (changed.trans (.upd _ rfl)).trans (State.motorFaultEvent_orders _ l)
    · exact changed

theorem State.settleInput_orders (l : LaneId) (s : State) (i : InputId) : State.SameOrders l s (s.settleInput l i) := by
  unfold State.settleInput
  dsimp only
  split
  · exact s.inputChange_orders l i
  · exact .refl l s

theorem State.enterHeld_orders (s : State) (l : LaneId) : State.SameOrders l s (s.enterHeld l) := by
  rw [State.enterHeld_eq]
  exact .trans (.upd s (Lane.orders_holding _ _)) (State.emit_orders _ l _ _)

theorem State.holdIf_orders (s : State) (l : LaneId) : State.SameOrders l s (s.holdIf l) := by
  unfold State.holdIf
  split
  · exact s.enterHeld_orders l
  · exact .refl l s

theorem State.holdIfLost_orders (s : State) (l : LaneId) : State.SameOrders l s (s.holdIfLost l) := by
  unfold State.holdIfLost
  split
  · exact .refl l s
  · exact s.holdIf_orders l

theorem State.resumeMotion_orders (s : State) (l : LaneId) (p : MotionPhase) : State.SameOrders l s (s.resumeMotion l p) := by
  have started : State.SameOrders l s (s.setLane l ((s.lane l).motionStart p).1) := .setLane s (Lane.orders_motionStart _ _)
  unfold State.resumeMotion
  dsimp only
  split
  · exact started.trans (State.testStops_orders _ l)
  · exact started.trans (State.motorFaultEvent_orders _ l)
  · exact started.trans (State.homeArrivalEvent_orders _ l)
  · exact started.trans (State.withdrawResult_orders _ l _)

theorem State.resumeLane_orders (s : State) (l : LaneId) : State.SameOrders l s (s.resumeLane l) := by
  unfold State.resumeLane
  split
  · exact .refl l s
  next st _ =>
    have resumed : State.SameOrders l s ((s.upd l fun x => x.unhold st s.clock).emit l .resumed none) :=
      .trans (.upd s rfl) (State.emit_orders _ l _ _)
    dsimp only
    split
    case h_1 | h_2 | h_3 => exact resumed.trans (State.resumeMotion_orders _ l _)
    case h_4 =>
      split
      · exact resumed.trans (.upd _ rfl)
      · exact resumed.trans (State.resumeMotion_orders _ l _)
    all_goals exact resumed

theorem State.abortLane_orders (s : State) {t : State} (l : LaneId) (ht : s.abortLane l = some t) : State.SameOrders l s t := by
  unfold State.abortLane at ht
  dsimp only at ht
  split at ht <;> cases ht
  · exact s.upd_enterFinish_orders l (Lane.orders_updTube _)
  · exact .trans (.updTube s) (State.startWithdraw_orders _ l)
  · exact .trans (.upd s ((Lane.orders_updTube _).trans (Lane.orders_missRest _))) (State.startWithdraw_orders _ l)
  · exact (s.endPull_orders l _).trans (State.retargetWithdraw_orders _ l)
  all_goals exact .refl l _

theorem State.startRetract_orders (s : State) (l : LaneId) : State.SameOrders l s (s.startRetract l) := by
  have started : State.SameOrders l s (s.setLane l ((s.lane l).toRetract.motionStart .retract).1) :=
    .setLane s ((s.lane l).toRetract.orders_motionStart .retract)
  unfold State.startRetract
  dsimp only
  split
  · exact started.trans (State.motorFaultEvent_orders _ l)
  all_goals exact started

/-- The order that is taken passes from the front of the worklist to the tube (R142). -/
theorem State.openTube_orders (s : State) (l : LaneId) (o : Order) (rest : List Order) :
    ((s.openTube l o rest).lane l).orders = (some o, rest) := by
  have opened : (((s.upd l fun x => x.clearDetector.updCtl fun c =>
      { c with worklist := rest, tube := some (Tube.open o (s.stops l o)) }).emit l .tubeStarted none).lane l).orders =
      (some o, rest) := by
    rw [State.emit_lane, State.lane_upd]
    rfl
  unfold State.openTube
  dsimp only
  generalize (s.upd l fun x => x.clearDetector.updCtl fun c =>
      { c with worklist := rest, tube := some (Tube.open o (s.stops l o)) }).emit l .tubeStarted none = q at opened ⊢
  have ended : ∀ {t : State}, State.SameOrders l q t → (t.lane l).orders = (some o, rest) := fun h => Eq.trans h opened
  split
  · exact ended (.trans (.upd q rfl) (State.guideTest_orders _ l))
  · exact ended (q.upd_enterFinish_orders l (Lane.orders_updTube _))

end Sys2Proof.Machine

/-! Worklists and the request queue over every step (R139, R140, R142, R155, R175): events, the station line and requests. -/

namespace Sys2Proof.Machine

/-! ### Both lanes and the request queue -/

/-- The worklists of both lanes are legal, and at most 4 requests wait. -/
structure State.Ordered (s : State) : Prop where
  lanes : ∀ l, (s.lane l).worklistLegal
  requests : s.link.requests.length ≤ 4

theorem State.queuesLegal_iff (s : State) : s.queuesLegal ↔ s.Ordered :=
  ⟨fun ⟨ha, hb, hr⟩ => ⟨fun l => by cases l <;> assumption, hr⟩, fun h => ⟨h.lanes .a, h.lanes .b, h.requests⟩⟩

namespace State.Ordered

variable {s t : State} {l : LaneId}

/-- An operation that keeps to a lane and leaves its worklist legal. -/
theorem of_keeps (h : s.Ordered) (hk : State.KeepsTo l s t) (hl : (t.lane l).worklistLegal) : t.Ordered := by
  refine ⟨fun k => ?_, by rw [hk.link]; exact h.requests⟩
  obtain rfl | rfl := eq_or_eq_otherLane l k
  · exact hl
  · rw [hk.other]
    exact h.lanes _

/-- An operation that keeps to a lane and leaves its orders alone. -/
theorem keeps (h : s.Ordered) (hk : State.KeepsTo l s t) (hs : State.SameOrders l s t) : t.Ordered :=
  h.of_keeps hk ((h.lanes l).of_orders hs)

/-- Lanes and request queue as they were. -/
theorem of_lanes (h : s.Ordered) (hl : ∀ l, t.lane l = s.lane l) (hr : t.link.requests = s.link.requests) : t.Ordered :=
  ⟨fun l => by rw [hl]; exact h.lanes l, by rw [hr]; exact h.requests⟩

theorem reports (h : s.Ordered) (ht : s.Reports t) : t.Ordered := h.of_lanes ht.lane (by rw [ht.link])

theorem reach (h : s.Ordered) (due : Nat) : (s.reach due).Ordered := h.of_lanes (s.reach_lane due) rfl

theorem upd (h : s.Ordered) (l : LaneId) {f : Lane → Lane} (hf : (f (s.lane l)).worklistLegal) : (s.upd l f).Ordered :=
  h.of_keeps (.upd l s f) (by rwa [State.lane_upd])

/-- A change of a lane apart from its orders. -/
theorem frame (h : s.Ordered) (l : LaneId) {f : Lane → Lane} (hf : (f (s.lane l)).orders = (s.lane l).orders) : (s.upd l f).Ordered :=
  h.upd l ((h.lanes l).of_orders hf)

/-- A list of operations that each keep it. -/
theorem foldl {α : Type} {f : State → α → State} (hf : ∀ {s : State} a, s.Ordered → (f s a).Ordered) (as : List α) (h : s.Ordered) :
    (as.foldl f s).Ordered := by
  induction as generalizing s with
  | nil => exact h
  | cons a as ih => exact ih (hf a h)

/-! ### Orders come and go -/

/-- The front order passes from the worklist to the tube (R142). -/
theorem takeFrontOrder (h : s.Ordered) (l : LaneId) : (s.takeFrontOrder l).Ordered := by
  unfold State.takeFrontOrder
  split
  next o rest _ hw =>
    have hbefore : (s.lane l).orders.2 = o :: rest := hw
    have hafter := s.openTube_orders l o rest
    refine h.of_keeps (s.openTube_keeps l o rest) ((h.lanes l).of_sublist ?_ ?_) <;> rw [hafter, hbefore]
    · exact Nat.le_succ _
    · exact List.sublist_append_right _ _
  · exact h

/-- The tube leaves the lane (R148). -/
theorem leaveFinish (h : s.Ordered) (l : LaneId) (fault : Option FaultCause) : (s.leaveFinish l fault).Ordered := by
  have hworklist : (s.lane l).closeTube.orders = (none, (s.lane l).orders.2) :=
    congrArg (Prod.mk none) (congrArg Prod.snd (s.lane l).orders_updateRearm)
  have closed : (s.upd l Lane.closeTube).Ordered := by
    refine h.upd l ((h.lanes l).of_sublist ?_ ?_) <;> rw [hworklist]
    exact List.sublist_append_right _ _
  unfold State.leaveFinish
  dsimp only
  split
  · exact closed.keeps (State.enterFaulted_keeps _ l _) (State.enterFaulted_orders _ l _)
  · exact closed.frame l rfl

/-- LANE_RESET drops tube and worklist (R155). -/
theorem resetLane (h : s.Ordered) (l : LaneId) : (s.resetLane l).Ordered := by
  have reset : (s.upd l Lane.resetLane).Ordered := h.upd l (.of_empty rfl)
  have marked : ({ s.upd l Lane.resetLane with engine := (s.upd l Lane.resetLane).engine.discard l } : State).Ordered :=
    reset.of_lanes (State.lane_congr rfl rfl) rfl
  have givenUp : ∀ {t : State} (kind : BlockKind), t.Ordered → (t.giveUpBlock l kind).Ordered := fun kind ht =>
    ht.keeps (State.giveUpBlock_keeps _ l kind) (State.giveUpBlock_orders _ l kind)
  exact (givenUp .region (givenUp .full marked)).reports (State.emit_reports _ l _ _)

/-! ### The measurement engine (chapter 4) -/

theorem answerFlight (h : s.Ordered) (code : ReplyCode) (body : ReplyBody) : (s.answerFlight code body).Ordered := by
  unfold State.answerFlight
  split
  · have freed : ({ s with link := { s.link with handler := .free } } : State).Ordered := h.of_lanes (s.lane_withLink _) rfl
    exact freed.reports (State.placeReply_reports _ _)
  · exact h

theorem deliver (h : s.Ordered) (l : LaneId) (j : Job) : (s.deliver l j).Ordered := by
  cases j with
  | measure tag ind =>
    have hjoin : ∀ (t : Tube) (e : CatEntry), (t.join e).order = t.order := fun t e => (congrArg Tube.order (t.upstream_join e) :)
    unfold State.deliver
    refine h.frame l (Lane.orders_updTube _ ?_)
    exact fun t => hjoin t _
  | span ch amplitude phase values =>
    unfold State.deliver State.deliverSpan
    dsimp only
    split
    · exact (h.frame l rfl).answerFlight _ _
    · exact h.answerFlight _ _
  | solve ch ps qs =>
    unfold State.deliver State.deliverSolve
    dsimp only
    split
    · exact (h.frame l rfl).answerFlight _ _
    · exact h.answerFlight _ _

theorem engineChoose (h : s.Ordered) : s.engineChoose.Ordered := by
  obtain ⟨_, hlink, _, _, hlanes⟩ := s.engineChoose_frame
  refine ⟨fun l => ?_, by rw [hlink]; exact h.requests⟩
  rw [hlanes]
  exact (h.lanes l).of_orders rfl

theorem appendJob (h : s.Ordered) (l : LaneId) (j : Job) : (s.appendJob l j).Ordered :=
  h.keeps (s.appendJob_keeps l j) (.of_upstream (s.appendJob_upstream l j))

/-! ### The station line (chapter 10) -/

/-- A good frame joins the request queue where that has room (R175). -/
theorem goodFrame (h : s.Ordered) (payload : List Byte) : (s.goodFrame payload).Ordered := by
  have alive : s.signOfLife.Ordered := by
    refine h.of_lanes s.signOfLife_lane ?_
    unfold State.signOfLife
    dsimp only
    split
    · rfl
    · rw [((State.formNotice_reports _ _).trans (State.kick_reports _)).link]
  refine ⟨fun l => (State.lane_withLink _ _ l).symm ▸ alive.lanes l, ?_⟩
  show (s.signOfLife.link.accept payload).requests.length ≤ 4
  unfold Link.accept
  split
  next hroom =>
    rw [List.length_append, List.length_singleton]
    exact hroom
  · exact alive.requests

theorem rxByte (h : s.Ordered) (b : Byte) : (s.rxByte b).Ordered := by
  have received : ∀ rx : Receiver, ({ s with link := { s.link with rx := rx } } : State).Ordered := fun _ =>
    h.of_lanes (s.lane_withLink _) rfl
  unfold State.rxByte State.frameByte State.judge
  split
  · split <;> exact received _
  · split
    · exact h.of_lanes s.badFrame_lane rfl
    · split
      · split
        · exact (received _).goodFrame _
        · exact h.of_lanes s.badFrame_lane rfl
      · exact received _

theorem receive (h : s.Ordered) (bytes : List Byte) : (s.receive bytes).Ordered :=
  (foldl (fun b hs => hs.rxByte b) bytes h).of_lanes (State.lane_withLink _ _) rfl

end State.Ordered

/-! ### Events -/

section

variable {s t : State} {l : LaneId}

theorem execJobCompletion_ordered (h : s.Ordered) (ht : execJobCompletion s = .next t) : t.Ordered := by
  cases ht
  split
  · exact h
  next e _ =>
    have delivered : (if e.discarded then s.reach e.doneAt else (s.reach e.doneAt).deliver e.lane e.job).Ordered := by
      split
      · exact h.reach _
      · exact (h.reach _).deliver _ _
    exact delivered.engineChoose.keeps (State.finishWait_keeps _ _) (State.finishWait_orders _ _)

theorem execFrameTimeout_ordered (h : s.Ordered) (ht : execFrameTimeout s = .next t) : t.Ordered := by
  cases ht
  split
  · exact (h.reach _).of_lanes (State.badFrame_lane _) rfl
  · exact h

theorem execSilenceTimeout_ordered (h : s.Ordered) (ht : execSilenceTimeout s = .next t) : t.Ordered := by
  have held : ∀ {u : State} (k : LaneId), u.Ordered → (u.holdIf k).Ordered := fun k hu =>
    hu.keeps (State.holdIf_keeps _ k) (State.holdIf_orders _ k)
  cases ht
  split
  · exact held .b (held .a ((h.reach _).of_lanes (State.loseLink_lane _) rfl))
  · exact h

theorem execTransmissionEnd_ordered (h : s.Ordered) (ht : execTransmissionEnd s = .next t) : t.Ordered := by
  cases ht
  split
  · exact h
  · exact (h.reach _).reports (State.choose_reports _)
  · exact ((h.reach _).reports (.pool _ _)).reports ((State.returnBuffer_reports _).trans (State.choose_reports _))

theorem State.moveCount_keeps (s : State) (l : LaneId) (count : Int) : State.KeepsTo l s (s.moveCount l count) := by
  have tested : ∀ t : State, State.KeepsTo l t (t.testHomeLimit l) := fun t => by
    unfold State.testHomeLimit
    dsimp only
    split
    · exact .upd_trans (State.withdrawResult_keeps _ l _)
    · exact .refl l t
  exact .upd_trans ((State.testStops_keeps _ l).trans (tested _))

theorem execEdge_ordered {phase : EncPhase} (h : s.Ordered) (ht : execEdge l phase s = .next t) : t.Ordered := by
  have accepted : (s.upd l fun x => x.accept phase).Ordered := h.frame l rfl
  cases ht
  split
  · exact accepted.frame l rfl
  · split
    · exact accepted.keeps (State.moveCount_keeps _ l _) (State.moveCount_orders _ l _)
    · exact accepted

theorem execControlPeriodEnd_ordered (h : s.Ordered) (ht : execControlPeriodEnd l s = .next t) : t.Ordered := by
  cases ht
  exact (h.reach _).frame l (Lane.orders_controlPeriod _ _)

theorem execStall_ordered (h : s.Ordered) (ht : execStall l s = .next t) : t.Ordered := by
  cases ht
  split
  · have stopped : (s.upd l Lane.stopDrive).Ordered := h.frame l rfl
    exact stopped.keeps (State.stallEvent_keeps _ l _) (State.stallEvent_orders _ l _)
  · exact h

theorem execDebouncedStateChange_ordered {i : InputId} (h : s.Ordered) (ht : execDebouncedStateChange l i s = .next t) : t.Ordered := by
  cases ht
  split
  · exact h
  · exact (h.reach _).keeps (State.inputChange_keeps _ l i) (State.inputChange_orders _ l i)

theorem execSwitchEnd_ordered (h : s.Ordered) (ht : execSwitchEnd l s = .next t) : t.Ordered := by
  cases ht
  split
  · exact (h.reach _).frame l rfl
  · exact h

theorem execSettleEnd_ordered (h : s.Ordered) (ht : execSettleEnd l s = .next t) : t.Ordered := by
  cases ht
  split
  · exact (h.reach _).frame l rfl
  · exact h

theorem execSlotEnd_ordered {d : Demod} (h : s.Ordered) (ht : execSlotEnd l d s = .next t) : t.Ordered := by
  cases ht
  split
  next r _ =>
    have next : ∀ part : List Sample, ∀ slot start : Nat, ((s.reach start).upd l fun x => x.beginSlot slot start part).Ordered :=
      fun _ _ _ => (h.reach _).frame l rfl
    unfold State.endSlot
    dsimp only
    split
    · exact next _ _ _
    · exact (next _ _ _).keeps (State.captureCycle_keeps _ l _) (State.captureCycle_orders _ l _)
  · exact h

theorem execGuidePoll_ordered (h : s.Ordered) (ht : execGuidePoll l s = .next t) : t.Ordered := by
  cases ht
  split
  next due _ _ =>
    have polled : ((s.reach due).upd l fun x => x.nextPoll due).Ordered := (h.reach _).frame l rfl
    exact polled.keeps (State.guideTest_keeps _ l) (State.guideTest_orders _ l)
  · exact h

theorem execTurnDwellEnd_ordered (h : s.Ordered) (ht : execTurnDwellEnd l s = .next t) : t.Ordered := by
  cases ht
  split
  · exact (h.reach _).keeps (State.enterPull_keeps _ l) (State.enterPull_orders _ l)
  · exact h

theorem execReportRecord_ordered (h : s.Ordered) (ht : execReportRecord l s = .next t) : t.Ordered := by
  cases ht
  split
  next u _ _ =>
    split
    · unfold State.report
      split
      · have counted : (s.upd l fun x => x.updTube fun u => { u with reported := u.reported + 1 }).Ordered :=
          h.frame l (Lane.orders_updTube _)
        exact counted.reports (State.queueRecord_reports _ _)
      · exact (h.reports (State.queueRecord_reports _ _)).leaveFinish l _
    · exact h
  · exact h

/-! ### Requests (R177, R178) -/

theorem State.Ordered.handle {kind : Nat → Bool} {f : List Byte → State → Handled} (h : s.Ordered)
    (hf : ∀ p {u : State}, u.Ordered → (f p u).Meets State.Ordered)
    (ht : Host.Outcome.next (φ := Fault) (ρ := Refusal) (s.handle kind f) = .next t) : t.Ordered := by
  cases ht
  obtain hid | ⟨p, _, _, htaken⟩ := s.handle_cases kind f
  · rw [hid]
    exact h
  · have popped : s.popRequest.Ordered := by
      refine ⟨fun l => s.popRequest_lane l ▸ h.lanes l, ?_⟩
      rw [State.popRequest_link, List.length_drop]
      exact (Nat.sub_le _ _).trans h.requests
    have met := hf p popped
    rw [htaken]
    generalize f p s.popRequest = o at met
    cases o with
    | refused code => exact popped.reports (State.placeReply_reports _ _)
    | done u body => exact State.Ordered.reports met (State.placeReply_reports _ _)
    | inFlight u => exact State.Ordered.of_lanes met (u.working_lane _) rfl

variable (p : List Byte)

theorem handleSetLink_ordered (h : s.Ordered) : (handleSetLink p s).Meets State.Ordered := by
  refine forUnit_meets ?_
  split
  · refine State.Ordered.reports ?_ (State.testPool_reports _)
    exact h.of_lanes (State.lane_congr rfl rfl) rfl
  · trivial

theorem handleSetLayout_ordered (h : s.Ordered) : (handleSetLayout p s).Meets State.Ordered := by
  refine forUnit_meets (Handled.meets_of_check (Handled.meets_of_check ?_))
  split
  · exact h.of_lanes (State.lane_congr rfl rfl) rfl
  · trivial

theorem handleSetScan_ordered (h : s.Ordered) : (handleSetScan p s).Meets State.Ordered := by
  refine forSetup_meets fun l => ?_
  split
  · exact h.frame l rfl
  · trivial

theorem handleSetChannel_ordered (h : s.Ordered) : (handleSetChannel p s).Meets State.Ordered := by
  refine forSetup_meets fun l => Handled.meets_of_check ?_
  split
  · exact h.frame l rfl
  · trivial

theorem handleSetMix_ordered (h : s.Ordered) : (handleSetMix p s).Meets State.Ordered := by
  have mixed : ∀ (l : LaneId) (ch : Nat) (m : MixChannel), (s.setMix l ch m).Meets State.Ordered := fun l _ _ => h.frame l rfl
  refine forSetup_meets fun l => Handled.meets_of_check ?_
  split
  · exact mixed l _ _
  · split
    · split
      · exact mixed l _ _
      · trivial
    · trivial

theorem handleSetLandmark_ordered (h : s.Ordered) : (handleSetLandmark p s).Meets State.Ordered := by
  refine forSetup_meets fun l => ?_
  split
  · exact h.frame l rfl
  · trivial

theorem handleSetMotion_ordered (h : s.Ordered) : (handleSetMotion p s).Meets State.Ordered := by
  have settled : ∀ {u : State} (l : LaneId) (i : InputId), u.Ordered → (u.settleInput l i).Ordered := fun l i hu =>
    hu.keeps (State.settleInput_keeps l _ i) (State.settleInput_orders l _ i)
  refine forSetup_meets fun l => ?_
  split
  · exact State.Ordered.foldl (fun i hs => settled l i hs) allInputs (h.frame l rfl)
  · trivial

/-- QUEUE_TUBE appends an order that passed the checks for room and tag (R138, R139). -/
theorem handleQueueTube_ordered (h : s.Ordered) : (handleQueueTube p s).Meets State.Ordered := by
  refine forLaneLength_meets fun l => Handled.meets_of_check (Handled.meets_of_check (Handled.meets_of_check ?_))
  split
  · trivial
  next hroom =>
    split
    · trivial
    next hnew =>
      rw [Lane.hasTag_iff] at hnew
      have appended : (s.upd l fun y => y.appendOrder (orderAt p)).Ordered :=
        h.upd l ((h.lanes l).appendOrder (Nat.lt_of_not_le hroom) hnew)
      exact appended.takeFrontOrder l

/-- CANCEL_TUBE drops orders and keeps the rest as it stands (R140). -/
theorem handleCancelTube_ordered (h : s.Ordered) : (handleCancelTube p s).Meets State.Ordered := by
  have hless : ∀ (l : LaneId) (tag : Nat), (ordersWithout tag (s.lane l).ctl.worklist).Sublist (s.lane l).ctl.worklist :=
    fun _ _ => List.filter_sublist
  refine forLaneLength_meets fun l => ?_
  dsimp only
  split
  · exact h.upd l ((h.lanes l).of_sublist (hless l _).length_le (List.Sublist.append (List.Sublist.refl _) (hless l _)))
  · trivial

theorem handleAbort_ordered (h : s.Ordered) : (handleAbort p s).Meets State.Ordered := by
  refine forLaneLength_meets fun l => ?_
  split
  next u hu =>
    exact h.keeps ((s.abortLane_keeps u l hu).trans (u.holdIfLost_keeps l)) ((s.abortLane_orders l hu).trans (u.holdIfLost_orders l))
  · trivial

theorem handleHold_ordered (h : s.Ordered) : (handleHold p s).Meets State.Ordered := by
  refine forLaneLength_meets fun l => ?_
  dsimp only
  split
  · exact h.keeps (s.enterHeld_keeps l) (s.enterHeld_orders l)
  · split
    · exact h
    · trivial

theorem handleResume_ordered (h : s.Ordered) : (handleResume p s).Meets State.Ordered := by
  refine forLaneLength_meets fun l => ?_
  split
  · exact h.keeps ((s.resumeLane_keeps l).trans (State.holdIfLost_keeps _ l))
      ((s.resumeLane_orders l).trans (State.holdIfLost_orders _ l))
  · trivial

theorem handleRetract_ordered (h : s.Ordered) : (handleRetract p s).Meets State.Ordered := by
  refine forLaneLength_meets fun l => ?_
  dsimp only
  split
  · exact h.keeps ((s.startRetract_keeps l).trans (State.holdIfLost_keeps _ l))
      ((s.startRetract_orders l).trans (State.holdIfLost_orders _ l))
  · trivial

theorem handleSpanCal_ordered (h : s.Ordered) : (handleSpanCal p s).Meets State.Ordered :=
  forSetup_meets fun l => Handled.meets_of_check (Handled.meets_of_check (Handled.meets_of_check (Handled.meets_of_check
    (h.appendJob l _))))

theorem handleSolveMix_ordered (h : s.Ordered) : (handleSolveMix p s).Meets State.Ordered := by
  refine forSetup_meets fun l => ?_
  dsimp only
  split
  · exact Handled.meets_of_check (Handled.meets_of_check (h.appendJob l _))
  · trivial

/-! ### Every step -/

theorem exec_ordered {c : Instr} (h : s.Ordered) (ht : exec c s = .next t) : t.Ordered := by
  cases c with
  | powerOn =>
    cases ht
    exact ⟨fun l => (s.poweredOn_lane l).symm ▸ .of_empty rfl, Nat.zero_le _⟩
  | rawLevelChange l i level => cases ht; exact h.frame l rfl
  | debouncedStateChange l i => exact execDebouncedStateChange_ordered h ht
  | edge l phase => exact execEdge_ordered h ht
  | controlPeriodEnd l => exact execControlPeriodEnd_ordered h ht
  | stall l => exact execStall_ordered h ht
  | switchEnd l => exact execSwitchEnd_ordered h ht
  | settleEnd l => exact execSettleEnd_ordered h ht
  | slotEnd l d => exact execSlotEnd_ordered h ht
  | guidePoll l => exact execGuidePoll_ordered h ht
  | turnDwellEnd l => exact execTurnDwellEnd_ordered h ht
  | takeOrder l => cases ht; exact h.takeFrontOrder l
  | jobCompletion => exact execJobCompletion_ordered h ht
  | reportRecord l => exact execReportRecord_ordered h ht
  | frameReceived bytes | syncWordFound bytes | frameLengthOutOfRange bytes => cases ht; exact h.receive bytes
  | frameTimeout => exact execFrameTimeout_ordered h ht
  | silenceTimeout => exact execSilenceTimeout_ordered h ht
  | transmissionEnd => exact execTransmissionEnd_ordered h ht
  | badKind => exact h.handle (f := fun _ _ => .refused .badKind) (fun _ _ _ => trivial) ht
  | status => exact h.handle (f := handleStatus) (fun _ _ hu => forUnit_meets hu) ht
  | setLink => exact h.handle (fun p _ hu => handleSetLink_ordered p hu) ht
  | setLayout => exact h.handle (fun p _ hu => handleSetLayout_ordered p hu) ht
  | setScan => exact h.handle (fun p _ hu => handleSetScan_ordered p hu) ht
  | setChannel => exact h.handle (fun p _ hu => handleSetChannel_ordered p hu) ht
  | setMix => exact h.handle (fun p _ hu => handleSetMix_ordered p hu) ht
  | setLandmark => exact h.handle (fun p _ hu => handleSetLandmark_ordered p hu) ht
  | setMotion => exact h.handle (fun p _ hu => handleSetMotion_ordered p hu) ht
  | queueTube => exact h.handle (fun p _ hu => handleQueueTube_ordered p hu) ht
  | cancelTube => exact h.handle (fun p _ hu => handleCancelTube_ordered p hu) ht
  | abort => exact h.handle (fun p _ hu => handleAbort_ordered p hu) ht
  | hold => exact h.handle (fun p _ hu => handleHold_ordered p hu) ht
  | resume => exact h.handle (fun p _ hu => handleResume_ordered p hu) ht
  | retract => exact h.handle (fun p _ hu => handleRetract_ordered p hu) ht
  | laneReset => exact h.handle (f := handleLaneReset) (fun _ _ hu => forLaneLength_meets fun l => hu.resetLane l) ht
  | spanCal => exact h.handle (fun p _ hu => handleSpanCal_ordered p hu) ht
  | solveMix => exact h.handle (fun p _ hu => handleSolveMix_ordered p hu) ht

theorem step_ordered (h : s.Ordered) (ht : step s = .next t) : t.Ordered := by
  unfold step at ht
  split at ht
  · cases ht
    exact h.of_lanes s.idle_lane rfl
  · have taken : ∀ q, (s.withPending q).Ordered := fun q => h.of_lanes (s.withPending_lane q) rfl
    exact exec_ordered (taken _) ht

end

/-- Settles O8: `State.Ordered` is the statement's property, lane by lane; `step_ordered` keeps it. -/
theorem everyStepKeepsTheQueues : Obligations.EveryStepKeepsTheQueues := fun s t hs hstep =>
  t.queuesLegal_iff.2 (step_ordered (s.queuesLegal_iff.1 hs) hstep)

end Sys2Proof.Machine

/-! The requests to a lane's controller (chapter 8): QUEUE_TUBE, CANCEL_TUBE, HOLD, RESUME, RETRACT and LANE_RESET. -/

namespace Sys2Proof.Machine

/-! ### The commands -/

theorem exec_queueTube (s : State) : exec .queueTube s = execQueueTube s := by rfl

theorem exec_cancelTube (s : State) : exec .cancelTube s = execCancelTube s := by rfl

theorem exec_abort (s : State) : exec .abort s = execAbort s := by rfl

theorem exec_hold (s : State) : exec .hold s = execHold s := by rfl

theorem exec_resume (s : State) : exec .resume s = execResume s := by rfl

theorem exec_retract (s : State) : exec .retract s = execRetract s := by rfl

theorem exec_laneReset (s : State) : exec .laneReset s = execLaneReset s := by rfl

/-! ### A request to a lane (R177, R185) -/

section

variable {s t : State} {p : List Byte} {l : LaneId}

/-- A request of the right length to a lane is carried out in whatever state that is. -/
theorem forLaneLength_accepted {n : Nat} (f : LaneId → Handled) (hl : laneOf p = some l) (hn : p.length = n) :
    forLaneLength p n f = f l := by
  rw [forLaneLength, forLane, hl]
  exact if_neg fun h => h hn

theorem forLaneLength_badLane {n : Nat} (f : LaneId → Handled) (hl : laneOf p = none) :
    forLaneLength p n f = .refused .badLane := by rw [forLaneLength, forLane, hl]

/-- The handler carries out the front frame of the row's kind. -/
theorem State.handle_kind {k : Nat} {f : List Byte → State → Handled} (ht : s.takes p) (hk : u8At p 0 = k) :
    s.handle (kindIs k) f = s.popRequest.conclude p (f p s.popRequest) :=
  s.handle_takes _ f p ht (by rw [hk, kindIs, beq_self_eq_true])

/-- An operation of a lane, answered as the request that the handler took: the reply is all that it adds. -/
theorem State.answered_of_keeps (ht : s.takes p) (hk : State.KeepsTo l s.popRequest t) (r : Reply) :
    s.answered (t.placeReply r) r := by
  obtain ⟨hfree, _⟩ := ht
  have hlink := hk.link
  refine s.placeReply_answered t r ?_ ?_ <;> rw [hlink]
  · exact List.drop_one
  · exact hfree

/-- The request taken and answered with nothing else done. -/
theorem State.popRequest_conclude_same (s : State) (p : List Byte) (body : ReplyBody) :
    s.popRequest.conclude p (.done s.popRequest body) = s.afterReply (replyTo p .ok body) := s.popRequest_placeReply _

/-- A notice is a matter of pool and event mask before and of the pool after it. -/
theorem State.noticed_congr {r q : State} {kind : NoticeKind} {bit : Nat} {tag : Option Nat} {cause : Option FaultCause}
    (h : r.noticed q l kind bit tag cause) (hpool : s.pool = r.pool) (hmask : s.link.mask = r.link.mask) (hq : t.pool = q.pool) :
    s.noticed t l kind bit tag cause := by
  unfold State.noticed State.formed at h ⊢
  rwa [hpool, hmask, hq]

end

/-! ### QUEUE_TUBE (R138, R139) -/

section

variable {s : State} {p : List Byte} {l : LaneId} {o : Order} {ab : Int × Int}

theorem State.popRequest_stops (s : State) (l : LaneId) (o : Order) : s.popRequest.stops l o = s.stops l o := by
  rw [State.stops, State.popRequest_lane]
  rfl

/-- An order that passes every check is appended, and the lane may take its front order (R138, R139, R142). -/
theorem execQueueTube_accepted {pitch : Nat} (ht : s.takes p) (hk : u8At p 0 = 9) (hl : laneOf p = some l)
    (hn : p.length = queueLength p) (ho : orderAt p = o) (hslots : (s.lane l).exc.slots ≠ []) (hscale : (s.lane l).pos.scale.isSome = true)
    (hpitch : (s.lane l).motion.pitch = some pitch) (hfields : o.fieldsOk = true)
    (hclass : o.cls ≠ 0 → (s.layout o.cls).isSome = true) (hab : ab = s.stops l o) (hstops : ab.2 + (pitch : Int) < ab.1)
    (hroom : (s.lane l).ctl.worklist.length < 32) (hnew : o.tag ∉ (s.lane l).tags) :
    execQueueTube s =
      .next (s.popRequest.conclude p
        (.done ((s.popRequest.upd l fun x => x.appendOrder o).takeFrontOrder l)
          (.queueTube ((s.lane l).ctl.worklist.length + 1) ab.1 ab.2))) := by
  have hready : (s.lane l).ready = true := by
    rw [Lane.ready, hscale, hpitch, List.isEmpty_eq_false_iff.2 hslots]
    rfl
  have hok : s.popRequest.orderOk o = true := by
    rw [State.orderOk, hfields, Bool.true_and, Bool.or_eq_true, beq_iff_eq]
    exact or_iff_not_imp_left.2 hclass
  have hconsistent : stopsOk (s.lane l).pitch ab = true := by
    rw [stopsOk, Lane.pitch, hpitch]
    exact decide_eq_true hstops
  have hfree : (s.lane l).hasTag o.tag = false := Bool.eq_false_iff.2 fun h => hnew ((Lane.hasTag_iff _ _).1 h)
  rw [execQueueTube, State.handle_kind ht hk, handleQueueTube, forLaneLength_accepted _ hl hn]
  dsimp only
  rw [State.popRequest_lane, ho, State.popRequest_stops, ← hab, hready, hok, hconsistent, hfree]
  simp only [Bool.true_eq_false, Bool.false_eq_true, if_false]
  rw [if_neg (show ¬ Config.worklistMax ≤ _ from Nat.not_le.2 hroom)]

/-- A lane that is not IDLE takes no order (R142). -/
theorem State.takeFrontOrder_busy {s : State} (h : (s.lane l).ctl.state ≠ .idle) : s.takeFrontOrder l = s := by
  have hno : s.canTake l = false := by
    simp only [State.canTake, beq_eq_false_iff_ne.2 h, Bool.false_and]
  rw [State.takeFrontOrder, hno]

/-- Taking moves the front order from the worklist to the tube, or nothing (R142). -/
theorem State.takeFrontOrder_orders (s : State) (l : LaneId) :
    ((s.takeFrontOrder l).lane l).orders = (s.lane l).orders ∨
      ∃ o rest, (s.lane l).ctl.worklist = o :: rest ∧ ((s.takeFrontOrder l).lane l).orders = (some o, rest) := by
  unfold State.takeFrontOrder
  split
  next o rest _ hw => exact .inr ⟨o, rest, hw, s.openTube_orders l o rest⟩
  · exact .inl rfl

/-- The tube length of an order is its class's, or its own for class 0 (R24, R137). -/
theorem State.orderLength_eq {len : Int}
    (h : o.cls = 0 ∧ o.length.map (fun n => (n : Int)) = some len ∨
      o.cls ≠ 0 ∧ (s.layout o.cls).map (fun y => y.length) = some len) : s.orderLength o = len := by
  obtain ⟨hcls, hlen⟩ | ⟨hcls, hlen⟩ := h
  · rw [State.orderLength, if_pos hcls]
    cases hn : o.length with
    | none =>
      rw [hn] at hlen
      cases hlen
    | some n =>
      rw [hn] at hlen
      exact Option.some.inj hlen
  · rw [State.orderLength, if_neg hcls, hlen]
    rfl

end

/-- Settles O31: `execQueueTube_accepted` gives the next state, `State.takeFrontOrder_orders` what the taking makes of the worklist. -/
theorem queueTubeAppendsTheOrder : Obligations.QueueTubeAppendsTheOrder := by
  intro s p l o pitch ab ht hask hn ho hslots hscale hpitch hfields hclass hab hstops hroom hnew
  obtain ⟨hkind, hl⟩ := hask
  have hexec := execQueueTube_accepted ht (Option.some.inj hkind).symm hl hn ho hslots hscale hpitch hfields hclass hab hstops hroom
    hnew
  rw [exec_queueTube, hexec]
  refine ⟨fun hst => ?_, _, rfl, ?_, ?_, fun len hlen => ?_⟩
  · have hbusy : ((s.popRequest.upd l fun x => x.appendOrder o).lane l).ctl.state ≠ .idle := by
      rw [State.lane_upd, State.popRequest_lane]
      exact hst
    rw [State.takeFrontOrder_busy hbusy, State.popRequest_conclude_upd]
    rfl
  · exact State.answered_of_keeps ht (.upd_trans (State.takeFrontOrder_keeps _ l)) _
  · rw [State.conclude, (State.placeReply_reports _ _).lane]
    have hafter := State.takeFrontOrder_orders (s.popRequest.upd l fun x => x.appendOrder o) l
    rw [State.lane_upd, State.popRequest_lane] at hafter
    obtain hsame | ⟨k, rest, hw, htaken⟩ := hafter
    · exact .inl (congrArg Prod.snd hsame :)
    · obtain ⟨htube, hrest⟩ := Prod.mk.inj htaken
      refine .inr (Eq.trans hw ?_)
      rw [htube, hrest]
      rfl
  · have hlength := State.orderLength_eq hlen
    rw [hab, State.stops, hlength]
    refine ⟨fun hseg => ?_, fun upper lower hseg => ?_⟩ <;> rw [hseg]
    · rfl
    · rfl

/-! ### CANCEL_TUBE (R140) -/

/-- Among orders with distinct tags, those other than that of one order are the rest in their order (R140). -/
theorem ordersWithout_eq {before after : List Order} {o : Order} (h : ((before ++ o :: after).map fun k => k.tag).Nodup) :
    ordersWithout o.tag (before ++ o :: after) = before ++ after := by
  have hkept : ∀ ks : List Order, o.tag ∉ ks.map (fun k => k.tag) → ordersWithout o.tag ks = ks := fun ks hks => by
    refine List.filter_eq_self.2 fun k hk => bne_iff_ne.2 fun htag => hks ?_
    exact List.mem_map.2 ⟨k, hk, htag⟩
  rw [List.map_append, List.map_cons, List.nodup_middle, List.nodup_cons, List.mem_append, not_or] at h
  obtain ⟨⟨hbefore, hafter⟩, _⟩ := h
  have happ : ordersWithout o.tag (before ++ o :: after) = ordersWithout o.tag before ++ ordersWithout o.tag (o :: after) :=
    List.filter_append ..
  have hcons : ordersWithout o.tag (o :: after) = ordersWithout o.tag after :=
    List.filter_cons_of_neg (by rw [bne_self_eq_false]; decide)
  rw [happ, hcons, hkept before hbefore, hkept after hafter]

/-- Settles O32: the worklist by `ordersWithout_eq`, the refusals by the checks in their order. -/
theorem cancelTubeRemovesAWaitingOrder : Obligations.CancelTubeRemovesAWaitingOrder := by
  refine ⟨fun s p ht hk h0 h1 => ?_, fun s p l ht hask hn => ?_⟩
  · have hlane : laneOf p = none := by rw [laneOf, if_neg h0, if_neg h1]
    rw [exec_cancelTube, execCancelTube, State.handle_kind ht hk, handleCancelTube, forLaneLength_badLane _ hlane,
      State.conclude_refused]
  · obtain ⟨hkind, hl⟩ := hask
    have hexec : exec .cancelTube s = .next (s.popRequest.conclude p
        (if (s.lane l).ctl.worklist.any fun o => o.tag == u32At p 4 then
          .done (s.popRequest.upd l fun x => x.updCtl fun c => { c with worklist := ordersWithout (u32At p 4) c.worklist })
            (.cancelTube (ordersWithout (u32At p 4) (s.lane l).ctl.worklist).length)
        else .refused .notFound)) := by
      rw [exec_cancelTube, execCancelTube, State.handle_kind ht (Option.some.inj hkind).symm, handleCancelTube,
        forLaneLength_accepted _ hl hn, State.popRequest_lane]
    rw [hexec]
    refine ⟨fun before after o hw htag hnodup => ?_, fun hno => ?_⟩
    · have hfound : ((s.lane l).ctl.worklist.any fun o => o.tag == u32At p 4) = true := by
        rw [List.any_eq_true]
        exact ⟨o, by rw [hw]; exact List.mem_append_right _ List.mem_cons_self, beq_iff_eq.2 htag⟩
      have hleft : ordersWithout (u32At p 4) (s.lane l).ctl.worklist = before ++ after := by
        rw [hw, ← htag]
        refine ordersWithout_eq ?_
        rw [← hw]
        exact hnodup.of_append_right
      rw [if_pos hfound, State.popRequest_conclude_upd, Lane.updCtl, hleft]
    · have hnone : ¬ ((s.lane l).ctl.worklist.any fun o => o.tag == u32At p 4) = true := by
        rw [List.any_eq_true]
        rintro ⟨o, ho, htag⟩
        exact hno o ho (beq_iff_eq.1 htag)
      rw [if_neg hnone, State.conclude_refused]

/-! ### Motion starts (R122, R152) -/

section

variable {s : State} {l : LaneId}

/-- A motion start sets the motor going where no motor-fault and, for a withdrawal, neither probe-home nor the home limit holds it
back (R122, R132). -/
theorem Lane.motionStart_started {x : Lane} {p : MotionPhase} (hfault : x.drive.fault.active = false)
    (hfree : p = .withdraw → x.drive.home.active = false ∧ x.atHomeLimit = false) :
    x.motionStart p = (x.run p x.motion.startDuty, .started) := by
  obtain ⟨h, _⟩ | ⟨hp, h, _⟩ | ⟨hp, h, _⟩ | ⟨_, hstart⟩ := x.motionStart_cases p
  · cases hfault.symm.trans h
  · cases (hfree hp).1.symm.trans h
  · cases (hfree hp).2.symm.trans h
  · exact hstart

/-- While the link is UP no lane is held at the end of its step (R123; log entry 10). -/
theorem State.holdIfLost_up {s : State} (h : s.link.up = true) (l : LaneId) : s.holdIfLost l = s := if_pos h

theorem State.popRequest_conclude_setLane (s : State) (p : List Byte) (l : LaneId) (x : Lane) (body : ReplyBody) :
    s.popRequest.conclude p (.done (s.popRequest.setLane l x) body) = (s.setLane l x).afterReply (replyTo p .ok body) :=
  s.popRequest_conclude_upd p l (fun _ => x) body

/-- The tag of a lane's tube is that of its order. -/
theorem Lane.tag_of_orders {x y : Lane} (h : y.orders = x.orders) : y.tag = x.tag := by
  have htube : (y.ctl.tube.map fun t => t.order) = x.ctl.tube.map fun t => t.order := (congrArg Prod.fst h :)
  have htag := congrArg (Option.map fun o => o.tag) htube
  rwa [Option.map_map, Option.map_map] at htag

end

/-! ### HOLD (R151) -/

/-- Settles O34: the lane is `Lane.holding`, its notice that of `State.emit_noticed`. -/
theorem holdSuspendsTheLane : Obligations.HoldSuspendsTheLane := by
  rintro s p l ht ⟨⟨hkind, hl⟩, hn⟩
  have hexec : exec .hold s = .next (s.popRequest.conclude p
      (if (s.lane l).ctl.state.holdable then .done (s.popRequest.enterHeld l) .empty
      else if (s.lane l).ctl.state = .held then .done s.popRequest .empty else .refused .state)) := by
    rw [exec_hold, execHold, State.handle_kind ht (Option.some.inj hkind).symm, handleHold, forLaneLength_accepted _ hl hn,
      State.popRequest_lane]
  rw [hexec]
  refine ⟨fun hst => ?_, fun hst => ?_⟩
  · rw [hst, if_neg (by decide), if_pos rfl, State.popRequest_conclude_same]
  · have hholdable : (s.lane l).ctl.state.holdable = true := by
      generalize (s.lane l).ctl.state = st at hst ⊢
      revert st
      decide
    rw [if_pos hholdable]
    refine ⟨_, rfl, State.answered_of_keeps ht (State.enterHeld_keeps _ l) _, ?_, ?_⟩
    · rw [State.conclude, (State.placeReply_reports _ _).lane, State.enterHeld_eq, State.emit_lane, State.lane_upd,
        State.popRequest_lane]
      rfl
    · have hnotice := (s.popRequest.upd l fun x => x.holding s.clock).emit_noticed l .held 3 none rfl
      rw [State.lane_upd, State.popRequest_lane, Lane.tag_of_orders (Lane.orders_holding _ _)] at hnotice
      refine State.noticed_congr hnotice ?_ ?_ (State.placeReply_pool _ _)
      · rw [State.upd_pool]
        rfl
      · rw [State.upd_link]
        rfl

/-! ### RETRACT (R154) -/

/-- Settles O36: a motion start of RETRACT that goes on, over an UP link. -/
theorem retractBringsTheProbeHome : Obligations.RetractBringsTheProbeHome := by
  rintro s p l ht ⟨⟨hkind, hl⟩, hn⟩ hst hhome hup hfault
  have hsetup : ((s.lane l).ctl.state.setup && !(s.lane l).drive.home.active) = true := by
    rw [hhome]
    obtain hst | hst := hst <;> rw [hst] <;> rfl
  have hstart : s.popRequest.startRetract l =
      s.popRequest.setLane l ((s.lane l).toRetract.run .retract (s.lane l).motion.startDuty) := by
    have hmotion : (s.lane l).toRetract.motionStart .retract = _ := Lane.motionStart_started hfault nofun
    unfold State.startRetract
    rw [State.popRequest_lane]
    dsimp only
    rw [Lane.toRetract] at hmotion
    rw [hmotion]
    rfl
  rw [exec_retract, execRetract, State.handle_kind ht (Option.some.inj hkind).symm, handleRetract, forLaneLength_accepted _ hl hn]
  dsimp only
  rw [State.popRequest_lane, if_pos hsetup, hstart, State.holdIfLost_up (by rw [State.setLane_link]; exact hup),
    State.popRequest_conclude_setLane]
  rfl

/-! ### LANE_RESET (R155) -/

section

variable {s t : State} {l : LaneId}

theorem Lane.updateRearm_none {x : Lane} (h : x.ctl.tube = none) : x.updateRearm = x := by rw [Lane.updateRearm, h]

/-- The rearm flag follows guide-latched for a tube that had entered INSERT (R143). -/
theorem Lane.updateRearm_some {x : Lane} {u : Tube} (h : x.ctl.tube = some u) :
    x.updateRearm = x.updCtl fun c => { c with rearm := if u.enteredInsert then !x.drive.guide.active else c.rearm } := by
  rw [Lane.updateRearm, h]
  dsimp only
  split
  · rfl
  · rfl

theorem State.giveUpBlock_lane (s : State) (l : LaneId) (kind : BlockKind) :
    (s.giveUpBlock l kind).lane l = (s.lane l).setBlock kind none := by
  unfold State.giveUpBlock
  split
  · rw [(State.returnBuffer_reports _).lane, State.lane_upd]
  next h => cases kind <;> simp only [Lane.setBlock, Lane.block] at h ⊢ <;> rw [← h]

theorem State.giveUpBlock_engine (s : State) (l : LaneId) (kind : BlockKind) : (s.giveUpBlock l kind).engine = s.engine := by
  unfold State.giveUpBlock
  split
  · rw [(State.returnBuffer_reports _).engine, State.upd_engine]
  · rfl

theorem State.giveUpBlock_none {kind : BlockKind} (h : (s.lane l).block kind = none) : s.giveUpBlock l kind = s := by
  rw [State.giveUpBlock, h]

/-- The lane reset and its job in the engine discarded, before the buffers return (R155, R81). -/
def State.laneCleared (s : State) (l : LaneId) : State :=
  { s.upd l Lane.resetLane with engine := s.engine.discard l }

theorem State.resetLane_eq (s : State) (l : LaneId) :
    s.resetLane l = (((s.laneCleared l).giveUpBlock l .full).giveUpBlock l .region).emit l .laneReset none := by
  unfold State.resetLane State.laneCleared
  dsimp only
  rw [State.upd_engine]

theorem State.laneCleared_lane (s : State) (l : LaneId) : (s.laneCleared l).lane l = (s.lane l).resetLane :=
  (State.lane_congr rfl rfl l).trans (s.lane_upd l _)

theorem State.resetLane_lane (s : State) (l : LaneId) :
    (s.resetLane l).lane l = ((s.lane l).resetLane.setBlock .full none).setBlock .region none := by
  rw [State.resetLane_eq, State.emit_lane, State.giveUpBlock_lane, State.giveUpBlock_lane, State.laneCleared_lane]

theorem State.resetLane_engine (s : State) (l : LaneId) : (s.resetLane l).engine = s.engine.discard l := by
  rw [State.resetLane_eq, (State.emit_reports _ _ _ _).engine, State.giveUpBlock_engine, State.giveUpBlock_engine]
  rfl

/-- Where no assembler holds a buffer, the notice is the first that the pool sees (R171). -/
theorem State.resetLane_noticed (hfull : (s.lane l).lineBlock = none) (hregion : (s.lane l).regionBlock = none) :
    s.noticed (s.resetLane l) l .laneReset 6 none none := by
  have hblock : ∀ kind, ((s.laneCleared l).lane l).block kind = none := fun kind => by
    have hsame : (s.lane l).resetLane.lineBlock = (s.lane l).lineBlock ∧ (s.lane l).resetLane.regionBlock = (s.lane l).regionBlock := by
      unfold Lane.resetLane Lane.updateRearm
      split
      · split <;> exact ⟨rfl, rfl⟩
      · exact ⟨rfl, rfl⟩
    rw [State.laneCleared_lane]
    cases kind
    · exact hsame.1.trans hfull
    · exact hsame.2.trans hregion
  have hnotice := (s.laneCleared l).emit_noticed l .laneReset 6 none rfl
  rw [State.laneCleared_lane] at hnotice
  rw [State.resetLane_eq, State.giveUpBlock_none (hblock .full), State.giveUpBlock_none (hblock .region)]
  exact hnotice.of_same (s.upd_pool l _) (s.upd_link l _)

/-- A request of a lane reaches nothing beyond that lane but the link, record memory and the engine. -/
theorem State.KeepsTo.sameBeyond (hk : State.KeepsTo l s.popRequest t) (r : Reply) : s.sameBeyond l (t.placeReply r) := by
  have hr := t.placeReply_reports r
  exact ⟨((hr.lane _).trans hk.other).trans (s.popRequest_lane _), hr.layouts.trans hk.layouts, hr.clock.trans hk.clock,
    hr.pending.trans hk.pending⟩

end

/-- The lane after LANE_RESET and the return of its buffers, but for the rearm flag (R155). -/
def Lane.clearedWith (x : Lane) (rearm : Bool) : Lane :=
  { x with
    drive := x.drive.stop, pos := { x.pos with armedA := false, armedB := false, wholePull := false },
    capture := { armed := false, window := [] }, screens := List.replicate 20 Screen.reset, roi := none, detector := Detector.reset,
    jobs := [], ring := [], lineBlock := none, regionBlock := none,
    ctl :=
      { state := .idle, heldPhase := none, returnTo := none, worklist := [], rearm := rearm, poll := .off,
        attempts := x.ctl.attempts, dwell := .off, tube := none } }

theorem Lane.resetLane_blocks (x : Lane) :
    (x.resetLane.setBlock .full none).setBlock .region none = x.updateRearm.clearedWith x.updateRearm.ctl.rearm := by
  unfold Lane.resetLane
  generalize x.updateRearm = y
  rfl

theorem Lane.clearedWith_updCtl_rearm (x : Lane) (old new : Bool) :
    (x.updCtl fun c => { c with rearm := old }).clearedWith new = x.clearedWith new := rfl

/-- Settles O37: the lane by `State.resetLane_lane`, the engine by `State.resetLane_engine`, the notice by `State.resetLane_noticed`. -/
theorem laneResetClearsTheLane : Obligations.LaneResetClearsTheLane := by
  rintro s p l ht ⟨⟨hkind, hl⟩, hn⟩
  have hexec : exec .laneReset s = .next ((s.popRequest.resetLane l).placeReply (replyTo p .ok .empty)) := by
    rw [exec_laneReset, execLaneReset, State.handle_kind ht (Option.some.inj hkind).symm, handleLaneReset,
      forLaneLength_accepted _ hl hn, State.conclude]
  have hkeeps := s.popRequest.resetLane_keeps l
  have hreports := (s.popRequest.resetLane l).placeReply_reports (replyTo p .ok .empty)
  have hengine : ((s.popRequest.resetLane l).placeReply (replyTo p .ok .empty)).engine = s.engine.discard l :=
    hreports.engine.trans (State.resetLane_engine _ l)
  refine ⟨_, hexec, State.answered_of_keeps ht hkeeps _, hkeeps.sameBeyond _, ?_, ?_, fun hfull hregion => ?_, ?_⟩
  · rw [hengine]
    rfl
  · rw [hengine]
    rfl
  · rw [← s.popRequest_lane] at hfull hregion
    exact State.noticed_congr (State.resetLane_noticed hfull hregion) rfl rfl (State.placeReply_pool _ _)
  · rw [hreports.lane, State.resetLane_lane, State.popRequest_lane, Lane.resetLane_blocks]
    cases htube : (s.lane l).ctl.tube with
    | none =>
      rw [Lane.updateRearm_none htube]
      rfl
    | some u =>
      rw [Lane.updateRearm_some htube, Lane.updCtl_ctl]
      exact Lane.clearedWith_updCtl_rearm _ _ _

/-! ### RESUME (R152) -/

section

variable {s : State} {l : LaneId}

/-- A lane that leaves HELD has the tube and the orders that it had. -/
theorem Lane.unhold_tag (x : Lane) (st : LaneState) (now : Nat) : (x.unhold st now).tag = x.tag := rfl

/-- A motion start of a resumed phase that goes on, its armed stops still ahead (R25, R152). -/
theorem State.resumeMotion_started {p : MotionPhase} (hfault : (s.lane l).drive.fault.active = false)
    (hfree : p = .withdraw → (s.lane l).drive.home.active = false ∧ (s.lane l).atHomeLimit = false)
    (hahead : ∀ u r, (s.lane l).ctl.tube = some u → (s.lane l).pos.raw = some r →
      ((s.lane l).pos.armedA = true → r < u.stopA) ∧ ((s.lane l).pos.armedB = true → u.stopB < r)) :
    s.resumeMotion l p = s.setLane l ((s.lane l).run p (s.lane l).motion.startDuty) := by
  unfold State.resumeMotion
  rw [Lane.motionStart_started hfault hfree]
  dsimp only
  rw [State.testStops, State.testStopA_ahead, State.testStopB_ahead] <;> rw [State.lane_setLane]
  · exact fun r u hb hr hu _ => (hahead u r hu hr).2 hb
  · exact fun r u ha hr hu _ => (hahead u r hu hr).1 ha

/-- RESUME of a lane whose held phase is given (R152). -/
theorem State.resumeLane_dwelling {st : LaneState} (hp : (s.lane l).ctl.heldPhase = some st) (hst : st = .guideCheck ∨ st = .turn) :
    s.resumeLane l = (s.upd l fun x => x.unhold st s.clock).emit l .resumed none := by
  unfold State.resumeLane
  rw [hp]
  obtain rfl | rfl := hst <;> rfl

theorem State.resumeLane_moving {st : LaneState} (hp : (s.lane l).ctl.heldPhase = some st)
    (hst : st ∈ [.insert, .pull, .withdraw, .retract]) (hhome : (s.lane l).drive.home.active = false) :
    s.resumeLane l = ((s.upd l fun x => x.unhold st s.clock).emit l .resumed none).resumeMotion l st.motion := by
  have hoff : ¬ (((s.upd l fun x => x.unhold st s.clock).emit l .resumed none).lane l).drive.home.active = true := by
    rw [State.emit_lane, State.lane_upd]
    exact Bool.eq_false_iff.1 hhome
  unfold State.resumeLane
  rw [hp]
  simp only [List.mem_cons, List.not_mem_nil, or_false] at hst
  obtain rfl | rfl | rfl | rfl := hst
  · rfl
  · rfl
  · rfl
  · exact if_neg hoff

end

/-- Settles O35: the lane leaves HELD by `State.resumeLane_dwelling` or `State.resumeLane_moving`, whose motion start goes on. -/
theorem resumeReturnsToTheHeldPhase : Obligations.ResumeReturnsToTheHeldPhase := by
  rintro s p l st ht ⟨⟨hkind, hl⟩, hn⟩ hheld hp hup
  have hexec : exec .resume s = .next ((s.popRequest.resumeLane l).placeReply (replyTo p .ok .empty)) := by
    have hlink : (s.popRequest.resumeLane l).link.up = true := by
      rw [(State.resumeLane_keeps _ l).link]
      exact hup
    rw [exec_resume, execResume, State.handle_kind ht (Option.some.inj hkind).symm, handleResume, forLaneLength_accepted _ hl hn,
      State.popRequest_lane, if_pos hheld, State.holdIfLost_up hlink, State.conclude]
  have hpop : (s.popRequest.lane l).ctl.heldPhase = some st := by rwa [State.popRequest_lane]
  have hnotice := (s.popRequest.upd l fun x => x.unhold st s.clock).emit_noticed l .resumed 4 none rfl
  have hlane : ((s.popRequest.upd l fun x => x.unhold st s.clock).emit l .resumed none).lane l = (s.lane l).unhold st s.clock := by
    rw [State.emit_lane, State.lane_upd, State.popRequest_lane]
  rw [State.lane_upd, State.popRequest_lane, Lane.unhold_tag] at hnotice
  have hpool : s.pool = (s.popRequest.upd l fun x => x.unhold st s.clock).pool := (s.popRequest.upd_pool l _).symm
  have hmask : s.link.mask = (s.popRequest.upd l fun x => x.unhold st s.clock).link.mask := by
    rw [State.upd_link]
    rfl
  refine ⟨fun hst => ⟨_, hexec, State.answered_of_keeps ht (State.resumeLane_keeps _ l) _, ?_, ?_⟩,
    fun hst hfault hhome hlimit hahead => ⟨_, hexec, State.answered_of_keeps ht (State.resumeLane_keeps _ l) _, ?_⟩⟩
  · rw [(State.placeReply_reports _ _).lane, State.resumeLane_dwelling hpop hst]
    exact hlane
  · refine State.noticed_congr hnotice hpool hmask ?_
    rw [State.placeReply_pool, State.resumeLane_dwelling hpop hst]
    rfl
  · have hmoving := State.resumeLane_moving hpop hst (by rwa [State.popRequest_lane])
    rw [State.popRequest_clock] at hmoving
    rw [State.resumeMotion_started] at hmoving
    all_goals rw [hlane] at *
    · rw [(State.placeReply_reports _ _).lane, hmoving, State.lane_setLane]
      have hdrives : st.motion.dir (s.lane l).drive.dir = if st = .insert then .forward else .reverse := by
        simp only [List.mem_cons, List.not_mem_nil, or_false] at hst
        obtain rfl | rfl | rfl | rfl := hst <;> rfl
      refine ⟨rfl, rfl, ⟨rfl, rfl, rfl, hdrives, rfl, rfl⟩, rfl, rfl, rfl, rfl, ?_⟩
      refine State.noticed_congr hnotice hpool hmask ?_
      rw [State.placeReply_pool, State.setLane_pool]
    · exact hfault
    · exact fun _ => ⟨hhome, hlimit⟩
    · exact hahead

end Sys2Proof.Machine

/-! The lane controller's own events (chapter 8): taking an order, the guide check, and the end of the turn dwell. -/

namespace Sys2Proof.Machine

/-! ### The commands -/

theorem exec_guidePoll (s : State) (l : LaneId) : exec (.guidePoll l) s = execGuidePoll l s := by rfl

theorem exec_turnDwellEnd (s : State) (l : LaneId) : exec (.turnDwellEnd l) s = execTurnDwellEnd l s := by rfl

theorem exec_takeOrder (s : State) (l : LaneId) : exec (.takeOrder l) s = execTakeOrder l s := by rfl

section

variable {s : State} {l : LaneId}

/-! ### The tube in FINISH (R148) -/

/-- Entering FINISH changes of the tube's record the places in its catalogue and the end of the wait alone (R113, R148). -/
theorem State.enterFinish_tube (s : State) (l : LaneId) : ∃ f : Tube → Tube,
    s.enterFinish l = (s.upd l fun x => x.toFinish.updTube f) ∧
      ∀ u, ∃ places located, f u = { u with catalogue := places, located := located } ∧ (u.catalogue = [] → places = []) := by
  have hwait := (s.upd l Lane.toFinish).finishWait_eq l
  rw [State.upd_upd] at hwait
  refine ⟨_, hwait, fun u => ?_⟩
  split
  · refine ⟨_, true, rfl, fun h => ?_⟩
    rw [h]
    rfl
  · exact ⟨_, _, rfl, id⟩

/-! ### The guide test (R143) -/

/-- The lane with one more attempt counted. -/
def Lane.attempted (x : Lane) : Lane := x.updCtl fun c => { c with attempts := c.attempts + 1 }

theorem Lane.guideOk_iff (x : Lane) :
    x.guideOk = true ↔ x.drive.home.active = true ∧ x.drive.guide.active = true ∧ x.ctl.rearm = true := by
  rw [Lane.guideOk, Bool.and_eq_true, Bool.and_eq_true, and_assoc]

/-- The count is 0 as the guide check passes, so that a stop A above 0 lies ahead (R23, R25). -/
theorem Lane.passGuide_raw {x : Lane} {r : Int} (hr : x.passGuide.pos.raw = some r) : r = 0 := by
  obtain ⟨k, _, hk⟩ := Option.map_eq_some_iff.1 hr
  rw [← hk]
  exact Int.zero_mul _

/-- A pass starts INSERT where no motor-fault refuses the start and stop A lies ahead. -/
theorem State.guideTest_passes (hok : (s.lane l).guideOk = true) (hfault : (s.lane l).drive.fault.active = false)
    (hahead : ∀ u, (s.lane l).ctl.tube = some u → 0 < u.stopA) :
    s.guideTest l = s.setLane l ((s.lane l).attempted.passGuide.run .insert (s.lane l).motion.startDuty) := by
  have hok' : (s.lane l).attempted.guideOk = true := hok
  have hstart : (s.lane l).attempted.passGuide.motionStart .insert =
      ((s.lane l).attempted.passGuide.run .insert (s.lane l).motion.startDuty, .started) :=
    Lane.motionStart_started hfault nofun
  unfold State.guideTest
  dsimp only
  rw [← Lane.attempted, if_pos hok', hstart]
  refine State.testStopA_ahead fun r v _ hr hv _ => ?_
  rw [State.lane_setLane] at hr hv
  obtain ⟨u, hu, rfl⟩ := Option.map_eq_some_iff.1 hv
  rw [Lane.passGuide_raw hr]
  exact hahead u hu

/-- A failure below the limit waits for the next poll. -/
theorem State.guideTest_waits (hno : (s.lane l).guideOk = false) (hlimit : (s.lane l).ctl.attempts + 1 < (s.lane l).motion.attemptLimit) :
    s.guideTest l = s.setLane l (s.lane l).attempted := by
  have hno' : (s.lane l).attempted.guideOk = false := hno
  unfold State.guideTest
  dsimp only
  rw [← Lane.attempted, hno']
  exact if_neg (Nat.not_le.2 hlimit)

/-- A failure at the limit is NO_GUIDE and FINISH. -/
theorem State.guideTest_fails (hno : (s.lane l).guideOk = false) (hlimit : (s.lane l).motion.attemptLimit ≤ (s.lane l).ctl.attempts + 1) :
    s.guideTest l = (s.setLane l ((s.lane l).attempted.updTube fun t => t.decideOutcome .noGuide)).enterFinish l := by
  have hno' : (s.lane l).attempted.guideOk = false := hno
  unfold State.guideTest
  dsimp only
  rw [← Lane.attempted, hno']
  exact if_pos hlimit

/-- Settles O51: the poll interval begins anew, then `State.guideTest` by its result. -/
theorem guidePollsTestTheGuide : Obligations.GuidePollsTestTheGuide := by
  intro s l due u hst hpoll hu
  have hexec : exec (.guidePoll l) s = .next (((s.reach due).upd l fun x => x.nextPoll due).guideTest l) := by
    rw [exec_guidePoll, execGuidePoll, hst, hpoll]
  have hlane : ((s.reach due).upd l fun x => x.nextPoll due).lane l = (s.lane l).nextPoll due := by
    rw [State.lane_upd, State.reach_lane]
  have hother : ((s.reach due).upd l fun x => x.nextPoll due).lane (otherLane l) = s.lane (otherLane l) := by
    rw [State.lane_upd_other, State.reach_lane]
  have hclock : ((s.reach due).upd l fun x => x.nextPoll due).clock = max s.clock due := by rw [State.upd_clock, State.reach_clock]
  generalize (s.reach due).upd l (fun x => x.nextPoll due) = q at hexec hlane hother hclock
  have hkeeps := q.guideTest_keeps l
  refine ⟨_, hexec, hkeeps.clock.trans hclock, hkeeps.other.trans hother, ?_⟩
  split
  next hok =>
    intro hfault hahead
    rw [State.guideTest_passes, State.lane_setLane, hlane]
    · exact ⟨rfl, rfl, rfl, rfl, ⟨rfl, rfl, rfl, rfl, rfl, rfl⟩, rfl, congrArg (Option.map _) hu⟩
    all_goals rw [hlane]
    · exact ((s.lane l).nextPoll due).guideOk_iff.2 hok
    · exact hfault
    · exact fun v hv => Option.some.inj (hu.symm.trans hv) ▸ hahead
  next hno =>
    have hno' : (q.lane l).guideOk = false := by
      rw [hlane]
      exact Bool.eq_false_iff.2 fun hok => hno (((s.lane l).nextPoll due).guideOk_iff.1 hok)
    split
    next hlimit =>
      rw [State.guideTest_waits hno' (by rw [hlane]; exact hlimit), State.lane_setLane, hlane]
      rfl
    next hlimit =>
      rw [State.guideTest_fails hno' (by rw [hlane]; exact Nat.not_lt.1 hlimit)]
      have hfin := (q.setLane l ((q.lane l).attempted.updTube fun t => t.decideOutcome .noGuide)).enterFinish_finishes l
      obtain ⟨v, hv, _, houtcome, _⟩ := hfin.tube (u.decideOutcome .noGuide) (by
        rw [State.lane_setLane, hlane]
        exact congrArg (Option.map _) hu)
      refine ⟨hfin.state, ?_, v, hv, houtcome⟩
      rw [hfin.drive]
      exact Drive.stop_stopped _

/-! ### The end of the turn dwell (R145) -/

/-- PULL is entered with its notice where no motor-fault refuses the start and stop B lies ahead (R145, R25). -/
theorem State.enterPull_started (hfault : (s.lane l).drive.fault.active = false)
    (hahead : ∀ r u, (s.lane l).pos.raw = some r → (s.lane l).ctl.tube = some u → u.stopB < r) :
    s.enterPull l = (s.setLane l ((s.lane l).toPull.run .pull (s.lane l).motion.startDuty)).emit l .pullStarted none := by
  have hstart : (s.lane l).toPull.motionStart .pull = ((s.lane l).toPull.run .pull (s.lane l).motion.startDuty, .started) :=
    Lane.motionStart_started hfault nofun
  unfold State.enterPull
  dsimp only
  rw [Lane.toPull] at hstart
  rw [hstart]
  refine State.testStopB_ahead fun r u _ hr hu _ => ?_
  rw [State.emit_lane, State.lane_setLane] at hr hu
  exact hahead r u hr hu

/-- Settles O52: `State.enterPull_started` at the end of the dwell. -/
theorem theDwellEndsInAPull : Obligations.TheDwellEndsInAPull := by
  intro s l due u r hst hdwell hu hr hstop hfault
  have hexec : exec (.turnDwellEnd l) s = .next ((s.reach due).enterPull l) := by
    rw [exec_turnDwellEnd, execTurnDwellEnd, hst, hdwell]
  have hstart : (s.reach due).enterPull l = _ := State.enterPull_started (by rwa [State.reach_lane]) fun r' v hr' hv => by
    rw [State.reach_lane] at hr' hv
    cases hr.symm.trans hr'
    cases hu.symm.trans hv
    exact hstop
  rw [State.reach_lane] at hstart
  have hkeeps := (s.reach due).enterPull_keeps l
  have hnotice := ((s.reach due).setLane l ((s.lane l).toPull.run .pull (s.lane l).motion.startDuty)).emit_noticed l .pullStarted 1
    none rfl
  have htag : ((s.lane l).toPull.run .pull (s.lane l).motion.startDuty).tag = some u.order.tag := by
    show ((s.lane l).ctl.tube.map fun t => t.order.tag) = _
    rw [hu]
    rfl
  rw [State.lane_setLane, htag] at hnotice
  refine ⟨_, hexec, hkeeps.clock, hkeeps.other.trans (s.reach_lane due _), ?_⟩
  rw [hstart, State.emit_lane, State.lane_setLane]
  exact ⟨rfl, rfl, rfl, ⟨rfl, rfl, rfl, rfl, rfl, rfl⟩, hu, hnotice.of_same (State.setLane_pool _ l _) (State.setLane_link _ l _)⟩

/-! ### Taking an order (R142) -/

theorem State.canTake_iff (s : State) (l : LaneId) :
    s.canTake l = true ↔ (s.lane l).ctl.state = .idle ∧ (s.lane l).ctl.worklist ≠ [] ∧ s.link.up = true ∧
      (s.lane l).drive.fault.active = false ∧ s.hasJob l Job.isSolve = false := by
  simp only [State.canTake, Bool.and_eq_true, beq_iff_eq, Bool.not_eq_true', List.isEmpty_eq_false_iff, and_assoc]

/-- The lane with its tube's record opened, before its notice (R141, R142). -/
def Lane.opening (x : Lane) (o : Order) (rest : List Order) (ab : Int × Int) : Lane :=
  x.clearDetector.updCtl fun c => { c with worklist := rest, tube := some (Tube.open o ab) }

/-- The state with the tube's record opened and TUBE_STARTED emitted (R142). -/
def State.opened (s : State) (l : LaneId) (o : Order) (rest : List Order) : State :=
  (s.upd l fun x => x.opening o rest (s.stops l o)).emit l .tubeStarted none

/-- The lane as it enters GUIDE_CHECK, before the first guide test (R142, R143). -/
def Lane.toGuideCheck (x : Lane) (now : Nat) : Lane :=
  (x.enter .guideCheck).updCtl fun c =>
    { c with attempts := 0, poll := .running (now + x.motion.pollInterval * Config.nsPerMs) }

theorem State.openTube_eq (s : State) (l : LaneId) (o : Order) (rest : List Order) :
    s.openTube l o rest =
      if stopsOk (s.lane l).pitch (s.stops l o) then ((s.opened l o rest).upd l fun x => x.toGuideCheck s.clock).guideTest l
      else ((s.opened l o rest).upd l fun x => x.updTube fun t => t.decideOutcome .invalid).enterFinish l := rfl

theorem State.opened_lane (s : State) (l : LaneId) (o : Order) (rest : List Order) :
    (s.opened l o rest).lane l = (s.lane l).opening o rest (s.stops l o) := by rw [State.opened, State.emit_lane, State.lane_upd]

/-- TUBE_STARTED carries the tag of the order taken (R142, R170). -/
theorem State.opened_noticed (s : State) (l : LaneId) (o : Order) (rest : List Order) :
    s.noticed (s.opened l o rest) l .tubeStarted 0 (some o.tag) none := by
  have hnotice := (s.upd l fun x => x.opening o rest (s.stops l o)).emit_noticed l .tubeStarted 0 none rfl
  rw [State.lane_upd] at hnotice
  exact hnotice.of_same (s.upd_pool l _) (s.upd_link l _)

/-- Inconsistent stops end the tube in FINISH with the outcome INVALID (R142). -/
theorem State.openTube_invalid {o : Order} {rest : List Order} (hno : stopsOk (s.lane l).pitch (s.stops l o) = false) :
    (s.openTube l o rest).pool = (s.opened l o rest).pool ∧ ((s.openTube l o rest).lane l).ctl.state = .finish ∧
      ∃ located, ((s.openTube l o rest).lane l).ctl.tube =
        some { Tube.open o (s.stops l o) with outcome := some .invalid, located := located } := by
  obtain ⟨f, hfinish, hf⟩ := State.enterFinish_tube ((s.opened l o rest).upd l fun x => x.updTube fun t => t.decideOutcome .invalid) l
  obtain ⟨places, located, hfu, hplaces⟩ := hf { Tube.open o (s.stops l o) with outcome := some .invalid }
  rw [State.openTube_eq, hno, if_neg Bool.false_ne_true, hfinish, State.upd_upd, State.lane_upd, State.upd_pool, State.opened_lane]
  refine ⟨rfl, rfl, located, ?_⟩
  rw [hplaces rfl] at hfu
  exact congrArg some hfu

/-- The lane between the taking of an order with consistent stops and its first guide test (R142, R143). -/
def State.checking (s : State) (l : LaneId) (o : Order) (rest : List Order) : State :=
  (s.opened l o rest).upd l fun x => x.toGuideCheck s.clock

theorem State.checking_lane (s : State) (l : LaneId) (o : Order) (rest : List Order) :
    (s.checking l o rest).lane l = ((s.lane l).opening o rest (s.stops l o)).toGuideCheck s.clock := by
  rw [State.checking, State.lane_upd, State.opened_lane]

theorem State.checking_pool (s : State) (l : LaneId) (o : Order) (rest : List Order) :
    (s.checking l o rest).pool = (s.opened l o rest).pool := State.upd_pool _ l _

/-- Consistent stops bring the first guide test. -/
theorem State.openTube_checking {o : Order} {rest : List Order} (hok : stopsOk (s.lane l).pitch (s.stops l o) = true) :
    s.openTube l o rest = (s.checking l o rest).guideTest l := by
  rw [State.openTube_eq, if_pos hok]
  rfl

/-- A first guide test at the limit is NO_GUIDE and FINISH (R143). -/
theorem State.openTube_noGuide {o : Order} {rest : List Order} (hok : stopsOk (s.lane l).pitch (s.stops l o) = true)
    (hno : (s.lane l).guideOk = false) (hlimit : (s.lane l).motion.attemptLimit ≤ 1) :
    (s.openTube l o rest).pool = (s.opened l o rest).pool ∧ ((s.openTube l o rest).lane l).ctl.state = .finish ∧
      ((s.openTube l o rest).lane l).ctl.attempts = 1 ∧ ((s.openTube l o rest).lane l).drive.stopped ∧
      ∃ located, ((s.openTube l o rest).lane l).ctl.tube =
        some { Tube.open o (s.stops l o) with outcome := some .noGuide, located := located } := by
  have hlane := s.checking_lane l o rest
  have hfails : (s.checking l o rest).guideTest l = _ := State.guideTest_fails (by rw [hlane]; exact hno) (by rw [hlane]; exact hlimit)
  rw [hlane] at hfails
  obtain ⟨f, hfinish, hf⟩ := State.enterFinish_tube ((s.checking l o rest).setLane l
    ((((s.lane l).opening o rest (s.stops l o)).toGuideCheck s.clock).attempted.updTube fun t => t.decideOutcome .noGuide)) l
  obtain ⟨places, located, hfu, hplaces⟩ := hf { Tube.open o (s.stops l o) with outcome := some .noGuide }
  rw [State.openTube_checking hok, hfails, hfinish, State.lane_upd, State.lane_setLane, State.upd_pool, State.setLane_pool,
    State.checking_pool]
  refine ⟨rfl, rfl, rfl, Drive.stop_stopped _, located, ?_⟩
  rw [hplaces rfl] at hfu
  exact congrArg some hfu

/-- Settles O53: the front order is opened, and the guide test, or the end of the tube, by the checks in their order. -/
theorem ordersAreTakenFromTheFront : Obligations.OrdersAreTakenFromTheFront := by
  intro s l o rest a b hw hab
  refine ⟨fun hno => ?_, fun hidle hup hfault hsolve hahead => ?_⟩
  · have hstays : s.canTake l = false := Bool.eq_false_iff.2 fun htake => by
      obtain ⟨hidle, _, hup, hfault, hsolve⟩ := (s.canTake_iff l).1 htake
      obtain h | h | h | h := hno
      · exact h hidle
      · cases hup.symm.trans h
      · cases hfault.symm.trans h
      · cases hsolve.symm.trans h
    rw [exec_takeOrder, execTakeOrder, State.takeFrontOrder, hstays]
  · have htake : s.canTake l = true := (s.canTake_iff l).2 ⟨hidle, by rw [hw]; exact List.cons_ne_nil _ _, hup, hfault, hsolve⟩
    have hexec : exec (.takeOrder l) s = .next (s.openTube l o rest) := by
      rw [exec_takeOrder, execTakeOrder, State.takeFrontOrder, htake, hw]
    have hother := (s.openTube_keeps l o rest).other
    have hworklist : ((s.openTube l o rest).lane l).ctl.worklist = rest := congrArg Prod.snd (s.openTube_orders l o rest)
    have hnotice : ∀ {t : State}, t.pool = (s.opened l o rest).pool → s.noticed t l .tubeStarted 0 (some o.tag) none :=
      fun ht => State.noticed_congr (s.opened_noticed l o rest) rfl rfl ht
    have hlane := s.checking_lane l o rest
    rw [hab] at hlane
    by_cases hstops : b + ((s.lane l).pitch : Int) < a
    · have hok : stopsOk (s.lane l).pitch (s.stops l o) = true := by
        rw [hab]
        exact decide_eq_true hstops
      have hopen := State.openTube_checking (rest := rest) hok
      simp only [if_pos hstops]
      by_cases hguide : (s.lane l).drive.home.active = true ∧ (s.lane l).drive.guide.active = true ∧ (s.lane l).ctl.rearm = true
      · have hpass : (s.checking l o rest).guideTest l = _ := State.guideTest_passes
          (by rw [hlane]; exact (s.lane l).guideOk_iff.2 hguide) (by rw [hlane]; exact hfault) (fun u hu => by
            rw [hlane] at hu
            cases hu
            exact hahead hguide.1 hguide.2.1 hguide.2.2 hstops)
        rw [hlane] at hpass
        have hpool : (s.openTube l o rest).pool = (s.opened l o rest).pool := by
          rw [hopen, hpass, State.setLane_pool, State.checking_pool]
        refine ⟨_, { Tube.open o (a, b) with enteredInsert := true }, hexec, hother, hworklist, ?_, rfl, rfl, rfl, rfl, rfl, rfl,
          rfl, hnotice hpool, ?_⟩
        · rw [hopen, hpass, State.lane_setLane]
          rfl
        · rw [if_pos hguide, hopen, hpass, State.lane_setLane]
          exact ⟨rfl, rfl, rfl, rfl, rfl, rfl, rfl, rfl, rfl, rfl, rfl, rfl, rfl⟩
      · have hno : (s.lane l).guideOk = false := Bool.eq_false_iff.2 fun h => hguide ((s.lane l).guideOk_iff.1 h)
        simp only [if_neg hguide]
        by_cases hlimit : 1 < (s.lane l).motion.attemptLimit
        · have hwait : (s.checking l o rest).guideTest l = _ :=
            State.guideTest_waits (by rw [hlane]; exact hno) (by rw [hlane]; exact hlimit)
          rw [hlane] at hwait
          have hpool : (s.openTube l o rest).pool = (s.opened l o rest).pool := by
            rw [hopen, hwait, State.setLane_pool, State.checking_pool]
          refine ⟨_, Tube.open o (a, b), hexec, hother, hworklist, ?_, rfl, rfl, rfl, rfl, rfl, rfl, rfl, hnotice hpool, ?_⟩
          · rw [hopen, hwait, State.lane_setLane]
            rfl
          · rw [if_pos hlimit, hopen, hwait, State.lane_setLane]
            exact ⟨rfl, rfl, rfl, rfl, rfl⟩
        · obtain ⟨hpool, hfinish, hattempts, hstopped, located, htube⟩ :=
            State.openTube_noGuide (rest := rest) hok hno (Nat.not_lt.1 hlimit)
          rw [hab] at htube
          refine ⟨_, _, hexec, hother, hworklist, htube, rfl, rfl, rfl, rfl, rfl, rfl, rfl, hnotice hpool, hattempts, ?_⟩
          rw [if_neg hlimit]
          exact ⟨hfinish, hstopped, rfl, rfl⟩
    · have hno : stopsOk (s.lane l).pitch (s.stops l o) = false := by
        rw [hab]
        exact decide_eq_false hstops
      obtain ⟨hpool, hfinish, located, htube⟩ := State.openTube_invalid (rest := rest) hno
      rw [hab] at htube
      refine ⟨_, _, hexec, hother, hworklist, htube, rfl, rfl, rfl, rfl, rfl, rfl, rfl, hnotice hpool, ?_⟩
      rw [if_neg hstops]
      exact ⟨hfinish, rfl, rfl⟩

end

end Sys2Proof.Machine

/-! ABORT (R153): the tube of a lane decided ABORTED and the withdrawal that follows. -/

namespace Sys2Proof.Machine

section

variable {s t : State} {l : LaneId} {p : List Byte}

/-- The request taken from the queue, as the statement writes it. -/
theorem State.popRequest_tail (s : State) : s.popRequest = { s with link := { s.link with requests := s.link.requests.tail } } := by
  rw [State.popRequest, List.drop_one]

/-- An ABORT in a state or held phase that takes it, with nothing left to hold (R153). -/
theorem exec_abort_taken (ht : s.takes p) (hp : plainRequest .abort p l) (ha : s.popRequest.abortLane l = some t)
    (hh : t.holdIfLost l = t) : exec .abort s = .next (t.placeReply (replyTo p .ok .empty)) := by
  obtain ⟨⟨hkind, hl⟩, hn⟩ := hp
  rw [exec_abort, execAbort, State.handle_kind ht (Option.some.inj hkind).symm, handleAbort, forLaneLength_accepted _ hl hn, ha]
  dsimp only
  rw [hh, State.conclude]

/-! ### What ABORT makes of each phase (R153) -/

/-- WITHDRAW and FINISH are what ABORT asks for already. -/
theorem State.abortLane_ending (h : (s.lane l).phaseOrHeld = .withdraw ∨ (s.lane l).phaseOrHeld = .finish) : s.abortLane l = some s := by
  unfold State.abortLane
  obtain h | h := h <;> rw [h]

theorem State.abortLane_guideCheck (h : (s.lane l).phaseOrHeld = .guideCheck) :
    s.abortLane l = some ((s.upd l fun x => x.updTube fun u => u.decideOutcome .aborted).enterFinish l) := by
  unfold State.abortLane
  rw [h]

/-- An ABORTED tube's withdrawal with a motion start that goes on (R122, R144). -/
theorem State.startWithdraw_aborted (hfault : (s.lane l).drive.fault.active = false) (hhome : (s.lane l).drive.home.active = false)
    (hlimit : (s.lane l).atHomeLimit = false) :
    (s.upd l fun x => x.updTube fun u => u.decideOutcome .aborted).startWithdraw l =
      s.setLane l ((s.lane l).withdrawing (s.lane l).motion.startDuty .aborted) := by
  rw [State.startWithdraw_started, State.lane_upd, State.upd_eq_setLane, State.setLane_setLane]
  · rfl
  all_goals rw [State.lane_upd]
  exacts [hfault, hhome, hlimit]

theorem State.abortLane_insert (h : (s.lane l).phaseOrHeld = .insert) (hfault : (s.lane l).drive.fault.active = false)
    (hhome : (s.lane l).drive.home.active = false) (hlimit : (s.lane l).atHomeLimit = false) :
    s.abortLane l = some (s.setLane l ((s.lane l).withdrawing (s.lane l).motion.startDuty .aborted)) := by
  rw [← State.startWithdraw_aborted hfault hhome hlimit]
  unfold State.abortLane
  rw [h]

/-- In TURN what is expected is MISSED first (R97). -/
theorem State.abortLane_turn (h : (s.lane l).phaseOrHeld = .turn) (hfault : (s.lane l).drive.fault.active = false)
    (hhome : (s.lane l).drive.home.active = false) (hlimit : (s.lane l).atHomeLimit = false) :
    s.abortLane l = some (s.setLane l ((s.lane l).missRest.withdrawing (s.lane l).motion.startDuty .aborted)) := by
  have hmissed : (s.upd l Lane.missRest).lane l = (s.lane l).missRest := s.lane_upd l _
  have hstart := State.startWithdraw_aborted (s := s.upd l Lane.missRest) (l := l) (by rwa [hmissed]) (by rwa [hmissed])
    (by rwa [hmissed])
  rw [State.upd_upd, hmissed, State.upd_eq_setLane s l Lane.missRest, State.setLane_setLane] at hstart
  calc
    _ = some ((s.upd l fun x => x.missRest.updTube fun u => u.decideOutcome .aborted).startWithdraw l) := by
      unfold State.abortLane
      rw [h]
      rfl
    _ = _ := congrArg some hstart

/-- A pull that ends with the motor at rest passes the lane to WITHDRAW with a motion start (R125, R146). -/
theorem State.endPull_restart (o : TubeOutcome) (hoff : (s.lane l).drive.enabled = false)
    (hfault : (s.lane l).drive.fault.active = false) (hhome : (s.lane l).drive.home.active = false)
    (hlimit : (s.lane l).atHomeLimit = false) :
    (s.endPull l o).retargetWithdraw l =
      ((s.pullEnding l).emit l .pullEnded none).setLane l
        (((s.pullEnding l).lane l).withdrawing (s.lane l).motion.startDuty o) := by
  have hcontrols := s.pullEnding_controls l
  obtain ⟨-, hdrive, hmotion⟩ := Lane.controls_fields hcontrols
  have hlane : (s.endPull l o).lane l = (((s.pullEnding l).lane l).disarmStops).updTube fun u => u.decideOutcome o := by
    rw [State.endPull_eq, State.lane_upd, State.emit_lane]
  have hrest : (s.endPull l o).retargetWithdraw l = (s.endPull l o).startWithdraw l := by
    have hoff' : ¬ ((s.endPull l o).lane l).toWithdraw.drive.enabled = true := by
      rw [hlane]
      exact Bool.eq_false_iff.1 ((congrArg Drive.enabled hdrive).trans hoff)
    rw [State.retargetWithdraw, Lane.retarget, if_neg hoff', State.startWithdraw]
  rw [hrest, State.startWithdraw_started, hlane, ← hmotion, State.endPull_eq, State.upd_eq_setLane, State.setLane_setLane]
  · rfl
  all_goals rw [hlane]
  · exact (congrArg (fun d => d.fault.active) hdrive).trans hfault
  · exact (congrArg (fun d => d.home.active) hdrive).trans hhome
  · exact (Lane.controls_atHomeLimit hcontrols).trans hlimit

/-- A running pull keeps its duty, a held one starts anew (R125). -/
theorem State.abortLane_pull (h : (s.lane l).phaseOrHeld = .pull) (hfault : (s.lane l).drive.fault.active = false)
    (hhome : (s.lane l).drive.home.active = false) (hlimit : (s.lane l).atHomeLimit = false) :
    s.abortLane l =
      some (((s.pullEnding l).emit l .pullEnded none).setLane l (((s.pullEnding l).lane l).withdrawing
        (if (s.lane l).drive.enabled = true then (s.lane l).drive.duty else (s.lane l).motion.startDuty) .aborted)) := by
  have hends : s.abortLane l = some ((s.endPull l .aborted).retargetWithdraw l) := by
    unfold State.abortLane
    rw [h]
  rw [hends]
  split
  next hon => rw [State.endPull_retarget _ hon hlimit]
  next hoff => rw [State.endPull_restart _ (Bool.eq_false_iff.2 hoff) hfault hhome hlimit]

/-- The withdrawals of an ABORT: the pull ends first, what is expected in TURN is MISSED first, and INSERT leaves the rest as it is. -/
theorem State.abortLane_withdraws {u : Tube} (hu : (s.lane l).ctl.tube = some u) (h : (s.lane l).phaseOrHeld ∈ [.insert, .turn, .pull])
    (hfault : (s.lane l).drive.fault.active = false) (hhome : (s.lane l).drive.home.active = false)
    (hlimit : (s.lane l).atHomeLimit = false) :
    ∃ q x v, s.abortLane l = some (q.setLane l (x.withdrawing
        (if (s.lane l).phaseOrHeld = .pull ∧ (s.lane l).drive.enabled = true then (s.lane l).drive.duty
        else (s.lane l).motion.startDuty) .aborted)) ∧
      x.ctl.tube = some v ∧ v.outcome = u.outcome ∧ v.fault = u.fault ∧
      ((s.lane l).phaseOrHeld = .pull → q = (s.pullEnding l).emit l .pullEnded none ∧ x = (s.pullEnding l).lane l) ∧
      ((s.lane l).phaseOrHeld = .insert → q = s ∧ x = s.lane l ∧ v = u) ∧
      ((s.lane l).phaseOrHeld = .turn → q = s ∧ x = (s.lane l).missRest ∧
        v.flags = { u.flags with
          lmMissed := u.flags.lmMissed || decide ((s.lane l).detector.pointer < (s.lane l).detector.expected.length) }) := by
  simp only [List.mem_cons, List.not_mem_nil, or_false] at h
  obtain h | h | h := h
  · rw [State.abortLane_insert h hfault hhome hlimit, h]
    exact ⟨_, _, u, rfl, hu, rfl, rfl, nofun, fun _ => ⟨rfl, rfl, rfl⟩, nofun⟩
  · rw [State.abortLane_turn h hfault hhome hlimit, h]
    refine ⟨_, _, _, rfl, congrArg (Option.map _) hu, rfl, rfl, nofun, nofun, fun _ => ⟨rfl, rfl, ?_⟩⟩
    simp only [Bool.or_false]
  · obtain ⟨v, hv, -, houtcome, hmark⟩ := Lane.controls_tube (s.pullEnding_controls l) hu
    rw [State.abortLane_pull h hfault hhome hlimit, h]
    simp only [true_and]
    exact ⟨_, _, v, rfl, hv, houtcome, hmark, fun _ => ⟨rfl, rfl⟩, nofun, nofun⟩

end

/-- Settles O33: `exec_abort_taken` for the next state, `State.abortLane_guideCheck` and `State.abortLane_withdraws` for the lane
that it leaves. -/
theorem abortEndsTheTube : Obligations.AbortEndsTheTube := by
  intro s p l u ht hp hu
  have hlane := s.popRequest_lane l
  refine ⟨fun hphase hup => ?_, fun hphase => ?_, fun hphase hup hfault hhome hlimit => ?_⟩
  · rw [exec_abort_taken ht hp (State.abortLane_ending (by rwa [hlane])) (State.holdIfLost_up (s := s.popRequest) hup l)]
    exact congrArg Host.Outcome.next (s.popRequest_conclude_same p .empty)
  · have ha : s.popRequest.abortLane l = _ := State.abortLane_guideCheck (by rwa [hlane])
    have hkeeps := State.abortLane_keeps _ _ _ ha
    have hfin := (s.popRequest.upd l fun x => x.updTube fun u => u.decideOutcome .aborted).enterFinish_finishes l
    have hnone : (((s.popRequest.upd l fun x => x.updTube fun u => u.decideOutcome .aborted).enterFinish l).lane l).ctl.heldPhase =
        none := by
      obtain ⟨f, hf, -⟩ := (s.popRequest.upd l fun x => x.updTube fun u => u.decideOutcome .aborted).enterFinish_tube l
      rw [hf, State.lane_upd]
      rfl
    generalize State.enterFinish _ l = q at ha hkeeps hfin hnone
    have hholds : q.holdIfLost l = q := by
      rw [State.holdIfLost, State.holdIf, hfin.state]
      exact ite_self _
    obtain ⟨v, hv, -, houtcome, hfault, -⟩ := hfin.tube (u.decideOutcome .aborted) (by
      rw [State.lane_upd, hlane]
      exact congrArg (Option.map _) hu)
    refine ⟨_, v, exec_abort_taken ht hp ha hholds, State.answered_of_keeps ht hkeeps _, ?_⟩
    rw [State.placeReply_pool, (State.placeReply_reports _ _).lane, hfin.drive]
    exact ⟨hfin.state, hnone, hfin.pool.trans (State.upd_pool _ _ _), Drive.stop_stopped _, hv, houtcome, hfault⟩
  · rw [← hlane] at hu hphase hfault hhome hlimit
    obtain ⟨q, x, v, ha, hv, houtcome, hmark, hpull, hinsert, hturn⟩ := State.abortLane_withdraws hu hphase hfault hhome hlimit
    rw [hlane] at ha hpull hinsert hturn
    generalize (if (s.lane l).phaseOrHeld = .pull ∧ (s.lane l).drive.enabled = true then (s.lane l).drive.duty
      else (s.lane l).motion.startDuty) = duty at ha ⊢
    have hkeeps := State.abortLane_keeps _ _ _ ha
    have hup' : (q.setLane l (x.withdrawing duty .aborted)).link.up = true := by
      rw [hkeeps.link]
      exact hup
    have hreports := (q.setLane l (x.withdrawing duty .aborted)).placeReply_reports (replyTo p .ok .empty)
    have hafter := (hreports.lane l).trans (State.lane_setLane _ _ _)
    refine ⟨_, { v with outcome := some (v.outcome.getD .aborted) }, exec_abort_taken ht hp ha (State.holdIfLost_up hup' l),
      State.answered_of_keeps ht hkeeps _, ?_⟩
    rw [hafter, State.placeReply_pool, State.setLane_pool, hreports.engine, State.setLane_engine, ← houtcome, ← hmark]
    refine ⟨rfl, rfl, rfl, rfl, rfl, rfl, rfl, rfl, rfl, congrArg (Option.map _) hv, rfl, rfl, fun h => ?_, fun h => ?_, fun h => ?_⟩
    · obtain ⟨rfl, rfl⟩ := hpull h
      refine ⟨s.popRequest.pullEnding_closed l, _, s.popRequest_tail ▸ s.popRequest.pullEnding_emit l, ?_, ?_, rfl, rfl⟩
      · rw [State.emit_lane]
        rfl
      · exact ((hreports.lane _).trans hkeeps.other).trans (s.popRequest_lane _)
    · obtain ⟨rfl, rfl, rfl⟩ := hinsert h
      exact ⟨rfl, rfl, rfl⟩
    · obtain ⟨rfl, rfl, hflags⟩ := hturn h
      exact ⟨rfl, (s.lane l).missRest_missedRest, hflags⟩

end Sys2Proof.Machine

/-! Record memory (R157 to R161, R163, R170, R171): what every step keeps of the 256 buffers, the outbound queue and the pool state. -/

namespace Sys2Proof.Machine

/-! ### The pool's own notices (R159) -/

/-- A notice that the pool forms of its own state. -/
def Record.isPoolNotice (k : Record) : Prop := k = .notice (unitNotice .poolTight) ∨ k = .notice (unitNotice .poolEasy)

/-- From `p` to `q` the pool has queued `more`, notices of its own, each in a buffer that was free. -/
structure Pool.Notifies (p : Pool) (more : List Record) (q : Pool) : Prop where
  own : ∀ k ∈ more, k.isPoolNotice
  queue : q.queue = p.queue ++ more
  free : q.free + more.length = p.free
  low : q.low = p.low
  resume : q.resume = p.resume

theorem Pool.Notifies.refl (p : Pool) : p.Notifies [] p := ⟨List.forall_mem_nil _, (List.append_nil _).symm, rfl, rfl, rfl⟩

theorem Pool.Notifies.trans {p q r : Pool} {more last : List Record} (h : p.Notifies more q) (k : q.Notifies last r) :
    p.Notifies (more ++ last) r where
  own n hn := (List.mem_append.1 hn).elim (h.own n) (k.own n)
  queue := by rw [k.queue, h.queue, List.append_assoc]
  free := by
    have hfree := h.free
    have kfree := k.free
    rw [List.length_append]
    omega
  low := k.low.trans h.low
  resume := k.resume.trans h.resume

/-- A notice, formed or dropped, leaves the levels and the pool state; a free buffer goes with it if there is one. -/
theorem State.rawNotice_levels (s : State) (n : Notice) :
    (s.rawNotice n).pool.free = s.pool.free - 1 ∧ (s.rawNotice n).pool.tight = s.pool.tight ∧
      (s.rawNotice n).pool.low = s.pool.low ∧ (s.rawNotice n).pool.resume = s.pool.resume := by
  rw [State.rawNotice_pool]
  split
  next hfree => exact ⟨by rw [hfree], rfl, rfl, rfl⟩
  · exact ⟨rfl, rfl, rfl, rfl⟩

/-- The pool's notice is queued, or dropped for want of a buffer. -/
theorem State.rawNotice_notifies (s : State) {n : Notice} (hn : (Record.notice n).isPoolNotice) :
    ∃ more, more.length ≤ 1 ∧ s.pool.Notifies more (s.rawNotice n).pool := by
  rw [State.rawNotice_pool]
  split
  · exact ⟨[], Nat.zero_le _, List.forall_mem_nil _, (List.append_nil _).symm, rfl, rfl, rfl⟩
  next hfree =>
    exact ⟨[.notice n], le_rfl, List.forall_mem_singleton.2 hn, rfl, Nat.sub_add_cancel (Nat.pos_of_ne_zero hfree), rfl, rfl⟩

theorem State.becomeTight_notifies (s : State) : ∃ more, more.length ≤ 1 ∧ s.pool.Notifies more s.becomeTight.pool := by
  obtain ⟨more, hlen, hown, hqueue, hfree, hlow, hresume⟩ :=
    State.rawNotice_notifies { s with pool := { s.pool with tight := true } } (n := unitNotice .poolTight) (.inl rfl)
  exact ⟨more, hlen, hown, hqueue, hfree, hlow, hresume⟩

theorem State.becomeEasy_notifies (s : State) : ∃ more, more.length ≤ 1 ∧ s.pool.Notifies more s.becomeEasy.pool := by
  obtain ⟨more, hlen, hown, hqueue, hfree, hlow, hresume⟩ :=
    State.rawNotice_notifies { s with pool := { s.pool with tight := false } } (n := unitNotice .poolEasy) (.inr rfl)
  exact ⟨more, hlen, hown, hqueue, hfree, hlow, hresume⟩

/-- The test of the pool queues at most two notices: POOL_EASY's buffer can make the pool TIGHT again. -/
theorem State.testPool_notifies (s : State) : ∃ more, more.length ≤ 2 ∧ s.pool.Notifies more s.testPool.pool := by
  obtain ⟨easy, heasy, hnotifies⟩ := s.becomeEasy_notifies
  obtain ⟨_, _, h⟩ | ⟨_, _, h | h⟩ | ⟨_, _, h⟩ | ⟨_, _, h⟩ := s.testPool_cases <;> rw [h]
  · exact ⟨[], Nat.zero_le _, .refl _⟩
  · exact ⟨easy, heasy.trans (by decide), hnotifies⟩
  · obtain ⟨tight, htight, hagain⟩ := s.becomeEasy.becomeTight_notifies
    exact ⟨easy ++ tight, by rw [List.length_append]; omega, hnotifies.trans hagain⟩
  · exact ⟨[], Nat.zero_le _, .refl _⟩
  · obtain ⟨tight, htight, hnotifies⟩ := s.becomeTight_notifies
    exact ⟨tight, htight.trans (by decide), hnotifies⟩

/-! ### The pool state (R159, R160) -/

/-- The levels lie in their ranges (R160). -/
def Pool.levelsFit (p : Pool) : Prop := 17 ≤ p.low ∧ p.low ≤ 200 ∧ p.low < p.resume ∧ p.resume ≤ 255

theorem State.poolSettled.levels {s : State} (h : s.poolSettled) : s.pool.levelsFit := by
  obtain ⟨hmin, hlow, hbetween, hresume, _, _⟩ := h
  exact ⟨hmin, hlow, hbetween, hresume⟩

/-- The pool state in agreement with the free count depends on the pool alone. -/
theorem State.poolSettled.of_pool {s t : State} (h : s.poolSettled) (ht : t.pool = s.pool) : t.poolSettled := by
  unfold State.poolSettled
  rwa [ht]

/-- A pool whose free count is above no level that would make it EASY, once its notice is out. -/
theorem State.becomeTight_settled {s : State} (h : s.pool.levelsFit) (hfree : s.pool.free ≤ s.pool.low) :
    s.becomeTight.poolSettled := by
  obtain ⟨hmin, hlow, hbetween, hresume⟩ := h
  obtain ⟨hf, ht, hl, hr⟩ :=
    State.rawNotice_levels { s with pool := { s.pool with tight := true } } (unitNotice .poolTight)
  unfold State.poolSettled State.becomeTight
  rw [hf, ht, hl, hr]
  exact ⟨hmin, hlow, hbetween, hresume, nofun, fun _ => by dsimp only; omega⟩

/-- After its test the pool is settled, whatever the free count (R159). -/
theorem State.testPool_settled {s : State} (h : s.pool.levelsFit) : s.testPool.poolSettled := by
  have ⟨hmin, hlow, hbetween, hresume⟩ := h
  unfold State.testPool
  split
  next htight =>
    split
    next hhigh =>
      obtain ⟨hf, ht, hl, hr⟩ := State.rawNotice_levels { s with pool := { s.pool with tight := false } } (unitNotice .poolEasy)
      have hfit : s.becomeEasy.pool.levelsFit := by
        unfold Pool.levelsFit State.becomeEasy
        rw [hl, hr]
        exact h
      dsimp only
      split
      next hdown => exact State.becomeTight_settled hfit hdown
      next hup =>
        refine ⟨hfit.1, hfit.2.1, hfit.2.2.1, hfit.2.2.2, fun _ => Nat.lt_of_not_le hup, fun hagain => ?_⟩
        cases ht.symm.trans hagain
    next hbelow =>
      refine ⟨hmin, hlow, hbetween, hresume, fun heasy => ?_, fun _ => Nat.lt_of_not_le hbelow⟩
      cases htight.symm.trans heasy
  next heasy =>
    split
    next hdown => exact State.becomeTight_settled h hdown
    next hup => exact ⟨hmin, hlow, hbetween, hresume, fun _ => Nat.lt_of_not_le hup, fun htight => absurd htight heasy⟩

/-! ### The record being sent (R158, R180) -/

/-- The record being sent stands at the front of the outbound queue. -/
def State.sendsFront (s : State) : Prop :=
  s.link.tx.recordFrame = none ∨ s.link.tx.recordFrame = s.pool.queue.head?.map fun k => frameOf k.payload

theorem State.sendsFront.of_same {s t : State} (h : s.sendsFront) (htx : t.link.tx = s.link.tx) (hp : t.pool = s.pool) :
    t.sendsFront := by
  unfold State.sendsFront
  rwa [htx, hp]

/-- The transmitter chooses no record but the front one (R180). -/
theorem State.choose_front (s : State) : s.choose.sendsFront := by
  obtain ⟨_, _, _, h⟩ | ⟨k, rest, _, _, hqueue, h⟩ | ⟨_, h⟩ := s.choose_cases <;> rw [h]
  · exact .inl rfl
  · refine .inr ?_
    dsimp only
    rw [hqueue]
    rfl
  · exact .inl rfl

theorem State.kick_front {s : State} (h : s.sendsFront) : s.kick.sendsFront := by
  obtain ⟨_, hk⟩ | ⟨_, _, _, _, hk⟩ := s.kick_cases <;> rw [hk]
  · exact s.choose_front
  · exact h

/-- While a record is being sent the queue is not empty. -/
theorem State.sendsFront.queue_cons {s : State} (h : s.sendsFront) {frame : List Byte} {due : Nat}
    (htx : s.link.tx = .sending .record frame due) : ∃ k rest, s.pool.queue = k :: rest := by
  unfold State.sendsFront at h
  rw [htx] at h
  cases hqueue : s.pool.queue with
  | nil =>
    rw [hqueue] at h
    obtain h | h := h <;> cases h
  | cons k rest => exact ⟨k, rest, rfl⟩

/-- A record that joins at the back leaves the front one where it stands. -/
theorem State.enqueue_front {s : State} (h : s.sendsFront) (r : Record) : (s.enqueue r).sendsFront := by
  refine State.kick_front ?_
  obtain hnone | hfront := h
  · exact .inl hnone
  · cases hqueue : s.pool.queue with
    | nil =>
      rw [hqueue] at hfront
      exact .inl hfront
    | cons k rest =>
      rw [hqueue] at hfront
      exact .inr hfront

theorem State.rawNotice_front {s : State} (h : s.sendsFront) (n : Notice) : (s.rawNotice n).sendsFront := by
  unfold State.rawNotice
  split
  · exact h
  · exact State.enqueue_front (s := { s with pool := { s.pool with free := s.pool.free - 1 } }) h _

theorem State.testPool_front {s : State} (h : s.sendsFront) : s.testPool.sendsFront := by
  have easy : s.becomeEasy.sendsFront := State.rawNotice_front (s := { s with pool := { s.pool with tight := false } }) h _
  have tight : ∀ {t : State}, t.sendsFront → t.becomeTight.sendsFront := fun {t} ht =>
    State.rawNotice_front (s := { t with pool := { t.pool with tight := true } }) ht _
  obtain ⟨_, _, ht⟩ | ⟨_, _, ht | ht⟩ | ⟨_, _, ht⟩ | ⟨_, _, ht⟩ := s.testPool_cases <;> rw [ht]
  · exact h
  · exact easy
  · exact tight easy
  · exact h
  · exact tight h

/-! ### The buffers (R157) -/

/-- The buffers that are free or in the outbound queue. -/
def Pool.stock (p : Pool) : Nat := p.free + p.queue.length

/-- The buffers free, queued and held. -/
def State.buffers (s : State) : Nat := s.pool.stock + s.laneA.held + s.laneB.held

theorem State.buffersKept_iff (s : State) : s.buffersKept ↔ s.buffers = 256 ∧ s.sendsFront := Iff.rfl

/-- The count does not depend on which lane is named first. -/
theorem State.buffers_eq (s : State) (l : LaneId) :
    s.buffers = s.pool.stock + (s.lane l).held + (s.lane (otherLane l)).held := by
  cases l
  · rfl
  · exact Nat.add_right_comm _ _ _

theorem State.buffers_congr {s t : State} (hp : t.pool.stock = s.pool.stock) (hl : ∀ l, (t.lane l).held = (s.lane l).held) :
    t.buffers = s.buffers := by rw [t.buffers_eq .a, s.buffers_eq .a, hp, hl, hl]

/-- A buffer that passes from the free pool into the queue stays in stock. -/
theorem Pool.Notifies.stock {p q : Pool} {more : List Record} (h : p.Notifies more q) : q.stock = p.stock := by
  have hfree := h.free
  unfold Pool.stock
  rw [h.queue, List.length_append]
  omega

theorem State.testPool_stock (s : State) : s.testPool.pool.stock = s.pool.stock := by
  obtain ⟨_, _, h⟩ := s.testPool_notifies
  exact h.stock

theorem State.enqueue_stock (s : State) (r : Record) : (s.enqueue r).pool.stock = s.pool.stock + 1 := by
  rw [State.enqueue_pool, Pool.stock, Pool.stock, List.length_append, List.length_singleton, Nat.add_assoc]

theorem State.testPool_buffers (s : State) : s.testPool.buffers = s.buffers :=
  State.buffers_congr s.testPool_stock fun l => by rw [s.testPool_reports.lane]

theorem State.enqueue_buffers (s : State) (r : Record) : (s.enqueue r).buffers = s.buffers + 1 := by
  rw [State.buffers_eq _ .a, s.buffers_eq .a, State.enqueue_stock, (s.enqueue_reports r).lane, (s.enqueue_reports r).lane]
  omega

theorem State.buffers_withFree (s : State) (n : Nat) :
    ({ s with pool := { s.pool with free := n } } : State).buffers + s.pool.free = s.buffers + n := by
  unfold State.buffers Pool.stock
  dsimp only
  omega

theorem State.takeBuffer_buffers {s : State} (hfree : s.pool.free ≠ 0) : s.takeBuffer.buffers + 1 = s.buffers := by
  have hless := s.buffers_withFree (s.pool.free - 1)
  rw [State.takeBuffer, State.testPool_buffers]
  omega

theorem State.returnBuffer_buffers (s : State) : s.returnBuffer.buffers = s.buffers + 1 := by
  have hmore := s.buffers_withFree (s.pool.free + 1)
  rw [State.returnBuffer, State.testPool_buffers]
  omega

/-- The buffer of the record sent passes from the queue to the free pool (R158). -/
theorem State.dropSent_buffers {s : State} {k : Record} {rest : List Record} (hqueue : s.pool.queue = k :: rest) :
    s.dropSent.buffers = s.buffers := by
  rw [State.dropSent, State.returnBuffer_buffers, State.buffers, State.buffers, Pool.stock, Pool.stock, hqueue, List.drop_one,
    List.tail_cons, List.length_cons]
  dsimp only
  omega

theorem State.rawNotice_buffers (s : State) (n : Notice) : (s.rawNotice n).buffers = s.buffers := by
  refine State.buffers_congr ?_ fun l => by rw [(s.rawNotice_reports n).lane]
  rw [State.rawNotice_pool, Pool.stock, Pool.stock]
  split
  · rfl
  · simp only [List.length_append, List.length_singleton]
    omega

/-- An assembler gets a block, or gives one up. -/
theorem Lane.held_setBlock (x : Lane) (kind : BlockKind) (b : Option Block) :
    (x.setBlock kind b).held + heldBuffer (x.block kind) = x.held + heldBuffer b := by
  cases kind <;> simp only [Lane.held, Lane.block, Lane.setBlock] <;> omega

theorem State.buffers_setBlock (s : State) (l : LaneId) (kind : BlockKind) (b : Option Block) :
    (s.upd l fun x => x.setBlock kind b).buffers + heldBuffer ((s.lane l).block kind) = s.buffers + heldBuffer b := by
  have hheld := (s.lane l).held_setBlock kind b
  rw [State.buffers_eq _ l, s.buffers_eq l, State.upd_pool, State.lane_upd, State.lane_upd_other]
  omega

end Sys2Proof.Machine

/-! Record memory over every step (R157 to R161, R163, R170, R171): one pass serves the buffers and the pool state. -/

namespace Sys2Proof.Machine

/-! ### Record memory in order -/

/-- Where `bs` is asked for, the buffers are accounted for and the front record is sent; where `ps` is, the pool is settled. -/
structure State.Booked (bs ps : Prop) (s : State) : Prop where
  count : bs → s.buffers = 256
  front : bs → s.sendsFront
  pool : ps → s.poolSettled

/-! ### What leaves the held buffers alone -/

section

variable (x : Lane)

theorem Lane.held_takeCandidate (c : Option Candidate) : (x.takeCandidate c).held = x.held := by cases c <;> rfl

theorem Lane.held_landmarkEnd : x.landmarkEnd.held = x.held := Lane.held_takeCandidate _ _

theorem Lane.held_commit (now : Nat) (c : CapLine) (line : ChanLine) :
    (((x.updTube fun t => t.countCommit now c).storeLine c).landmarkLine line).held = x.held := by
  have stored : ((x.updTube fun t => t.countCommit now c).storeLine c).held = x.held := by
    unfold Lane.storeLine
    split <;> rfl
  rw [← stored]
  unfold Lane.landmarkLine
  dsimp only
  split
  · exact Lane.held_takeCandidate _ _
  · rfl

theorem Lane.held_motionStart (p : MotionPhase) : (x.motionStart p).1.held = x.held := by
  rw [Lane.motionStart_frame]
  rfl

theorem Lane.held_retarget : x.retarget.1.held = x.held := by
  rw [Lane.retarget_frame]
  rfl

theorem Lane.held_updateRearm : x.updateRearm.held = x.held := by
  unfold Lane.updateRearm
  split
  · split <;> rfl
  · rfl

/-- LANE_RESET leaves the open blocks to be given up (R155, R171). -/
theorem Lane.held_resetLane : x.resetLane.held = x.held := x.held_updateRearm

theorem Lane.held_closeTube : x.closeTube.held = x.held := x.held_updateRearm

theorem Lane.held_controlPeriod (tight : Bool) : ((x.periodMeasure.pullSpeeds).drivePeriod tight).held = x.held := by
  rw [Lane.controlPeriod_eq]
  rfl

end

namespace State.Booked

variable {bs ps : Prop} {s t : State} {l : LaneId}

/-! ### Both lanes, the pool and the transmitter -/

/-- An operation that leaves the pool and the held buffers, and sends no record but the front one. -/
theorem of_pool (h : s.Booked bs ps) (hp : t.pool = s.pool) (hl : ∀ l, (t.lane l).held = (s.lane l).held)
    (hf : s.sendsFront → t.sendsFront) : t.Booked bs ps where
  count hb := (State.buffers_congr (by rw [hp]) hl).trans (h.count hb)
  front hb := hf (h.front hb)
  pool hs := (h.pool hs).of_pool hp

/-- Pool, transmitter and held buffers as they were. -/
theorem of_same (h : s.Booked bs ps) (hp : t.pool = s.pool) (htx : t.link.tx = s.link.tx)
    (hl : ∀ l, (t.lane l).held = (s.lane l).held) : t.Booked bs ps :=
  h.of_pool hp hl fun hf => hf.of_same htx hp

/-- Nothing has changed but the rest of the unit. -/
theorem of_fields (h : s.Booked bs ps) (hp : t.pool = s.pool) (htx : t.link.tx = s.link.tx) (ha : t.laneA = s.laneA)
    (hb : t.laneB = s.laneB) : t.Booked bs ps := h.of_same hp htx fun l => by rw [State.lane_congr ha hb]

theorem withLink (h : s.Booked bs ps) {k : Link} (hk : k.tx = s.link.tx) : ({ s with link := k } : State).Booked bs ps :=
  h.of_fields rfl hk rfl rfl

theorem reach (h : s.Booked bs ps) (due : Nat) : (s.reach due).Booked bs ps := h.of_fields rfl rfl rfl rfl

theorem setLane (h : s.Booked bs ps) (l : LaneId) {x : Lane} (hx : x.held = (s.lane l).held) :
    (s.setLane l x).Booked bs ps := by
  refine h.of_same (s.setLane_pool l x) (by rw [s.setLane_link]) fun k => ?_
  obtain rfl | rfl := eq_or_eq_otherLane l k
  · rwa [State.lane_setLane]
  · rw [State.lane_setLane_other]

/-- A change of a lane outside its assemblers' blocks. -/
theorem frame (h : s.Booked bs ps) (l : LaneId) {f : Lane → Lane} (hf : (f (s.lane l)).held = (s.lane l).held) :
    (s.upd l f).Booked bs ps := h.setLane l hf

/-- A list of operations that each keep it. -/
theorem foldl {α : Type} {f : State → α → State} (hf : ∀ {s : State} a, s.Booked bs ps → (f s a).Booked bs ps) (as : List α)
    (h : s.Booked bs ps) : (as.foldl f s).Booked bs ps := by
  induction as generalizing s with
  | nil => exact h
  | cons a as ih => exact ih (hf a h)

/-! ### The transmitter and notices (R158, R170, R180) -/

/-- The transmitter may have been sending anything when it chooses. -/
theorem choose (hc : bs → s.buffers = 256) (hp : ps → s.poolSettled) : s.choose.Booked bs ps where
  count hb := (State.buffers_congr (by rw [s.choose_pool]) fun l => by rw [s.choose_reports.lane]).trans (hc hb)
  front _ := s.choose_front
  pool hs := (hp hs).of_pool s.choose_pool

theorem kick (h : s.Booked bs ps) : s.kick.Booked bs ps :=
  h.of_pool s.kick_pool (fun l => by rw [s.kick_reports.lane]) State.kick_front

theorem placeReply (h : s.Booked bs ps) (r : Reply) : (s.placeReply r).Booked bs ps :=
  kick (h.withLink rfl)

/-- The test of the pool settles it (R159). -/
theorem testPool (hc : bs → s.buffers = 256) (hf : bs → s.sendsFront) (hp : ps → s.pool.levelsFit) : s.testPool.Booked bs ps where
  count hb := s.testPool_buffers.trans (hc hb)
  front hb := State.testPool_front (hf hb)
  pool hs := State.testPool_settled (hp hs)

/-- A buffer more than is accounted for leaves the free pool (R157). -/
theorem takeBuffer (hc : bs → s.buffers = 257) (hf : bs → s.sendsFront) (hp : ps → s.pool.levelsFit) (hfree : s.pool.free ≠ 0) :
    s.takeBuffer.Booked bs ps where
  count hb := Nat.add_right_cancel ((State.takeBuffer_buffers hfree).trans (hc hb))
  front hb := State.testPool_front (hf hb)
  pool hs := State.testPool_settled (hp hs)

/-- A buffer that is not accounted for returns to the free pool (R157). -/
theorem returnBuffer (hc : bs → s.buffers = 255) (hf : bs → s.sendsFront) (hp : ps → s.pool.levelsFit) :
    s.returnBuffer.Booked bs ps where
  count hb := s.returnBuffer_buffers.trans (congrArg (· + 1) (hc hb))
  front hb := State.testPool_front (hf hb)
  pool hs := State.testPool_settled (hp hs)

/-- A record takes a free buffer into the queue (R169, R170). -/
theorem queueRecord (h : s.Booked bs ps) (hfree : s.pool.free ≠ 0) (r : Record) : (s.queueRecord r).Booked bs ps := by
  refine testPool (fun hb => ?_) (fun hb => ?_) fun hs => ?_
  · have hless := s.buffers_withFree (s.pool.free - 1)
    have hcount := h.count hb
    rw [State.enqueue_buffers]
    omega
  · exact State.enqueue_front (s := { s with pool := { s.pool with free := s.pool.free - 1 } }) (h.front hb) r
  · rw [State.enqueue_pool]
    exact (h.pool hs).levels

/-- A notice is formed, or dropped where no buffer is free. -/
theorem formNotice (h : s.Booked bs ps) (n : Notice) : (s.formNotice n).Booked bs ps := by
  unfold State.formNotice
  split
  next hnone =>
    refine ⟨fun hb => (s.rawNotice_buffers n).trans (h.count hb), fun hb => State.rawNotice_front (h.front hb) n, fun hs => ?_⟩
    obtain ⟨hf, ht, hl, hr⟩ := s.rawNotice_levels n
    have hstill : (s.rawNotice n).pool.free = s.pool.free := by rw [hf, hnone]
    have hsettled := h.pool hs
    unfold State.poolSettled
    rwa [hstill, ht, hl, hr]
  next hfree => exact h.queueRecord hfree _

theorem emit (h : s.Booked bs ps) (l : LaneId) (kind : NoticeKind) (cause : Option FaultCause) :
    (s.emit l kind cause).Booked bs ps := by
  unfold State.emit
  split
  · exact h.formNotice _
  · exact h

/-! ### The assemblers (R161, R163, R168, R171) -/

/-- A closed block's buffer passes into the queue (R163). -/
theorem closeBlock (h : s.Booked bs ps) (l : LaneId) (kind : BlockKind) : (s.closeBlock l kind).Booked bs ps := by
  obtain ⟨_, hc⟩ | ⟨b, hblock, hc⟩ := s.closeBlock_cases l kind <;> rw [hc]
  · exact h
  · refine ⟨fun hb => ?_, fun hb => State.enqueue_front ?_ _, fun hs => ?_⟩
    · have hcount := s.buffers_setBlock l kind none
      rw [hblock, h.count hb] at hcount
      rw [State.enqueue_buffers]
      exact hcount
    · exact (h.front hb).of_same (by rw [State.upd_link]) (s.upd_pool l _)
    · have hsettled := h.pool hs
      unfold State.poolSettled
      rwa [State.enqueue_pool, State.upd_pool]

/-- A line opens a block while more than 16 buffers are free (R161). -/
theorem openBlock (h : s.Booked bs ps) {kind : BlockKind} (hnone : (s.lane l).block kind = none) (line : RingLine) :
    (s.openBlock l kind line).Booked bs ps := by
  unfold State.openBlock
  split
  next hfree =>
    refine takeBuffer (fun hb => ?_) (fun hb => ?_) (fun hs => ?_) ?_
    · have hcount := s.buffers_setBlock l kind (some ((s.lane l).newBlock kind line []))
      rw [hnone, h.count hb] at hcount
      exact hcount
    · exact (h.front hb).of_same (by rw [State.upd_link]) (s.upd_pool l _)
    · rw [State.upd_pool]
      exact (h.pool hs).levels
    · rw [State.upd_pool]
      exact Nat.ne_of_gt (Nat.zero_lt_of_lt hfree)
  · exact h

/-- A block whose lines change stays one block. -/
theorem replaceBlock (h : s.Booked bs ps) {kind : BlockKind} {b : Block} (hblock : (s.lane l).block kind = some b) (c : Block) :
    (s.upd l fun x => x.setBlock kind (some c)).Booked bs ps := by
  refine h.frame l ?_
  have hheld := (s.lane l).held_setBlock kind (some c)
  rw [hblock] at hheld
  exact Nat.add_right_cancel hheld

theorem appendLine (h : s.Booked bs ps) (l : LaneId) (kind : BlockKind) (line : RingLine) :
    (s.appendLine l kind line).Booked bs ps := by
  unfold State.appendLine
  split
  · exact h.frame l rfl
  next hblock =>
    dsimp only
    split
    · exact (h.replaceBlock hblock _).closeBlock l kind
    · exact h.replaceBlock hblock _

theorem placeLine (h : s.Booked bs ps) (l : LaneId) (kind : BlockKind) (line : RingLine) :
    (s.placeLine l kind line).Booked bs ps := by
  have closed : (if (s.lane l).correctionMoved kind line then s.closeBlock l kind else s).Booked bs ps := by
    split
    · exact h.closeBlock l kind
    · exact h
  have opened : ∀ {t : State}, t.Booked bs ps →
      (if ((t.lane l).block kind).isNone then t.openBlock l kind line else t).Booked bs ps := fun {t} ht => by
    split
    next hnone => exact ht.openBlock (Option.isNone_iff_eq_none.1 hnone) line
    · exact ht
  exact (opened closed).appendLine l kind line

theorem lineAssembler (h : s.Booked bs ps) (l : LaneId) (line : ChanLine) (m : RegionMarks) :
    (s.lineAssembler l line m).Booked bs ps := by
  unfold State.lineAssembler
  dsimp only
  split
  · exact h
  · exact h.placeLine l _ _

theorem placeRegion (h : s.Booked bs ps) (l : LaneId) (line : ChanLine) (m : RegionMarks) :
    (s.placeRegion l line m).Booked bs ps := by
  refine foldl (fun k ht => ht.placeLine l .region k) _ ?_
  split
  · exact h.setLane l rfl
  · exact h

theorem regionAssembler (h : s.Booked bs ps) (l : LaneId) (line : ChanLine) (m : RegionMarks) :
    (s.regionAssembler l line m).Booked bs ps := by
  by_cases hmask : (s.lane l).mask .region = []
  · rw [State.regionAssembler_empty hmask]
    exact h
  cases hwithin : m.within with
  | false =>
    rw [State.regionAssembler_outside hmask hwithin]
    exact h.frame l rfl
  | true =>
    rw [State.regionAssembler_within hmask hwithin]
    split
    · exact (h.placeRegion l line m).closeBlock l .region
    · exact h.placeRegion l line m

theorem assemblersEnd (h : s.Booked bs ps) (l : LaneId) : (s.assemblersEnd l).Booked bs ps :=
  ((h.closeBlock l .full).closeBlock l .region).frame l rfl

/-- A block given up returns its buffer (R171). -/
theorem giveUpBlock (h : s.Booked bs ps) (l : LaneId) (kind : BlockKind) : (s.giveUpBlock l kind).Booked bs ps := by
  unfold State.giveUpBlock
  split
  next b hblock =>
    refine returnBuffer (fun hb => ?_) (fun hb => ?_) fun hs => ?_
    · have hcount := s.buffers_setBlock l kind none
      rw [hblock, h.count hb] at hcount
      exact Nat.add_right_cancel hcount
    · exact (h.front hb).of_same (by rw [State.upd_link]) (s.upd_pool l _)
    · rw [State.upd_pool]
      exact (h.pool hs).levels
  · exact h

/-! ### Screening, line capture and the end of a pull (chapters 2, 4 and 5) -/

theorem engineTake (h : s.Booked bs ps) (l : LaneId) : (s.engineTake l).Booked bs ps := by
  obtain ⟨_, ht⟩ | ⟨j, rest, _, ht⟩ := s.engineTake_cases l <;> rw [ht]
  · exact h
  · have taken := h.setLane l (x := { s.lane l with jobs := rest }) rfl
    exact taken.of_fields rfl rfl rfl rfl

theorem appendJob (h : s.Booked bs ps) (l : LaneId) (j : Job) : (s.appendJob l j).Booked bs ps := by
  have queued : (s.upd l fun x => { x with jobs := x.jobs ++ [j] }).Booked bs ps := h.frame l rfl
  unfold State.appendJob
  dsimp only
  split
  · exact queued.engineTake l
  · exact queued

theorem closeSpan (h : s.Booked bs ps) (l : LaneId) (ch : Nat) (span : List SpanEntry) (long truncated : Bool) :
    (s.closeSpan l ch span long truncated).Booked bs ps := by
  unfold State.closeSpan State.handOn
  dsimp only
  split
  · split
    · exact h.appendJob l _
    · exact h.frame l rfl
  · exact h

theorem screenChannel (h : s.Booked bs ps) (line : ChanLine) (l : LaneId) (ch : Nat) :
    (s.screenChannel line l ch).Booked bs ps := by
  unfold State.screenChannel
  dsimp only
  split
  · split
    · exact (h.frame l rfl).closeSpan l _ _ _ _
    · exact h.frame l rfl
  · exact h

theorem screenLine (h : s.Booked bs ps) (l : LaneId) (line : ChanLine) : (s.screenLine l line).1.Booked bs ps := by
  unfold State.screenLine
  dsimp only
  exact (foldl (fun ch ht => ht.screenChannel line l ch) channelNumbers h).frame l rfl

theorem screenEndChannel (h : s.Booked bs ps) (l : LaneId) (ch : Nat) : (s.screenEndChannel l ch).Booked bs ps := by
  unfold State.screenEndChannel
  dsimp only
  split
  · split
    case h_1 => exact h
    case h_2 => exact h.frame l rfl
    case h_3 | h_4 => exact ((h.frame l rfl).frame l rfl).closeSpan l _ _ _ _
  · exact h

theorem screenEnd (h : s.Booked bs ps) (l : LaneId) : (s.screenEnd l).Booked bs ps :=
  (foldl (fun ch ht => ht.screenEndChannel l ch) channelNumbers h).frame l rfl

theorem commitLine (h : s.Booked bs ps) (l : LaneId) (c : CapLine) : (s.commitLine l c).Booked bs ps := by
  have taken : (s.upd l fun x =>
      ((x.updTube fun t => t.countCommit s.clock c).storeLine c).landmarkLine ((s.lane l).chanLine c)).Booked bs ps :=
    h.frame l (Lane.held_commit _ _ c _)
  exact ((taken.screenLine l _).lineAssembler l _ _).regionAssembler l _ _

theorem captureCycle (h : s.Booked bs ps) (l : LaneId) (c : Cycle) : (s.captureCycle l c).Booked bs ps := by
  unfold State.captureCycle
  dsimp only
  split
  · exact foldl (fun c ht => ht.commitLine l c) _ (h.frame l rfl)
  · exact h

theorem flush (h : s.Booked bs ps) (l : LaneId) : (s.flush l).Booked bs ps := by
  unfold State.flush
  exact (foldl (fun c ht => ht.commitLine l c) _ (h.frame l rfl)).frame l rfl

/-- The end of a pull flushes the window and closes what is open (R146). -/
theorem endPull (h : s.Booked bs ps) (l : LaneId) (o : TubeOutcome) : (s.endPull l o).Booked bs ps := by
  have ended : ((s.flush l).upd l Lane.landmarkEnd).Booked bs ps := (h.flush l).frame l (Lane.held_landmarkEnd _)
  rw [State.endPull_eq]
  exact (((ended.screenEnd l).assemblersEnd l).emit l _ _).frame l rfl

/-! ### The lane controller (chapter 8) -/

theorem finishWait (h : s.Booked bs ps) (l : LaneId) : (s.finishWait l).Booked bs ps := by
  rw [State.finishWait_eq]
  exact h.frame l rfl

theorem enterFinish (h : s.Booked bs ps) (l : LaneId) : (s.enterFinish l).Booked bs ps := (h.frame l rfl).finishWait l

theorem enterFaulted (h : s.Booked bs ps) (l : LaneId) (cause : FaultCause) : (s.enterFaulted l cause).Booked bs ps :=
  (h.frame l rfl).emit l _ _

theorem withdrawResult (h : s.Booked bs ps) (l : LaneId) (r : StartResult) : (s.withdrawResult l r).Booked bs ps := by
  cases r with
  | started => exact h
  | homeArrival => exact h.enterFinish l
  | refused | homeLimit => exact enterFinish (h.frame l rfl) l

theorem startWithdraw (h : s.Booked bs ps) (l : LaneId) : (s.startWithdraw l).Booked bs ps :=
  withdrawResult (h.setLane l ((s.lane l).toWithdraw.held_motionStart _)) l _

theorem retargetWithdraw (h : s.Booked bs ps) (l : LaneId) : (s.retargetWithdraw l).Booked bs ps :=
  withdrawResult (h.setLane l (s.lane l).toWithdraw.held_retarget) l _

theorem testStopB (h : s.Booked bs ps) (l : LaneId) : (s.testStopB l).Booked bs ps := by
  unfold State.testStopB
  dsimp only
  split
  · split
    · exact ((h.frame l rfl).endPull l _).retargetWithdraw l
    · exact h
  · exact h

theorem motorFaultEvent (h : s.Booked bs ps) (l : LaneId) : (s.motorFaultEvent l).Booked bs ps := by
  unfold State.motorFaultEvent
  dsimp only
  split
  case h_1 | h_2 | h_3 | h_5 => exact enterFinish (h.frame l rfl) l
  case h_4 => exact enterFinish ((h.endPull l _).frame l rfl) l
  case h_6 => exact h.enterFaulted l _
  all_goals exact h

theorem stallEvent (h : s.Booked bs ps) (l : LaneId) (position : Int) : (s.stallEvent l position).Booked bs ps := by
  unfold State.stallEvent
  split
  case h_1 => exact startWithdraw (h.frame l rfl) l
  case h_2 => exact enterFinish ((h.endPull l _).frame l rfl) l
  case h_3 => exact enterFinish (h.frame l rfl) l
  case h_4 => exact h.enterFaulted l _
  all_goals exact h

theorem enterPull (h : s.Booked bs ps) (l : LaneId) : (s.enterPull l).Booked bs ps := by
  have started := (h.setLane l ((s.lane l).toPull.held_motionStart .pull)).emit l .pullStarted none
  unfold State.enterPull
  dsimp only
  split
  · exact started.motorFaultEvent l
  · exact started.testStopB l
  all_goals exact started

theorem enterTurn (h : s.Booked bs ps) (l : LaneId) : (s.enterTurn l).Booked bs ps := by
  have turned : (s.upd l fun x => x.turned (s.tubeLayout l) s.clock).Booked bs ps := h.frame l rfl
  rw [State.enterTurn_eq]
  split
  · exact turned.enterPull l
  · exact turned

theorem testStopA (h : s.Booked bs ps) (l : LaneId) : (s.testStopA l).Booked bs ps := by
  unfold State.testStopA
  dsimp only
  split
  · split
    · exact h.enterTurn l
    · exact h
  · exact h

theorem testStops (h : s.Booked bs ps) (l : LaneId) : (s.testStops l).Booked bs ps := (h.testStopA l).testStopB l

theorem guideTest (h : s.Booked bs ps) (l : LaneId) : (s.guideTest l).Booked bs ps := by
  have started := h.setLane l (Lane.held_motionStart (s.lane l).attempted.passGuide .insert)
  have failed : (s.setLane l ((s.lane l).attempted.updTube fun t => t.decideOutcome .noGuide)).Booked bs ps := h.setLane l rfl
  unfold State.guideTest
  dsimp only
  split
  · split
    · exact started.motorFaultEvent l
    · exact started.testStopA l
    all_goals exact started
  · split
    · exact failed.enterFinish l
    · exact h.setLane l rfl

theorem openTube (h : s.Booked bs ps) (l : LaneId) (o : Order) (rest : List Order) : (s.openTube l o rest).Booked bs ps := by
  have opened : (s.opened l o rest).Booked bs ps := emit (h.frame l rfl) l _ _
  rw [State.openTube_eq]
  split
  · exact (opened.frame l rfl).guideTest l
  · exact (opened.frame l rfl).enterFinish l

theorem takeFrontOrder (h : s.Booked bs ps) (l : LaneId) : (s.takeFrontOrder l).Booked bs ps := by
  unfold State.takeFrontOrder
  split
  · exact h.openTube l _ _
  · exact h

theorem homeArrivalEvent (h : s.Booked bs ps) (l : LaneId) : (s.homeArrivalEvent l).Booked bs ps := by
  unfold State.homeArrivalEvent
  split
  · exact h.enterFinish l
  · exact h.frame l rfl
  all_goals exact h

theorem inputChange (h : s.Booked bs ps) (l : LaneId) (i : InputId) : (s.inputChange l i).Booked bs ps := by
  have changed : (s.upd l fun y =>
      { y with drive := y.drive.setInput i { (s.lane l).drive.input i with active := ((s.lane l).drive.input i).raw } }).Booked bs ps :=
    h.frame l rfl
  unfold State.inputChange
  dsimp only
  split
  · split
    · exact changed
    · exact changed.frame l rfl
  · split
    · exact (changed.frame l rfl).homeArrivalEvent l
    · exact changed
  · split
    · exact (changed.frame l rfl).motorFaultEvent l
    · exact changed

theorem settleInput (h : s.Booked bs ps) (l : LaneId) (i : InputId) : (s.settleInput l i).Booked bs ps := by
  unfold State.settleInput
  dsimp only
  split
  · exact h.inputChange l i
  · exact h

theorem enterHeld (h : s.Booked bs ps) (l : LaneId) : (s.enterHeld l).Booked bs ps := (h.frame l rfl).emit l _ _

theorem holdIf (h : s.Booked bs ps) (l : LaneId) : (s.holdIf l).Booked bs ps := by
  unfold State.holdIf
  split
  · exact h.enterHeld l
  · exact h

theorem holdIfLost (h : s.Booked bs ps) (l : LaneId) : (s.holdIfLost l).Booked bs ps := by
  unfold State.holdIfLost
  split
  · exact h
  · exact h.holdIf l

theorem resumeMotion (h : s.Booked bs ps) (l : LaneId) (p : MotionPhase) : (s.resumeMotion l p).Booked bs ps := by
  have started := h.setLane l ((s.lane l).held_motionStart p)
  unfold State.resumeMotion
  dsimp only
  split
  · exact started.testStops l
  · exact started.motorFaultEvent l
  · exact started.homeArrivalEvent l
  · exact started.withdrawResult l _

theorem resumeLane (h : s.Booked bs ps) (l : LaneId) : (s.resumeLane l).Booked bs ps := by
  unfold State.resumeLane
  split
  · exact h
  next st _ =>
    have resumed : ((s.upd l fun x => x.unhold st s.clock).emit l .resumed none).Booked bs ps := (h.frame l rfl).emit l _ _
    dsimp only
    split
    case h_1 | h_2 | h_3 => exact resumed.resumeMotion l _
    case h_4 =>
      split
      · exact resumed.frame l rfl
      · exact resumed.resumeMotion l _
    all_goals exact resumed

theorem abortLane (h : s.Booked bs ps) (l : LaneId) (ht : s.abortLane l = some t) : t.Booked bs ps := by
  unfold State.abortLane at ht
  dsimp only at ht
  split at ht <;> cases ht
  case h_1 => exact enterFinish (h.frame l rfl) l
  case h_2 | h_3 => exact startWithdraw (h.frame l rfl) l
  case h_4 => exact (h.endPull l _).retargetWithdraw l
  all_goals exact h

theorem startRetract (h : s.Booked bs ps) (l : LaneId) : (s.startRetract l).Booked bs ps := by
  have started := h.setLane l ((s.lane l).toRetract.held_motionStart .retract)
  unfold State.startRetract
  dsimp only
  split
  · exact started.motorFaultEvent l
  all_goals exact started

/-- LANE_RESET returns the buffers of both assemblers (R155, R171). -/
theorem resetLane (h : s.Booked bs ps) (l : LaneId) : (s.resetLane l).Booked bs ps := by
  have cleared : (s.laneCleared l).Booked bs ps := of_fields (h.frame l (Lane.held_resetLane _)) rfl rfl rfl rfl
  rw [State.resetLane_eq]
  exact ((cleared.giveUpBlock l .full).giveUpBlock l .region).emit l _ _

theorem leaveFinish (h : s.Booked bs ps) (l : LaneId) (fault : Option FaultCause) : (s.leaveFinish l fault).Booked bs ps := by
  have closed : (s.upd l Lane.closeTube).Booked bs ps := h.frame l (Lane.held_closeTube _)
  unfold State.leaveFinish
  dsimp only
  split
  · exact closed.enterFaulted l _
  · exact closed.frame l rfl

/-- The report assembler takes a free buffer for each record (R169). -/
theorem report (h : s.Booked bs ps) (hfree : 1 ≤ s.pool.free) (l : LaneId) (u : Tube) : (s.report l u).Booked bs ps := by
  have hsome : s.pool.free ≠ 0 := Nat.ne_of_gt hfree
  unfold State.report
  split
  · exact queueRecord (h.frame l rfl) (by rwa [State.upd_pool]) _
  · exact (h.queueRecord hsome _).leaveFinish l _

/-! ### The measurement engine (chapter 4) -/

theorem answerFlight (h : s.Booked bs ps) (code : ReplyCode) (body : ReplyBody) : (s.answerFlight code body).Booked bs ps := by
  unfold State.answerFlight
  split
  · have freed : ({ s with link := { s.link with handler := .free } } : State).Booked bs ps := h.withLink rfl
    exact freed.placeReply _
  · exact h

theorem deliver (h : s.Booked bs ps) (l : LaneId) (j : Job) : (s.deliver l j).Booked bs ps := by
  cases j with
  | measure tag ind =>
    unfold State.deliver
    exact h.frame l rfl
  | span ch amplitude phase values =>
    unfold State.deliver State.deliverSpan
    dsimp only
    split
    · exact (h.frame l rfl).answerFlight _ _
    · exact h.answerFlight _ _
  | solve ch ps qs =>
    unfold State.deliver State.deliverSolve
    dsimp only
    split
    · exact (h.frame l rfl).answerFlight _ _
    · exact h.answerFlight _ _

theorem engineChoose (h : s.Booked bs ps) : s.engineChoose.Booked bs ps := by
  obtain ⟨hpool, hlink, _, _, hlane⟩ := s.engineChoose_frame
  exact h.of_same hpool (by rw [hlink]) fun l => by
    rw [hlane]
    rfl

/-! ### The station line (chapter 10) -/

theorem goodFrame (h : s.Booked bs ps) (payload : List Byte) : (s.goodFrame payload).Booked bs ps := by
  have heard : ({ s with link := { s.link with silenceDue := some s.silenceEnd, up := true } } : State).Booked bs ps := h.withLink rfl
  have alive : s.signOfLife.Booked bs ps := by
    unfold State.signOfLife
    dsimp only
    split
    · exact heard
    · exact (heard.formNotice _).kick
  refine alive.withLink ?_
  unfold Link.accept
  split <;> rfl

theorem rxByte (h : s.Booked bs ps) (b : Byte) : (s.rxByte b).Booked bs ps := by
  have received : ∀ rx : Receiver, ({ s with link := { s.link with rx := rx } } : State).Booked bs ps := fun _ => h.withLink rfl
  unfold State.rxByte State.frameByte State.judge
  split
  · split <;> exact received _
  · split
    · exact h.withLink rfl
    · split
      · split
        · exact (received _).goodFrame _
        · exact h.withLink rfl
      · exact received _

theorem receive (h : s.Booked bs ps) (bytes : List Byte) : (s.receive bytes).Booked bs ps :=
  (foldl (fun b hs => hs.rxByte b) bytes h).withLink rfl

/-- The record sent leaves the queue and its buffer returns; the transmitter then chooses anew (R158, R180). -/
theorem dropSent {frame : List Byte} {due : Nat} (h : s.Booked bs ps) (htx : s.link.tx = .sending .record frame due) :
    s.dropSent.choose.Booked bs ps := by
  refine choose (fun hb => ?_) fun hs => State.testPool_settled (h.pool hs).levels
  obtain ⟨k, rest, hqueue⟩ := (h.front hb).queue_cons htx
  exact (State.dropSent_buffers hqueue).trans (h.count hb)

end State.Booked

/-! ### Events -/

section

variable {bs ps : Prop} {s t : State} {l : LaneId}

theorem execJobCompletion_booked (h : s.Booked bs ps) (ht : execJobCompletion s = .next t) : t.Booked bs ps := by
  cases ht
  split
  · exact h
  next e _ =>
    have delivered : (if e.discarded then s.reach e.doneAt else (s.reach e.doneAt).deliver e.lane e.job).Booked bs ps := by
      split
      · exact h.reach _
      · exact (h.reach _).deliver _ _
    exact delivered.engineChoose.finishWait _

theorem execFrameTimeout_booked (h : s.Booked bs ps) (ht : execFrameTimeout s = .next t) : t.Booked bs ps := by
  cases ht
  split
  · exact (h.reach _).withLink rfl
  · exact h

/-- The silence holds both lanes (R151, R176). -/
theorem execSilenceTimeout_booked (h : s.Booked bs ps) (ht : execSilenceTimeout s = .next t) : t.Booked bs ps := by
  cases ht
  split
  next due _ _ =>
    have lost : (s.reach due).loseLink.Booked bs ps := (h.reach due).withLink rfl
    exact (lost.holdIf .a).holdIf .b
  · exact h

theorem execTransmissionEnd_booked (h : s.Booked bs ps) (ht : execTransmissionEnd s = .next t) : t.Booked bs ps := by
  cases ht
  split
  · exact h
  · exact State.Booked.choose (h.reach _).count (h.reach _).pool
  next hsending => exact (h.reach _).dropSent hsending

theorem State.Booked.moveCount (h : s.Booked bs ps) (l : LaneId) (count : Int) : (s.moveCount l count).Booked bs ps := by
  have tested : (State.testStops (s.upd l fun x => { x with pos := { x.pos with count := count } }) l).Booked bs ps :=
    (h.frame l rfl).testStops l
  unfold State.moveCount State.testHomeLimit
  dsimp only
  split
  · exact (tested.frame l rfl).withdrawResult l _
  · exact tested

theorem execEdge_booked {phase : EncPhase} (h : s.Booked bs ps) (ht : execEdge l phase s = .next t) : t.Booked bs ps := by
  have accepted : (s.upd l fun x => x.accept phase).Booked bs ps := h.frame l rfl
  cases ht
  split
  · exact accepted.frame l rfl
  · split
    · exact accepted.moveCount l _
    · exact accepted

theorem execControlPeriodEnd_booked (h : s.Booked bs ps) (ht : execControlPeriodEnd l s = .next t) : t.Booked bs ps := by
  cases ht
  exact (h.reach _).frame l (Lane.held_controlPeriod _ _)

theorem execStall_booked (h : s.Booked bs ps) (ht : execStall l s = .next t) : t.Booked bs ps := by
  cases ht
  split
  · exact (h.frame l rfl).stallEvent l _
  · exact h

theorem execDebouncedStateChange_booked {i : InputId} (h : s.Booked bs ps) (ht : execDebouncedStateChange l i s = .next t) :
    t.Booked bs ps := by
  cases ht
  split
  · exact h
  · exact (h.reach _).inputChange l i

theorem execSwitchEnd_booked (h : s.Booked bs ps) (ht : execSwitchEnd l s = .next t) : t.Booked bs ps := by
  cases ht
  split
  · exact (h.reach _).frame l rfl
  · exact h

theorem execSettleEnd_booked (h : s.Booked bs ps) (ht : execSettleEnd l s = .next t) : t.Booked bs ps := by
  cases ht
  split
  · exact (h.reach _).frame l rfl
  · exact h

theorem execSlotEnd_booked {d : Demod} (h : s.Booked bs ps) (ht : execSlotEnd l d s = .next t) : t.Booked bs ps := by
  cases ht
  split
  · unfold State.endSlot
    dsimp only
    split
    · exact (h.reach _).frame l rfl
    · exact ((h.reach _).frame l rfl).captureCycle l _
  · exact h

theorem execGuidePoll_booked (h : s.Booked bs ps) (ht : execGuidePoll l s = .next t) : t.Booked bs ps := by
  cases ht
  split
  · exact ((h.reach _).frame l rfl).guideTest l
  · exact h

theorem execTurnDwellEnd_booked (h : s.Booked bs ps) (ht : execTurnDwellEnd l s = .next t) : t.Booked bs ps := by
  cases ht
  split
  · exact (h.reach _).enterPull l
  · exact h

theorem execReportRecord_booked (h : s.Booked bs ps) (ht : execReportRecord l s = .next t) : t.Booked bs ps := by
  cases ht
  split
  · split
    next hready => exact h.report hready.2 l _
    · exact h
  · exact h

/-- Power-on frees every buffer (R172). -/
theorem State.poweredOn_booked (s : State) : s.poweredOn.Booked bs ps :=
  ⟨fun _ => rfl, fun _ => .inl rfl, fun _ => (by decide : State.reset.poolSettled)⟩

/-! ### Requests (R177, R178) -/

theorem State.Booked.handle {kind : Nat → Bool} {f : List Byte → State → Handled} (h : s.Booked bs ps)
    (hf : ∀ p {u : State}, u.Booked bs ps → (f p u).Meets (State.Booked bs ps))
    (ht : Host.Outcome.next (φ := Fault) (ρ := Refusal) (s.handle kind f) = .next t) : t.Booked bs ps := by
  cases ht
  obtain hid | ⟨p, _, _, htaken⟩ := s.handle_cases kind f
  · rw [hid]
    exact h
  · have popped : s.popRequest.Booked bs ps := h.withLink rfl
    have met := hf p popped
    rw [htaken]
    generalize f p s.popRequest = o at met
    cases o with
    | refused code => exact popped.placeReply _
    | done u body => exact State.Booked.placeReply met _
    | inFlight u => exact State.Booked.withLink met rfl

variable (p : List Byte)

/-- SET_LINK sets levels in their ranges and tests the pool against them (R160, R181). -/
theorem handleSetLink_booked (h : s.Booked bs ps) : (handleSetLink p s).Meets (State.Booked bs ps) := by
  refine forUnit_meets ?_
  split
  next hok =>
    simp only [linkFieldsOk, within, Bool.and_eq_true, decide_eq_true_eq] at hok
    obtain ⟨⟨_, hlow⟩, hresume⟩ := hok
    exact State.Booked.testPool h.count h.front fun _ => ⟨hlow.1, hlow.2, hresume.1, hresume.2⟩
  · trivial

theorem handleSetLayout_booked (h : s.Booked bs ps) : (handleSetLayout p s).Meets (State.Booked bs ps) := by
  refine forUnit_meets (Handled.meets_of_check (Handled.meets_of_check ?_))
  split
  · exact h.of_fields rfl rfl rfl rfl
  · trivial

theorem handleSetScan_booked (h : s.Booked bs ps) : (handleSetScan p s).Meets (State.Booked bs ps) := by
  refine forSetup_meets fun l => ?_
  split
  · exact h.frame l rfl
  · trivial

theorem handleSetChannel_booked (h : s.Booked bs ps) : (handleSetChannel p s).Meets (State.Booked bs ps) := by
  refine forSetup_meets fun l => Handled.meets_of_check ?_
  split
  · exact h.frame l rfl
  · trivial

theorem handleSetMix_booked (h : s.Booked bs ps) : (handleSetMix p s).Meets (State.Booked bs ps) := by
  have mixed : ∀ (l : LaneId) (ch : Nat) (m : MixChannel), (s.setMix l ch m).Meets (State.Booked bs ps) := fun l _ _ => h.frame l rfl
  refine forSetup_meets fun l => Handled.meets_of_check ?_
  split
  · exact mixed l _ _
  · split
    · split
      · exact mixed l _ _
      · trivial
    · trivial

theorem handleSetLandmark_booked (h : s.Booked bs ps) : (handleSetLandmark p s).Meets (State.Booked bs ps) := by
  refine forSetup_meets fun l => ?_
  split
  · exact h.frame l rfl
  · trivial

theorem handleSetMotion_booked (h : s.Booked bs ps) : (handleSetMotion p s).Meets (State.Booked bs ps) := by
  refine forSetup_meets fun l => ?_
  split
  · exact State.Booked.foldl (fun i ht => ht.settleInput l i) allInputs (h.frame l rfl)
  · trivial

theorem handleQueueTube_booked (h : s.Booked bs ps) : (handleQueueTube p s).Meets (State.Booked bs ps) := by
  refine forLaneLength_meets fun l => ?_
  have queued : ((s.upd l fun y => y.appendOrder (orderAt p)).takeFrontOrder l).Booked bs ps := (h.frame l rfl).takeFrontOrder l
  exact Handled.meets_of_check (Handled.meets_of_check (Handled.meets_of_check (Handled.meets_of_check
    (Handled.meets_of_check queued))))

theorem handleCancelTube_booked (h : s.Booked bs ps) : (handleCancelTube p s).Meets (State.Booked bs ps) := by
  refine forLaneLength_meets fun l => ?_
  dsimp only
  split
  · exact h.frame l rfl
  · trivial

theorem handleAbort_booked (h : s.Booked bs ps) : (handleAbort p s).Meets (State.Booked bs ps) := by
  refine forLaneLength_meets fun l => ?_
  split
  next u hu => exact (h.abortLane l hu).holdIfLost l
  · trivial

theorem handleHold_booked (h : s.Booked bs ps) : (handleHold p s).Meets (State.Booked bs ps) := by
  refine forLaneLength_meets fun l => ?_
  dsimp only
  split
  · exact h.enterHeld l
  · split
    · exact h
    · trivial

theorem handleResume_booked (h : s.Booked bs ps) : (handleResume p s).Meets (State.Booked bs ps) := by
  refine forLaneLength_meets fun l => ?_
  split
  · exact (h.resumeLane l).holdIfLost l
  · trivial

theorem handleRetract_booked (h : s.Booked bs ps) : (handleRetract p s).Meets (State.Booked bs ps) := by
  refine forLaneLength_meets fun l => ?_
  dsimp only
  split
  · exact (h.startRetract l).holdIfLost l
  · trivial

theorem handleSpanCal_booked (h : s.Booked bs ps) : (handleSpanCal p s).Meets (State.Booked bs ps) :=
  forSetup_meets fun l => Handled.meets_of_check (Handled.meets_of_check (Handled.meets_of_check (Handled.meets_of_check
    (h.appendJob l _))))

theorem handleSolveMix_booked (h : s.Booked bs ps) : (handleSolveMix p s).Meets (State.Booked bs ps) := by
  refine forSetup_meets fun l => ?_
  dsimp only
  split
  · exact Handled.meets_of_check (Handled.meets_of_check (h.appendJob l _))
  · trivial

/-! ### Every step -/

theorem exec_booked {c : Instr} (h : s.Booked bs ps) (ht : exec c s = .next t) : t.Booked bs ps := by
  cases c with
  | powerOn =>
    cases ht
    exact s.poweredOn_booked
  | rawLevelChange l i level => cases ht; exact h.frame l rfl
  | debouncedStateChange l i => exact execDebouncedStateChange_booked h ht
  | edge l phase => exact execEdge_booked h ht
  | controlPeriodEnd l => exact execControlPeriodEnd_booked h ht
  | stall l => exact execStall_booked h ht
  | switchEnd l => exact execSwitchEnd_booked h ht
  | settleEnd l => exact execSettleEnd_booked h ht
  | slotEnd l d => exact execSlotEnd_booked h ht
  | guidePoll l => exact execGuidePoll_booked h ht
  | turnDwellEnd l => exact execTurnDwellEnd_booked h ht
  | takeOrder l => cases ht; exact h.takeFrontOrder l
  | jobCompletion => exact execJobCompletion_booked h ht
  | reportRecord l => exact execReportRecord_booked h ht
  | frameReceived bytes | syncWordFound bytes | frameLengthOutOfRange bytes => cases ht; exact h.receive bytes
  | frameTimeout => exact execFrameTimeout_booked h ht
  | silenceTimeout => exact execSilenceTimeout_booked h ht
  | transmissionEnd => exact execTransmissionEnd_booked h ht
  | badKind => exact h.handle (f := fun _ _ => .refused .badKind) (fun _ _ _ => trivial) ht
  | status => exact h.handle (f := handleStatus) (fun _ _ hu => forUnit_meets hu) ht
  | setLink => exact h.handle (fun p _ hu => handleSetLink_booked p hu) ht
  | setLayout => exact h.handle (fun p _ hu => handleSetLayout_booked p hu) ht
  | setScan => exact h.handle (fun p _ hu => handleSetScan_booked p hu) ht
  | setChannel => exact h.handle (fun p _ hu => handleSetChannel_booked p hu) ht
  | setMix => exact h.handle (fun p _ hu => handleSetMix_booked p hu) ht
  | setLandmark => exact h.handle (fun p _ hu => handleSetLandmark_booked p hu) ht
  | setMotion => exact h.handle (fun p _ hu => handleSetMotion_booked p hu) ht
  | queueTube => exact h.handle (fun p _ hu => handleQueueTube_booked p hu) ht
  | cancelTube => exact h.handle (fun p _ hu => handleCancelTube_booked p hu) ht
  | abort => exact h.handle (fun p _ hu => handleAbort_booked p hu) ht
  | hold => exact h.handle (fun p _ hu => handleHold_booked p hu) ht
  | resume => exact h.handle (fun p _ hu => handleResume_booked p hu) ht
  | retract => exact h.handle (fun p _ hu => handleRetract_booked p hu) ht
  | laneReset => exact h.handle (f := handleLaneReset) (fun _ _ hu => forLaneLength_meets fun l => hu.resetLane l) ht
  | spanCal => exact h.handle (fun p _ hu => handleSpanCal_booked p hu) ht
  | solveMix => exact h.handle (fun p _ hu => handleSolveMix_booked p hu) ht

theorem step_booked (h : s.Booked bs ps) (ht : step s = .next t) : t.Booked bs ps := by
  unfold step at ht
  split at ht
  · cases ht
    exact h.of_fields rfl rfl rfl rfl
  · have taken : ∀ q, (s.withPending q).Booked bs ps := fun _ => h.of_fields rfl rfl rfl rfl
    exact exec_booked (taken _) ht

end

/-- Settles O5: the count of the buffers and the record being sent, which `step_booked` keeps. -/
theorem everyStepKeepsTheBuffers : Obligations.EveryStepKeepsTheBuffers := by
  rintro s t ⟨hcount, hfront⟩ hstep
  have booked : s.Booked True False := ⟨fun _ => hcount, fun _ => hfront, False.elim⟩
  have after := step_booked booked hstep
  exact ⟨after.count trivial, after.front trivial⟩

/-- Settles O6: the settled pool, which `step_booked` keeps. -/
theorem everyStepSettlesThePool : Obligations.EveryStepSettlesThePool := fun s _ hs hstep =>
  have booked : s.Booked False True := ⟨False.elim, False.elim, fun _ => hs⟩
  (step_booked booked hstep).pool trivial

end Sys2Proof.Machine

/-! The reports of FINISH (R98, R114, R148, R150, R169): what a record or a notice puts into the outbound queue, the order of the
landmarks in a SUMMARY, and the tube's leaving. -/

namespace Sys2Proof.Machine

/-! ### What joins the outbound queue -/

/-- With a free buffer a record joins the queue, and behind it at most two of the pool's own notices, each in a buffer (R159, R170). -/
theorem State.queueRecord_notifies {s : State} (hfree : s.pool.free ≠ 0) (r : Record) :
    ∃ more, more.length ≤ 2 ∧ (∀ k ∈ more, k.isPoolNotice) ∧ (s.queueRecord r).pool.queue = s.pool.queue ++ r :: more ∧
      (s.queueRecord r).pool.free + more.length + 1 = s.pool.free := by
  obtain ⟨more, hlen, h⟩ :=
    (({ s with pool := { s.pool with free := s.pool.free - 1 } } : State).enqueue r).testPool_notifies
  have hqueue := h.queue
  have hleft := h.free
  rw [State.enqueue_pool] at hqueue hleft
  refine ⟨more, hlen, h.own, ?_, ?_⟩
  · exact hqueue.trans (List.append_assoc _ _ _)
  · exact (congrArg (· + 1) hleft).trans (Nat.sub_add_cancel (Nat.pos_of_ne_zero hfree))

/-- A formed notice joins the queue where a buffer is free, with at most the pool's own behind it; else nothing does (R170). -/
theorem State.formNotice_queue (s : State) (n : Notice) :
    ∃ more, (s.formNotice n).pool.queue = s.pool.queue ++ more ∧ (∀ k ∈ more, k.isPoolNotice ∨ k = .notice n) ∧
      (s.pool.free ≠ 0 → .notice n ∈ more) := by
  unfold State.formNotice
  split
  next hnone =>
    refine ⟨[], ?_, List.forall_mem_nil _, fun hfree => absurd hnone hfree⟩
    rw [State.rawNotice_pool, if_pos hnone, List.append_nil]
  next hfree =>
    obtain ⟨more, _, hown, hqueue, _⟩ := State.queueRecord_notifies hfree (.notice n)
    refine ⟨.notice n :: more, hqueue, fun k hk => ?_, fun _ => List.mem_cons_self⟩
    obtain rfl | hk := List.mem_cons.1 hk
    · exact .inr rfl
    · exact .inl (hown k hk)

/-- A notice of FAULTED is formed where the event mask has its bit 5 (R182). -/
theorem State.emit_faulted_queue (s : State) (l : LaneId) (cause : Option FaultCause) :
    ∃ more, (s.emit l .faulted cause).pool.queue = s.pool.queue ++ more ∧
      (∀ k ∈ more, k.isPoolNotice ∨
        k = .notice { kind := .faulted, lane := some l, tag := (s.lane l).tag, cause := cause } ∧ s.link.mask.getLsbD 5 = true) ∧
      (s.link.mask.getLsbD 5 = true → s.pool.free ≠ 0 →
        .notice { kind := .faulted, lane := some l, tag := (s.lane l).tag, cause := cause } ∈ more) := by
  unfold State.emit
  split
  next hmask =>
    obtain ⟨more, hqueue, hown, hmem⟩ :=
      s.formNotice_queue { kind := .faulted, lane := some l, tag := (s.lane l).tag, cause := cause }
    exact ⟨more, hqueue, fun k hk => (hown k hk).imp_right fun heq => ⟨heq, hmask⟩, fun _ => hmem⟩
  next hmask => exact ⟨[], (List.append_nil _).symm, List.forall_mem_nil _, fun henabled => absurd henabled hmask⟩

/-! ### The landmarks of a SUMMARY (R98) -/

/-- The order of a SUMMARY's landmarks: by the position they are reported at. -/
abbrev LandmarkEntry.before : LandmarkEntry → LandmarkEntry → Prop := LandmarkEntry.position ⁻¹'o (· ≤ ·)

theorem insertByPosition_eq (e : LandmarkEntry) (es : List LandmarkEntry) :
    insertByPosition e es = es.orderedInsert LandmarkEntry.before e := by
  induction es with
  | nil => rfl
  | cons k rest ih => rw [insertByPosition, List.orderedInsert, ih]; rfl

/-- The sort of the landmarks is the library's insertion sort. -/
theorem sortLandmarks_eq (es : List LandmarkEntry) : sortLandmarks es = es.insertionSort LandmarkEntry.before := by
  induction es with
  | nil => rfl
  | cons e rest ih => rw [sortLandmarks, insertByPosition_eq, ih, List.insertionSort_cons]

theorem sortLandmarks_perm (es : List LandmarkEntry) : (sortLandmarks es).Perm es := by
  rw [sortLandmarks_eq]
  exact List.perm_insertionSort _ es

theorem sortLandmarks_ascending (es : List LandmarkEntry) : (sortLandmarks es).Pairwise fun a b => a.position ≤ b.position := by
  rw [sortLandmarks_eq]
  exact List.pairwise_insertionSort LandmarkEntry.before es

/-- Entries of one position keep their order: they are a sublist in order already, which the sort keeps. -/
theorem sortLandmarks_stable (es : List LandmarkEntry) (q : Int) :
    ((sortLandmarks es).filter fun a => decide (a.position = q)) = es.filter fun a => decide (a.position = q) := by
  have hordered : (es.filter fun a => decide (a.position = q)).Pairwise LandmarkEntry.before :=
    List.pairwise_of_forall_mem_list fun a ha b hb => by
      rw [List.mem_filter, decide_eq_true_eq] at ha hb
      exact (ha.2.trans hb.2.symm).le
  have hsub : (es.filter fun a => decide (a.position = q)).Sublist (sortLandmarks es) := by
    rw [sortLandmarks_eq]
    exact List.sublist_insertionSort hordered List.filter_sublist
  have hkept := hsub.filter fun a => decide (a.position = q)
  rw [List.filter_filter] at hkept
  simp only [Bool.and_self] at hkept
  exact (hkept.eq_of_length ((sortLandmarks_perm es).filter _).length_eq.symm).symm

/-! ### The tube leaves the lane (R148, R150) -/

section

variable {s : State} {l : LaneId} {u : Tube}

theorem Lane.closeTube_some {x : Lane} (h : x.ctl.tube = some u) :
    x.closeTube =
      x.updCtl fun c => { c with tube := none, rearm := if u.enteredInsert then !x.drive.guide.active else c.rearm } := by
  rw [Lane.closeTube, Lane.updateRearm_some h]
  rfl

/-- The lane that the tube leaves. -/
theorem State.leaveFinish_ctl (h : (s.lane l).ctl.tube = some u) (fault : Option FaultCause) :
    ((s.leaveFinish l fault).lane l).ctl.tube = none ∧
      ((s.leaveFinish l fault).lane l).ctl.rearm = (if u.enteredInsert then !(s.lane l).drive.guide.active else (s.lane l).ctl.rearm) ∧
      ((s.leaveFinish l fault).lane l).ctl.state = if fault.isSome then .faulted else .idle := by
  have hclosed := Lane.closeTube_some h
  cases fault with
  | none =>
    rw [State.leaveFinish, State.lane_upd, State.lane_upd, hclosed]
    exact ⟨rfl, rfl, rfl⟩
  | some cause =>
    rw [State.leaveFinish, State.enterFaulted, State.emit_lane, State.lane_upd, State.lane_upd, hclosed]
    exact ⟨rfl, rfl, rfl⟩

/-- The tube that leaves with its fault mark set leaves a FAULTED notice without a tag. -/
theorem State.leaveFinish_queue (s : State) (l : LaneId) (fault : Option FaultCause) :
    ∃ more, (s.leaveFinish l fault).pool.queue = s.pool.queue ++ more ∧
      (∀ k ∈ more, k.isPoolNotice ∨
        k = .notice { kind := .faulted, lane := some l, tag := none, cause := fault } ∧ fault.isSome = true ∧
          s.link.mask.getLsbD 5 = true) ∧
      (fault.isSome = true → s.link.mask.getLsbD 5 = true → s.pool.free ≠ 0 →
        .notice { kind := .faulted, lane := some l, tag := none, cause := fault } ∈ more) := by
  cases fault with
  | none =>
    rw [State.leaveFinish, State.upd_pool, State.upd_pool]
    exact ⟨[], (List.append_nil _).symm, List.forall_mem_nil _, nofun⟩
  | some cause =>
    obtain ⟨more, hqueue, hown, hmem⟩ :=
      ((s.upd l Lane.closeTube).upd l fun x =>
        ((x.stopDrive).enter .faulted).updCtl fun c => { c with heldPhase := none, returnTo := none }).emit_faulted_queue l (some cause)
    rw [State.upd_pool, State.upd_pool] at hqueue
    simp only [State.upd_link, State.upd_pool, State.lane_upd] at hown hmem
    exact ⟨more, hqueue, fun k hk => (hown k hk).imp_right fun ⟨heq, henabled⟩ => ⟨heq, rfl, henabled⟩, fun _ => hmem⟩

/-! ### The next report (R169) -/

theorem exec_reportRecord (s : State) (l : LaneId) : exec (.reportRecord l) s = execReportRecord l s := by rfl

/-- In step 3 of FINISH the report assembler queues the next record as soon as a buffer is free. -/
theorem exec_reportRecord_located (hst : (s.lane l).ctl.state = .finish) (htube : (s.lane l).ctl.tube = some u)
    (hlocated : u.located = true) : exec (.reportRecord l) s = .next (if 1 ≤ s.pool.free then s.report l u else s) := by
  rw [exec_reportRecord, execReportRecord, hst, htube]
  simp only [hlocated, true_and]

theorem State.report_catalogue (htube : (s.lane l).ctl.tube = some u) (hfree : 1 ≤ s.pool.free) (hleft : u.reported < u.recordCount) :
    ∃ more, s.sameOther l (s.report l u) ∧
      (s.report l u).pool.queue = s.pool.queue ++ u.catalogueRecord l (u.reported + 1) :: more ∧
      (∀ k ∈ more, k.isPoolNotice) ∧
      ((s.report l u).lane l).ctl = { (s.lane l).ctl with tube := some { u with reported := u.reported + 1 } } := by
  rw [State.report, if_pos hleft]
  have hsome : (s.upd l fun x => x.updTube fun v => { v with reported := v.reported + 1 }).pool.free ≠ 0 := by
    rw [State.upd_pool]
    exact Nat.ne_of_gt hfree
  obtain ⟨more, _, hown, hqueue, _⟩ := State.queueRecord_notifies hsome (u.catalogueRecord l (u.reported + 1))
  rw [State.upd_pool] at hqueue
  refine ⟨more, ?_, hqueue, hown, ?_⟩
  · rw [State.sameOther, (State.queueRecord_reports _ _).lane, State.lane_upd_other]
  · rw [(State.queueRecord_reports _ _).lane, State.lane_upd, Lane.updTube_some htube]

theorem State.report_summary (htube : (s.lane l).ctl.tube = some u) (hfree : 1 ≤ s.pool.free) (hlast : u.recordCount ≤ u.reported) :
    ∃ more, s.sameOther l (s.report l u) ∧
      (s.report l u).pool.queue = s.pool.queue ++ .summary l ((s.lane l).summary u) :: more ∧
      (∀ k ∈ more, k.isPoolNotice ∨
        k = .notice { kind := .faulted, lane := some l, tag := none, cause := u.fault } ∧ u.fault.isSome = true ∧
          s.link.mask.getLsbD 5 = true) ∧
      (u.fault.isSome = true → s.link.mask.getLsbD 5 = true → 4 ≤ s.pool.free →
        .notice { kind := .faulted, lane := some l, tag := none, cause := u.fault } ∈ more) ∧
      ((s.report l u).lane l).ctl.tube = none ∧
      ((s.report l u).lane l).ctl.rearm = (if u.enteredInsert then !(s.lane l).drive.guide.active else (s.lane l).ctl.rearm) ∧
      ((s.report l u).lane l).ctl.state = if u.fault.isSome then .faulted else .idle := by
  rw [State.report, if_neg (Nat.not_lt.2 hlast)]
  have hreports := s.queueRecord_reports (.summary l ((s.lane l).summary u))
  obtain ⟨own, hlen, hown, hqueue, hcount⟩ :=
    State.queueRecord_notifies (Nat.ne_of_gt hfree) (.summary l ((s.lane l).summary u))
  generalize s.queueRecord (.summary l ((s.lane l).summary u)) = q at hreports hqueue hcount ⊢
  have hlane := hreports.lane l
  have hmask : q.link.mask = s.link.mask := by rw [hreports.link]
  obtain ⟨last, hthen, hlast, hmem⟩ := q.leaveFinish_queue l u.fault
  have hctl := State.leaveFinish_ctl (s := q) (by rw [hlane]; exact htube) u.fault
  rw [hmask] at hlast hmem
  rw [hlane] at hctl
  refine ⟨own ++ last, ?_, ?_, fun k hk => ?_, fun hfault henabled hfour => ?_, hctl⟩
  · exact (State.leaveFinish_keeps q l u.fault).other.trans (hreports.lane _)
  · rw [hthen, hqueue, List.append_assoc, List.cons_append]
  · exact (List.mem_append.1 hk).elim (fun hk => .inl (hown k hk)) (hlast k)
  · exact List.mem_append.2 (.inr (hmem hfault henabled (by omega)))

end

/-- Settles O54: the next CATALOGUE record by `State.report_catalogue`, the SUMMARY and the tube's leaving by `State.report_summary`, the
landmarks' order by the library's insertion sort. -/
theorem reportsAreQueuedInFinish : Obligations.ReportsAreQueuedInFinish := by
  intro s l u n hst htube hlocated hn
  have hcount : u.recordCount = n := hn.symm
  have hexec := exec_reportRecord_located hst htube hlocated
  refine ⟨fun hnone => ?_, fun hfree hleft => ?_, fun hfree hlast => ?_⟩
  · rw [hexec, if_neg (by omega)]
  · rw [if_pos hfree] at hexec
    obtain ⟨more, hother, hqueue, hown, hctl⟩ := State.report_catalogue htube hfree (hcount ▸ hleft)
    rw [Tube.catalogueRecord, hcount] at hqueue
    exact ⟨_, more, hexec, hother, hqueue, hown, hctl⟩
  · rw [if_pos hfree] at hexec
    obtain ⟨more, hother, hqueue, hown, hmem, htube', hrearm, hstate⟩ := State.report_summary htube hfree (hcount ▸ hlast)
    refine ⟨_, more, (s.lane l).summary u, _, hexec, hother, hqueue, ?_, sortLandmarks_perm _, sortLandmarks_ascending _,
      sortLandmarks_stable _, rfl, fun k hk => or_assoc.1 (hown k hk), hmem, htube', hrearm, hstate⟩
    rw [Lane.summary, hcount]

end Sys2Proof.Machine

/-! The state after reset: record memory (R172), and every invariant of the unit. -/

namespace Sys2Proof.Machine

/-- Reset is a power-on. What a power-on has, the state after reset has too. -/
theorem State.reset_eq_poweredOn : State.reset = State.reset.poweredOn := by rfl

theorem State.reset_lane (l : LaneId) : State.reset.lane l = Lane.reset := by cases l <;> rfl

/-! ### Record memory (R172) -/

theorem Lane.reset_mix (ch : Nat) : Lane.reset.mix ch = MixChannel.reset := by
  have hmixes : Lane.reset.mixes = List.replicate 4 MixChannel.reset := rfl
  rw [Lane.mix, hmixes, List.getD_eq_getElem?_getD, List.getElem?_getD_replicate_default_eq]

/-- Without scan slots and mix definitions no channel is active (R42, R43). -/
theorem Lane.reset_active (ch : Nat) : Lane.reset.active ch = false := by
  obtain hbase | hmix := Nat.lt_or_ge ch 16
  · rw [Lane.active_of_base _ hbase]
    rfl
  · exact Lane.active_of_undefined hmix (by rw [Lane.reset_mix]; rfl)

theorem Lane.mask_of_inactive {x : Lane} (h : ∀ ch, x.active ch = false) (k : BlockKind) : x.mask k = [] :=
  List.filter_eq_nil_iff.2 fun ch _ => by simp [h ch]

/-- Settles O2: the power-on values, and `Lane.reset_active` for the channels. -/
theorem recordMemoryAtReset : Obligations.RecordMemoryAtReset := by
  refine ⟨rfl, rfl, rfl, rfl, rfl, rfl, fun l => ?_⟩
  rw [State.reset_lane]
  exact ⟨rfl, rfl, rfl, Lane.reset_active, Lane.mask_of_inactive Lane.reset_active, rfl, rfl, rfl⟩

/-! ### The invariants -/

theorem State.reset_sound : State.reset.Sound True .free := State.reset_eq_poweredOn ▸ State.reset.poweredOn_sound

theorem State.reset_buffersKept : State.reset.buffersKept := ⟨rfl, .inl rfl⟩

theorem State.reset_poolSettled : State.reset.poolSettled := by decide

theorem State.reset_jobsLegal (l : LaneId) : (State.reset.lane l).jobsLegal := (State.reset_sound.lanes trivial l).jobsLegal

theorem Lane.reset_worklistLegal : Lane.reset.worklistLegal := .of_empty rfl

theorem Lane.reset_windowLegal : Lane.reset.windowLegal := ⟨Nat.zero_le _, rfl⟩

theorem Lane.reset_sized : Lane.reset.sized :=
  ⟨Nat.zero_le _, Nat.zero_le _, List.length_replicate, List.length_replicate, List.length_replicate, Nat.zero_le _, Nat.zero_le _⟩

/-- Settles O13: reset is a power-on, after which each family of invariants holds, both lanes being halted and empty. -/
theorem resetHasEveryInvariant : Obligations.ResetHasEveryInvariant := by
  have hpowered := State.reset_eq_poweredOn
  refine ⟨?motor, State.reset_buffersKept, State.reset_poolSettled, State.reset_sound.flightKept, State.reset_sound.works,
    ⟨State.reset_jobsLegal .a, State.reset_jobsLegal .b⟩, ⟨Lane.reset_worklistLegal, Lane.reset_worklistLegal, Nat.zero_le _⟩,
    ⟨Lane.reset_windowLegal, Lane.reset_windowLegal⟩, ?catalogues, ?landmarks,
    ⟨Lane.positionFits_of_unset rfl, Lane.positionFits_of_unset rfl⟩, ⟨Lane.reset_sized, Lane.reset_sized, List.length_replicate⟩⟩
  case motor => exact (State.motorLaw_iff _).2 (hpowered ▸ State.reset.poweredOn_lawful)
  case catalogues => exact (State.cataloguesLegal_iff _).2 (hpowered ▸ State.reset.poweredOn_catalogued)
  case landmarks => exact (State.landmarksLegal_iff _).2 (hpowered ▸ State.reset.poweredOn_parted)

end Sys2Proof.Machine

/-! Requests to a lane (R177, R185): what a request row takes from the queue, and that a request to a lane keeps to that lane. -/

namespace Sys2Proof.Machine

/-! ### The handler of a request row (R177) -/

/-- The meaning of a request row: what becomes of a frame of its kind. Another command takes no frame. -/
def requestHandler (c : Instr) : List Byte → State → Handled :=
  match c with
  | .status => handleStatus
  | .setLink => handleSetLink
  | .setLayout => handleSetLayout
  | .setScan => handleSetScan
  | .setChannel => handleSetChannel
  | .setMix => handleSetMix
  | .setLandmark => handleSetLandmark
  | .setMotion => handleSetMotion
  | .queueTube => handleQueueTube
  | .cancelTube => handleCancelTube
  | .abort => handleAbort
  | .hold => handleHold
  | .resume => handleResume
  | .retract => handleRetract
  | .laneReset => handleLaneReset
  | .spanCal => handleSpanCal
  | .solveMix => handleSolveMix
  | _ => fun _ _ => .refused .badKind

/-- A request row is its handler, given the front frame if that is of the row's kind. -/
theorem exec_request {c : Instr} {k : Nat} (hk : requestKind c = some k) (s : State) :
    exec c s = .next (s.handle (kindIs k) (requestHandler c)) := by
  cases c <;> cases hk <;> rfl

/-- A request row whose frame the handler can take carries it out. -/
theorem exec_request_taken {s : State} {p : List Byte} {c : Instr} (ht : s.takes p) (hk : requestKind c = some (u8At p 0)) :
    exec c s = .next (s.popRequest.conclude p (requestHandler c p s.popRequest)) := by
  rw [exec_request hk, State.handle_kind ht rfl]

/-! ### A request to a lane reaches no other (3.1) -/

section

variable {s t : State} {p : List Byte} {l : LaneId} {P : State → Prop}

theorem forLane_named (hl : laneOf p = some l) (f : LaneId → Handled) : forLane p f = f l := by rw [forLane, hl]

/-- A request to a lane comes to what it does in the lane that its lane byte names, or to a refusal. -/
theorem forSetup_meets_named {n : Nat} {f : LaneId → Handled} (hl : laneOf p = some l) (h : (f l).Meets P) :
    (forSetup p s n f).Meets P := by
  rw [forSetup, forLane_named hl]
  exact Handled.meets_of_check (Handled.meets_of_check h)

theorem forLaneLength_meets_named {n : Nat} {f : LaneId → Handled} (hl : laneOf p = some l) (h : (f l).Meets P) :
    (forLaneLength p n f).Meets P := by
  rw [forLaneLength, forLane_named hl]
  exact Handled.meets_of_check h

theorem handleSetScan_keeps (hl : laneOf p = some l) : (handleSetScan p s).Meets (State.KeepsTo l s) := by
  refine forSetup_meets_named hl ?_
  split
  · exact State.KeepsTo.upd l s _
  · trivial

theorem handleSetChannel_keeps (hl : laneOf p = some l) : (handleSetChannel p s).Meets (State.KeepsTo l s) := by
  refine forSetup_meets_named hl (Handled.meets_of_check ?_)
  split
  · exact State.KeepsTo.upd l s _
  · trivial

theorem handleSetMix_keeps (hl : laneOf p = some l) : (handleSetMix p s).Meets (State.KeepsTo l s) := by
  have mixed : ∀ (ch : Nat) (m : MixChannel), (s.setMix l ch m).Meets (State.KeepsTo l s) := fun _ _ => State.KeepsTo.upd l s _
  refine forSetup_meets_named hl (Handled.meets_of_check ?_)
  split
  · exact mixed _ _
  · split
    · split
      · exact mixed _ _
      · trivial
    · trivial

theorem handleSetLandmark_keeps (hl : laneOf p = some l) : (handleSetLandmark p s).Meets (State.KeepsTo l s) := by
  refine forSetup_meets_named hl ?_
  split
  · exact State.KeepsTo.upd l s _
  · trivial

theorem handleSetMotion_keeps (hl : laneOf p = some l) : (handleSetMotion p s).Meets (State.KeepsTo l s) := by
  refine forSetup_meets_named hl ?_
  split
  · exact State.KeepsTo.upd_trans (State.KeepsTo.foldl (State.settleInput_keeps l) allInputs _)
  · trivial

theorem handleQueueTube_keeps (hl : laneOf p = some l) : (handleQueueTube p s).Meets (State.KeepsTo l s) := by
  have queued : State.KeepsTo l s ((s.upd l fun y => y.appendOrder (orderAt p)).takeFrontOrder l) :=
    .upd_trans (State.takeFrontOrder_keeps _ l)
  exact forLaneLength_meets_named hl (Handled.meets_of_check (Handled.meets_of_check (Handled.meets_of_check
    (Handled.meets_of_check (Handled.meets_of_check queued)))))

theorem handleCancelTube_keeps (hl : laneOf p = some l) : (handleCancelTube p s).Meets (State.KeepsTo l s) := by
  refine forLaneLength_meets_named hl ?_
  dsimp only
  split
  · exact State.KeepsTo.upd l s _
  · trivial

theorem handleAbort_keeps (hl : laneOf p = some l) : (handleAbort p s).Meets (State.KeepsTo l s) := by
  refine forLaneLength_meets_named hl ?_
  split
  next u hu => exact (s.abortLane_keeps u l hu).trans (u.holdIfLost_keeps l)
  · trivial

theorem handleHold_keeps (hl : laneOf p = some l) : (handleHold p s).Meets (State.KeepsTo l s) := by
  refine forLaneLength_meets_named hl ?_
  dsimp only
  split
  · exact s.enterHeld_keeps l
  · split
    · exact State.KeepsTo.refl l s
    · trivial

theorem handleResume_keeps (hl : laneOf p = some l) : (handleResume p s).Meets (State.KeepsTo l s) := by
  refine forLaneLength_meets_named hl ?_
  split
  · exact (s.resumeLane_keeps l).trans (State.holdIfLost_keeps _ l)
  · trivial

theorem handleRetract_keeps (hl : laneOf p = some l) : (handleRetract p s).Meets (State.KeepsTo l s) := by
  refine forLaneLength_meets_named hl ?_
  dsimp only
  split
  · exact (s.startRetract_keeps l).trans (State.holdIfLost_keeps _ l)
  · trivial

theorem handleLaneReset_keeps (hl : laneOf p = some l) : (handleLaneReset p s).Meets (State.KeepsTo l s) :=
  forLaneLength_meets_named hl (s.resetLane_keeps l)

theorem handleSpanCal_keeps (hl : laneOf p = some l) : (handleSpanCal p s).Meets (State.KeepsTo l s) :=
  forSetup_meets_named hl (Handled.meets_of_check (Handled.meets_of_check (Handled.meets_of_check (Handled.meets_of_check
    (s.appendJob_keeps l _)))))

theorem handleSolveMix_keeps (hl : laneOf p = some l) : (handleSolveMix p s).Meets (State.KeepsTo l s) := by
  refine forSetup_meets_named hl ?_
  dsimp only
  split
  · exact Handled.meets_of_check (Handled.meets_of_check (s.appendJob_keeps l _))
  · trivial

/-- The kinds 1 to 3 are requests to the unit; every other request keeps to the lane that it names. -/
theorem requestHandler_keeps {c : Instr} {k : Nat} (hk : requestKind c = some k) (hlane : 4 ≤ k) (hl : laneOf p = some l) :
    (requestHandler c p s).Meets (State.KeepsTo l s) := by
  cases c with
  | status | setLink | setLayout => cases hk; contradiction
  | setScan => exact handleSetScan_keeps hl
  | setChannel => exact handleSetChannel_keeps hl
  | setMix => exact handleSetMix_keeps hl
  | setLandmark => exact handleSetLandmark_keeps hl
  | setMotion => exact handleSetMotion_keeps hl
  | queueTube => exact handleQueueTube_keeps hl
  | cancelTube => exact handleCancelTube_keeps hl
  | abort => exact handleAbort_keeps hl
  | hold => exact handleHold_keeps hl
  | resume => exact handleResume_keeps hl
  | retract => exact handleRetract_keeps hl
  | laneReset => exact handleLaneReset_keeps hl
  | spanCal => exact handleSpanCal_keeps hl
  | solveMix => exact handleSolveMix_keeps hl
  | _ => cases hk

/-- A reply to a request that kept to its lane touches slot and transmitter, a request in flight the handler. -/
theorem State.conclude_keeps {o : Handled} (h : o.Meets (State.KeepsTo l s.popRequest)) (ht : s.popRequest.conclude p o = t) :
    s.sameBeyond l t ∧
      t.link = { s.link with requests := t.link.requests, handler := t.link.handler, slot := t.link.slot, tx := t.link.tx } := by
  have replied : ∀ {u : State} (r : Reply), State.KeepsTo l s.popRequest u → s.sameBeyond l (u.placeReply r) ∧
      (u.placeReply r).link =
        { s.link with
          requests := (u.placeReply r).link.requests, handler := (u.placeReply r).link.handler, slot := (u.placeReply r).link.slot,
          tx := (u.placeReply r).link.tx } := fun {u} r hu => by
    refine ⟨hu.sameBeyond r, ?_⟩
    rw [(u.placeReply_reports r).link, hu.link]
    rfl
  subst ht
  cases o with
  | refused code => exact replied _ (.refl l _)
  | done u body => exact replied _ h
  | inFlight u =>
    have hu : State.KeepsTo l s.popRequest u := h
    refine ⟨⟨?_, hu.layouts, hu.clock, hu.pending⟩, ?_⟩
    · exact (u.working_lane _ _).trans (hu.other.trans (s.popRequest_lane _))
    · rw [State.conclude, State.working_link, hu.link]
      rfl

end

/-- Settles O15: each handler of a lane's request keeps to its lane (`requestHandler_keeps`), and so does the reply. -/
theorem requestsKeepToTheirLane : Obligations.RequestsKeepToTheirLane := by
  rintro s t c p l ht ⟨hkind, hl⟩ hlane hexec
  rw [exec_request_taken ht hkind] at hexec
  exact State.conclude_keeps (requestHandler_keeps hkind hlane hl) (Host.Outcome.next.inj hexec)

end Sys2Proof.Machine

/-! The receiver (R173 to R175): sync words, frames whole and bad, and what a good frame does. -/

namespace Sys2Proof.Machine

/-! ### The events of the station line -/

theorem exec_syncWordFound (s : State) (bytes : List Byte) : exec (.syncWordFound bytes) s = .next (s.receive bytes) := by rfl

theorem exec_frameLengthOutOfRange (s : State) (bytes : List Byte) :
    exec (.frameLengthOutOfRange bytes) s = .next (s.receive bytes) := by rfl

theorem exec_frameReceived (s : State) (bytes : List Byte) : exec (.frameReceived bytes) s = .next (s.receive bytes) := by rfl

theorem exec_frameTimeout (s : State) : exec .frameTimeout s = execFrameTimeout s := by rfl

/-! ### Numbers in bytes (11.1) -/

@[simp] theorem length_leBytes (k v : Nat) : (leBytes k v).length = k := by
  induction k generalizing v with
  | zero => rfl
  | succ k ih => rw [leBytes, List.length_cons, ih]

/-- Two length bytes give back the length that they were formed of. -/
theorem lengthField_leBytes {n : Nat} (h : n < 65536) : lengthField (BitVec.ofNat 8 n) (BitVec.ofNat 8 (n / 256)) = n := by
  rw [lengthField, BitVec.toNat_ofNat, BitVec.toNat_ofNat]
  omega

/-- A counter of the unit stops at its greatest value (R184). -/
theorem countUp_count32 (n : Nat) : countUp Config.count32Max n = if n < 4294967295 then n + 1 else n := rfl

theorem lengthInRange_iff (n : Nat) : lengthInRange n = true ↔ 4 ≤ n ∧ n ≤ 2040 := by
  simp [lengthInRange]

/-! ### One byte (R173) -/

section

variable {s : State} {got : List Byte} {b : Byte}

/-- The state with the receiver in the given position. -/
def State.withRx (s : State) (r : Receiver) : State := { s with link := { s.link with rx := r } }

@[simp] theorem State.withRx_rx (s : State) (r : Receiver) : (s.withRx r).link.rx = r := rfl

@[simp] theorem State.withRx_withRx (s : State) (r q : Receiver) : (s.withRx r).withRx q = s.withRx q := rfl

/-- The frame is judged alike wherever the receiver stood. -/
theorem State.judge_withRx (s : State) (r : Receiver) (got : List Byte) : (s.withRx r).judge got = s.judge got := rfl

/-- A byte behind one that was no first sync byte is looked at for itself. -/
theorem State.rxByte_hunting {seen : Bool} (h : s.link.rx = .hunting seen) (hno : ¬ (seen = true ∧ b = syncSecond)) :
    s.rxByte b = s.withRx (.hunting (b == syncFirst)) := by
  unfold State.rxByte
  rw [h]
  exact if_neg (by simpa using hno)

/-- The second sync byte behind the first begins a frame. -/
theorem State.rxByte_sync (h : s.link.rx = .hunting true) : s.rxByte syncSecond = s.withRx (.inFrame []) := by
  unfold State.rxByte
  rw [h]
  rfl

theorem State.rxByte_inFrame (h : s.link.rx = .inFrame got) (b : Byte) : s.rxByte b = s.frameByte (got ++ [b]) := by
  unfold State.rxByte
  rw [h]

/-- The first length byte alone decides nothing. -/
theorem State.frameByte_one (s : State) (b : Byte) : s.frameByte [b] = s.withRx (.inFrame [b]) := by
  simp [State.frameByte, State.withRx]

/-- A length out of range makes the frame bad at its second length byte. -/
theorem State.frameByte_badLength (s : State) {lo hi : Byte} (h : lengthInRange (lengthField lo hi) = false) :
    s.frameByte [lo, hi] = s.badFrame := if_pos ⟨rfl, h⟩

/-- A length in range is taken, and so is every byte short of the last CRC byte. -/
theorem State.frameByte_short (s : State) {lo hi : Byte} {rest : List Byte} (h : lengthInRange (lengthField lo hi) = true)
    (hlen : rest.length < lengthField lo hi + 4) :
    s.frameByte (lo :: hi :: rest) = s.withRx (.inFrame (lo :: hi :: rest)) := by
  have hfield : lengthOf (lo :: hi :: rest) = lengthField lo hi := rfl
  unfold State.frameByte
  rw [hfield, h, if_neg (by simp), if_neg (by simp only [List.length_cons]; omega)]
  rfl

/-- With the last CRC byte the frame is judged. -/
theorem State.frameByte_last (s : State) {lo hi : Byte} {rest : List Byte} (h : lengthInRange (lengthField lo hi) = true)
    (hlen : rest.length = lengthField lo hi + 4) : s.frameByte (lo :: hi :: rest) = s.judge (lo :: hi :: rest) := by
  have hfield : lengthOf (lo :: hi :: rest) = lengthField lo hi := rfl
  unfold State.frameByte
  rw [hfield, h, if_neg (by simp), if_pos (by simp only [List.length_cons]; omega)]

/-! ### A whole frame (R173, R174) -/

/-- From its length bytes on, the receiver reads a frame byte by byte and judges it with the last. -/
theorem State.foldl_rxByte_rest {lo hi : Byte} (h : lengthInRange (lengthField lo hi) = true) (more : List Byte) :
    ∀ {s : State} {read : List Byte}, s.link.rx = .inFrame (lo :: hi :: read) → more ≠ [] →
      (read ++ more).length = lengthField lo hi + 4 → more.foldl State.rxByte s = s.judge (lo :: hi :: (read ++ more)) := by
  induction more with
  | nil => exact fun _ hne => absurd rfl hne
  | cons b more ih =>
    intro s read hrx _ hlen
    rw [List.foldl_cons, State.rxByte_inFrame hrx]
    cases more with
    | nil => exact s.frameByte_last h hlen
    | cons c more =>
      have happ : read ++ b :: c :: more = (read ++ [b]) ++ c :: more := by
        rw [List.append_assoc]
        rfl
      rw [happ] at hlen ⊢
      have hshort : (read ++ [b]).length < lengthField lo hi + 4 := by
        rw [List.length_append, List.length_cons] at hlen
        omega
      rw [List.cons_append, List.cons_append, s.frameByte_short h hshort, ih (State.withRx_rx _ _) (List.cons_ne_nil _ _) hlen,
        State.judge_withRx]

/-- A frame behind its sync word is judged at its end, where its length is in range. -/
theorem State.foldl_rxByte_frame {payload check : List Byte} (hrx : s.link.rx = .inFrame []) (hlo : 4 ≤ payload.length)
    (hhi : payload.length ≤ 2040) (hcheck : check.length = 4) :
    (leBytes 2 payload.length ++ payload ++ check).foldl State.rxByte s = s.judge (leBytes 2 payload.length ++ payload ++ check) := by
  have hfield := lengthField_leBytes (n := payload.length) (by omega)
  have hin : lengthInRange (lengthField (BitVec.ofNat 8 payload.length) (BitVec.ofNat 8 (payload.length / 256))) = true := by
    rw [hfield, lengthInRange_iff]
    exact ⟨hlo, hhi⟩
  have hne : payload ++ check ≠ [] := List.ne_nil_of_length_pos (by rw [List.length_append]; omega)
  rw [List.append_assoc]
  show (payload ++ check).foldl State.rxByte ((s.rxByte _).rxByte _) = _
  rw [State.rxByte_inFrame hrx, List.nil_append, State.frameByte_one, State.rxByte_inFrame (State.withRx_rx _ _),
    List.singleton_append, State.frameByte_short (rest := []) _ hin (Nat.succ_pos _),
    State.foldl_rxByte_rest hin _ (State.withRx_rx _ _) hne (by rw [hfield, List.nil_append, List.length_append, hcheck])]
  rfl

/-- A frame with the CRC of what it covers is good, with its payload as sent; with another it is bad. -/
theorem State.judge_frame (s : State) {payload : List Byte} (check : List Byte) (hlen : payload.length < 65536) :
    s.judge (leBytes 2 payload.length ++ payload ++ check) =
      if check = leBytes 4 (crc32 (leBytes 2 payload.length ++ payload)).toNat then (s.withRx (.hunting false)).goodFrame payload
      else s.badFrame := by
  have hlength : lengthOf (leBytes 2 payload.length ++ payload ++ check) = payload.length := lengthField_leBytes hlen
  have hcovered : (leBytes 2 payload.length ++ payload).length = 2 + payload.length := by rw [List.length_append, length_leBytes]
  have hpayload : ((leBytes 2 payload.length ++ payload ++ check).drop 2).take payload.length = payload := by
    rw [List.append_assoc, List.drop_left' (length_leBytes 2 _), List.take_left' rfl]
  unfold State.judge crcMatches
  dsimp only
  rw [hlength, List.take_left' hcovered, List.drop_left' hcovered, hpayload]
  simp only [beq_iff_eq]
  rfl

/-! ### Hunting (R173) -/

/-- The sync word is found where it first stands, behind whatever byte came last. -/
theorem State.foldl_rxByte_hunting (bytes : List Byte) :
    ∀ {s : State} {b : Byte}, s.link.rx = .hunting (b == syncFirst) → endsInSync (b :: bytes) = true →
      bytes.foldl State.rxByte s = s.withRx (.inFrame []) := by
  induction bytes with
  | nil => exact fun _ hend => by simp [endsInSync] at hend
  | cons c bytes ih =>
    intro s b hrx hend
    rw [List.foldl_cons]
    cases bytes with
    | nil =>
      obtain ⟨hb, hc⟩ : b = syncFirst ∧ c = syncSecond := by simpa [endsInSync] using hend
      rw [hb, beq_self_eq_true] at hrx
      rw [hc, State.rxByte_sync hrx, List.foldl_nil]
    | cons d bytes =>
      obtain ⟨hno, hend⟩ : ¬ (b = syncFirst ∧ c = syncSecond) ∧ endsInSync (c :: d :: bytes) = true := by
        simpa [endsInSync, imp_iff_not_or] using hend
      rw [State.rxByte_hunting hrx (by simpa using hno), ih (State.withRx_rx _ _) hend, State.withRx_withRx]

/-- The receiver hunting reads the frame that the unit would send, and takes it as good. -/
theorem State.receive_frameOf {payload : List Byte} {seen : Bool} (hrx : s.link.rx = .hunting seen) (hlo : 4 ≤ payload.length)
    (hhi : payload.length ≤ 2040) :
    s.receive (frameOf payload) =
      let t := (s.withRx (.hunting false)).goodFrame payload
      { t with link := { t.link with lastByte := t.clock } } := by
  have hfirst : s.rxByte syncFirst = s.withRx (.hunting true) := State.rxByte_hunting hrx (by simp [syncFirst, syncSecond])
  unfold State.receive frameOf frameBody
  rw [List.foldl_cons, List.foldl_cons, hfirst, State.rxByte_sync (State.withRx_rx _ _),
    State.foldl_rxByte_frame (State.withRx_rx _ _) hlo hhi (length_leBytes 4 _), State.judge_withRx, State.judge_withRx,
    s.judge_frame _ (by omega), if_pos rfl]

end

/-- Settles O16: the frame is good by `State.receive_frameOf`, and over an UP link a good frame changes the link alone. -/
theorem framesSentAreFramesReceived : Obligations.FramesSentAreFramesReceived := by
  intro s payload seen hrx hup hlo hhi
  rw [exec_frameReceived, State.receive_frameOf hrx hlo hhi]
  have hgood : (s.withRx (.hunting false)).signOfLife =
      { s with link := { s.link with
          rx := .hunting false, silenceDue := some (s.clock + s.link.silence * 1000000), up := s.link.up } } := by
    unfold State.signOfLife State.withRx
    rw [hup]
    rfl
  unfold State.goodFrame Link.accept
  rw [hgood]
  dsimp only
  by_cases hroom : s.link.requests.length < 4
  · simp [hroom, Config.requestQueueMax]
  · simp [hroom, Config.requestQueueMax, countUp_count32]

/-- Settles O17: hunting by `State.foldl_rxByte_hunting`, the bad frames where the receiver judges them. -/
theorem theReceiverHuntsAndJudges : Obligations.TheReceiverHuntsAndJudges := by
  refine ⟨fun s bytes hrx hend => ?sync, fun s lo hi hrx hlen => ?length, fun s payload check hrx hlo hhi hcheck hwrong => ?crc,
    fun s got hrx => ?gap⟩
  case sync =>
    cases bytes with
    | nil => simp [endsInSync] at hend
    | cons b bytes =>
      rw [exec_syncWordFound, State.receive, List.foldl_cons, State.rxByte_hunting hrx (by simp),
        State.foldl_rxByte_hunting bytes (State.withRx_rx _ _) hend]
      rfl
  case length =>
    have hout : lengthInRange (lengthField lo hi) = false := by
      rw [← Bool.not_eq_true, lengthInRange_iff]
      omega
    rw [exec_frameLengthOutOfRange, State.receive, List.foldl_cons, List.foldl_cons, List.foldl_nil, State.rxByte_inFrame hrx,
      List.nil_append, State.frameByte_one, State.rxByte_inFrame (State.withRx_rx _ _), List.singleton_append,
      State.frameByte_badLength _ hout]
    rfl
  case crc =>
    rw [exec_frameReceived, State.receive, State.foldl_rxByte_frame hrx hlo hhi hcheck, s.judge_frame check (by omega),
      if_neg hwrong]
    rfl
  case gap =>
    rw [exec_frameTimeout, execFrameTimeout, hrx]
    rfl

end Sys2Proof.Machine

/-! The link coming UP and the end of a transmission (R158, R159, R170, R175, R180). -/

namespace Sys2Proof.Machine

/-! ### A transmission under way (R180) -/

section

variable {s : State} {what : Sending} {frame : List Byte} {due : Nat}

theorem State.kick_sending (h : s.link.tx = .sending what frame due) : s.kick = s := by rw [State.kick, h]

/-- While a frame is being sent, a record joins the queue and nothing else happens. -/
theorem State.enqueue_sending (h : s.link.tx = .sending what frame due) (r : Record) : (s.enqueue r).link = s.link := by
  have hkick := State.kick_sending (s := { s with pool := { s.pool with queue := s.pool.queue ++ [r] } }) h
  exact (congrArg State.link hkick :)

/-- While a frame is being sent, a notice changes record memory alone. -/
theorem State.rawNotice_sending (h : s.link.tx = .sending what frame due) (n : Notice) : (s.rawNotice n).link = s.link := by
  unfold State.rawNotice
  split
  · rfl
  · exact State.enqueue_sending (s := { s with pool := { s.pool with free := s.pool.free - 1 } }) h _

/-- While a frame is being sent, the test of the pool changes record memory alone. -/
theorem State.testPool_sending (h : s.link.tx = .sending what frame due) : s.testPool.link = s.link := by
  have easy : s.becomeEasy.link = s.link := State.rawNotice_sending (s := { s with pool := { s.pool with tight := false } }) h _
  have tight : ∀ {t : State}, t.link = s.link → t.becomeTight.link = s.link := fun {t} ht =>
    (State.rawNotice_sending (s := { t with pool := { t.pool with tight := true } }) (ht ▸ h :) _).trans ht
  obtain ⟨_, _, ht⟩ | ⟨_, _, ht | ht⟩ | ⟨_, _, ht⟩ | ⟨_, _, ht⟩ := s.testPool_cases <;> rw [ht]
  · exact easy
  · exact tight easy
  · exact tight rfl

/-- A record that joins an empty queue is sent at once where nothing else holds the line (R180). -/
theorem State.enqueue_link (hup : s.link.up = true) (htx : s.link.tx = .idle) (hslot : s.link.slot = none) (hq : s.pool.queue = [])
    (r : Record) :
    (s.enqueue r).link =
      { s.link with tx := .sending .record (frameOf r.payload) (s.clock + 1000 * (r.payload.length + 8)) } := by
  unfold State.enqueue State.kick State.choose State.send
  simp [hup, htx, hslot, hq, Config.byteNs]

/-- A notice that finds a buffer, an idle line and nothing before it is sent at once (R170, R180). -/
theorem State.formNotice_tx (hup : s.link.up = true) (htx : s.link.tx = .idle) (hslot : s.link.slot = none) (hq : s.pool.queue = [])
    (hfree : 0 < s.pool.free) (n : Notice) :
    (s.formNotice n).link.tx =
      .sending .record (frameOf (Record.notice n).payload) (s.clock + 1000 * ((Record.notice n).payload.length + 8)) := by
  have hsent := State.enqueue_link (s := { s with pool := { s.pool with free := s.pool.free - 1 } }) hup htx hslot hq (.notice n)
  rw [State.formNotice, if_neg (Nat.ne_of_gt hfree), State.queueRecord, State.testPool_sending (by rw [hsent]), hsent]

end

/-! ### The link comes UP (R175) -/

section

variable {s t : State}

/-- Whether a notice is formed is a matter of the pools before and after it. -/
theorem State.formed_congr {r q : State} {n : Notice} (h : r.formed q n) (hr : s.pool = r.pool) (hq : t.pool = q.pool) :
    s.formed t n := by
  unfold State.formed at h ⊢
  rwa [hr, hq]

/-- A request joins the queue, or is counted where the queue is full (R175); the rest of the link stands. -/
theorem Link.accept_eq (k : Link) (payload : List Byte) :
    k.accept payload =
      { k with
        requests := if k.requests.length < 4 then k.requests ++ [payload] else k.requests,
        overflowed :=
          if k.requests.length < 4 then k.overflowed else if k.overflowed < 4294967295 then k.overflowed + 1 else k.overflowed } := by
  unfold Link.accept Config.requestQueueMax
  split <;> rfl

theorem length_uField (k v : Nat) : (uField k v).length = k := length_leBytes k _

/-- LINK_UP takes 12 bytes. -/
theorem length_linkUp : (Record.notice (unitNotice .linkUp)).payload.length = 12 := by
  simp [Record.payload, recordHeader, Notice.bytes, unitNotice, reserved, bitsField, uOpt, length_uField]

/-- The state with its link UP and the silence timer loaded (R175). -/
def State.linkedUp (s : State) : State := { s with link := { s.link with silenceDue := some s.silenceEnd, up := true } }

theorem State.signOfLife_lost (h : s.link.up = false) : s.signOfLife = (s.linkedUp.formNotice (unitNotice .linkUp)).kick := by
  unfold State.signOfLife
  rw [h]
  rfl

end

/-- Settles O18: the sign of life forms LINK_UP and, over an idle line, sends it; the request queue is as for any good frame. -/
theorem aGoodFrameBringsTheLinkUp : Obligations.AGoodFrameBringsTheLinkUp := by
  intro s payload seen hrx hup hlo hhi
  have halive := State.signOfLife_lost (s := s.withRx (.hunting false)) hup
  have hreports : (s.withRx (.hunting false)).linkedUp.Reports (s.withRx (.hunting false)).signOfLife := by
    rw [halive]
    exact (State.formNotice_reports _ _).trans (State.kick_reports _)
  refine ⟨_, by rw [exec_frameReceived, State.receive_frameOf hrx hlo hhi], ?_⟩
  unfold State.goodFrame
  dsimp only
  rw [Link.accept_eq, hreports.link]
  refine ⟨rfl, rfl, rfl, rfl, ?_, ⟨hreports.laneA, hreports.laneB⟩, fun htx hslot hq hfree => ?_⟩
  · refine State.formed_congr (State.formNotice_formed (s.withRx (.hunting false)).linkedUp (unitNotice .linkUp)) rfl ?_
    show (s.withRx (.hunting false)).signOfLife.pool = _
    rw [halive, State.kick_pool]
  · have hsent := State.formNotice_tx (s := (s.withRx (.hunting false)).linkedUp) rfl htx hslot hq hfree (unitNotice .linkUp)
    show (s.withRx (.hunting false)).signOfLife.link.tx = _
    rw [halive, State.kick_sending hsent, hsent, length_linkUp]
    rfl

/-! ### The test of the pool, case by case (R159) -/

section

variable {s : State}

/-- A pool that becomes EASY puts POOL_EASY behind what waits. -/
theorem State.becomeEasy_pool (h : 0 < s.pool.free) :
    s.becomeEasy.pool =
      { s.pool with
        tight := false, free := s.pool.free - 1, queue := s.pool.queue ++ [.notice (unitNotice .poolEasy)] } :=
  (State.rawNotice_pool _ _).trans (if_neg (Nat.ne_of_gt h))

/-- A pool that becomes TIGHT puts POOL_TIGHT behind what waits. -/
theorem State.becomeTight_pool (h : 0 < s.pool.free) :
    s.becomeTight.pool =
      { s.pool with
        tight := true, free := s.pool.free - 1, queue := s.pool.queue ++ [.notice (unitNotice .poolTight)] } :=
  (State.rawNotice_pool _ _).trans (if_neg (Nat.ne_of_gt h))

theorem State.testPool_staysTight (ht : s.pool.tight = true) (h : s.pool.free < s.pool.resume) : s.testPool = s := by
  rw [State.testPool, if_pos ht, if_neg (Nat.not_le.2 h)]

theorem State.testPool_staysEasy (ht : s.pool.tight = false) (h : s.pool.low < s.pool.free) : s.testPool = s := by
  rw [State.testPool, ht, if_neg Bool.false_ne_true, if_neg (Nat.not_le.2 h)]

theorem State.testPool_tightens (ht : s.pool.tight = false) (h : s.pool.free ≤ s.pool.low) : s.testPool = s.becomeTight := by
  rw [State.testPool, ht, if_neg Bool.false_ne_true, if_pos h]

/-- A pool that becomes EASY stays so, unless its own notice brings it to the low-water level. -/
theorem State.testPool_eases (ht : s.pool.tight = true) (h : s.pool.resume ≤ s.pool.free) (hfree : 0 < s.pool.free) :
    s.testPool = if s.pool.free - 1 ≤ s.pool.low then s.becomeEasy.becomeTight else s.becomeEasy := by
  rw [State.testPool, if_pos ht, if_pos h]
  dsimp only
  rw [State.becomeEasy_pool hfree]

end

/-! ### The end of a transmission (R180) -/

section

variable {s : State} {frame : List Byte} {due : Nat}

theorem exec_transmissionEnd (s : State) : exec .transmissionEnd s = execTransmissionEnd s := by rfl

/-- The record sent has left the queue and its buffer is free; the pool is not yet tested. -/
def State.returned (s : State) : State := { s with pool := { s.pool with queue := s.pool.queue.tail, free := s.pool.free + 1 } }

theorem State.dropSent_eq (s : State) : s.dropSent = s.returned.testPool := by
  rw [State.dropSent, State.returnBuffer, List.drop_one]
  rfl

theorem State.dropSent_reports (s : State) : s.Reports s.dropSent := (State.Reports.pool s _).trans (State.returnBuffer_reports _)

/-- What the transmitter chooses of the slot and the queue that it finds, as the statement has it (R180). -/
theorem State.choose_link (s : State) :
    s.choose.link =
      (match s.link.up, s.link.slot, s.pool.queue with
      | true, some r, _ =>
        { s.link with slot := none, tx := .sending .reply (frameOf r.payload) (s.clock + 1000 * (r.payload.length + 8)) }
      | true, none, next :: _ =>
        { s.link with tx := .sending .record (frameOf next.payload) (s.clock + 1000 * (next.payload.length + 8)) }
      | true, none, [] => { s.link with tx := .idle }
      | false, _, _ => { s.link with tx := .idle }) := by
  obtain ⟨r, hup, hslot, h⟩ | ⟨k, rest, hup, hslot, hq, h⟩ | ⟨hup | ⟨hslot, hq⟩, h⟩ := s.choose_cases
  · rw [h, hup, hslot]
  · rw [h, hup, hslot, hq]
  · rw [h, hup]
  · rw [h, hslot, hq]
    cases s.link.up <;> rfl

/-- The state before the choice is made: the transmission's end reached, and a record's buffer returned. -/
def State.sent (s : State) (what : Sending) (due : Nat) : State :=
  match what with
  | .reply => s.reach due
  | .record => (s.reach due).dropSent

theorem exec_transmissionEnd_sending {what : Sending} (h : s.link.tx = .sending what frame due) :
    exec .transmissionEnd s = .next (s.sent what due).choose := by
  rw [exec_transmissionEnd, execTransmissionEnd, h]
  cases what <;> rfl

theorem State.sent_reports (s : State) (what : Sending) (due : Nat) : (s.reach due).Reports (s.sent what due) := by
  cases what
  · exact .refl _
  · exact State.dropSent_reports _

/-- The buffer's return says nothing to the line: the transmitter is still on the record that was sent. -/
theorem State.sent_link {what : Sending} (h : s.link.tx = .sending what frame due) : (s.sent what due).link = s.link := by
  cases what
  · rfl
  · rw [State.sent, State.dropSent_eq]
    exact State.testPool_sending (s := (s.reach due).returned) h

end

/-- Settles O20: the choice by `State.choose_link`; the pool by the test of the state with the buffer returned. -/
theorem transmissionsEndAndFollow : Obligations.TransmissionsEndAndFollow := by
  intro s frame due what htx
  have hreports := (s.sent_reports what due).trans (State.choose_reports _)
  have hlink : (s.sent what due).choose.link = _ := State.choose_link _
  rw [State.sent_link htx, (s.sent_reports what due).clock, ← State.choose_pool] at hlink
  refine ⟨_, exec_transmissionEnd_sending htx, hreports.clock, ⟨hreports.laneA, hreports.laneB⟩, hreports.layouts, hreports.engine,
    hreports.pending, ?reply, ?record, hlink⟩
  all_goals rw [State.choose_pool]
  case reply =>
    rintro rfl
    rfl
  case record =>
    rintro rfl
    rw [State.sent, State.dropSent_eq]
    generalize hu : (s.reach due).returned = u
    obtain ⟨hpool, hfree⟩ : u.pool = { s.pool with queue := s.pool.queue.tail, free := s.pool.free + 1 } ∧ 0 < u.pool.free := by
      rw [← hu]
      exact ⟨rfl, Nat.succ_pos _⟩
    have htight : u.pool.tight = s.pool.tight := by rw [hpool]
    refine ⟨fun ht hlow => ?_, fun ht hhigh => ?_, fun ht hresume hhigh => ?_, fun ht hresume hlow hpos => ?_, fun ht hlow => ?_⟩
    · rw [State.testPool_staysTight (htight.trans ht) (by rw [hpool]; exact hlow), hpool]
    · rw [State.testPool_staysEasy (htight.trans ht) (by rw [hpool]; exact Nat.lt_succ_of_le hhigh), hpool]
    · rw [State.testPool_eases (htight.trans ht) (by rw [hpool]; exact hresume) hfree, if_neg (by rw [hpool]; exact Nat.not_le.2 hhigh),
        State.becomeEasy_pool hfree, hpool]
      rfl
    · have heasy := State.becomeEasy_pool hfree
      rw [hpool] at heasy
      rw [State.testPool_eases (htight.trans ht) (by rw [hpool]; exact hresume) hfree, if_pos (by rw [hpool]; exact hlow),
        State.becomeTight_pool (by rw [heasy]; exact hpos), heasy]
      simp [ht]
    · rw [State.testPool_tightens (htight.trans ht) (by rw [hpool]; exact hlow), State.becomeTight_pool hfree, hpool]
      rfl

end Sys2Proof.Machine

/-! The silence timer's expiry (R151, R176), STATUS (R183) and SET_LINK (R160, R181, R182). -/

namespace Sys2Proof.Machine

/-! ### Holding a lane at the loss of the link (R151, R176) -/

section

variable {s : State}

/-- A lane that can be held is held, another is as it was. -/
theorem State.holdIf_lane (s : State) (l : LaneId) :
    (s.holdIf l).lane l = if (s.lane l).ctl.state.holdable = true then (s.lane l).holding s.clock else s.lane l := by
  unfold State.holdIf
  split
  · rw [State.enterHeld_eq, State.emit_lane, State.lane_upd]
  · rfl

theorem State.holdIf_engine (s : State) (l : LaneId) : (s.holdIf l).engine = s.engine := by
  unfold State.holdIf
  split
  · rw [State.enterHeld_eq, (State.emit_reports _ _ _ _).engine, State.upd_engine]
  · rfl

/-- A lane that is held says so; nothing is said of another. -/
theorem State.holdIf_noticed (s : State) (l : LaneId) :
    if (s.lane l).ctl.state.holdable = true then s.noticed (s.holdIf l) l .held 3 (s.lane l).tag none
    else (s.holdIf l).pool = s.pool := by
  unfold State.holdIf
  split
  next hold =>
    have hnotice := (s.upd l fun x => x.holding s.clock).emit_noticed l .held 3 none rfl
    rw [State.lane_upd, Lane.tag_of_orders (Lane.orders_holding _ _)] at hnotice
    exact hnotice.of_same (s.upd_pool l _) (s.upd_link l _)
  · rfl

theorem exec_silenceTimeout (s : State) : exec .silenceTimeout s = execSilenceTimeout s := by rfl

/-- The silence timer's expiry: the link is lost, then Lane A is held, then Lane B. -/
theorem exec_silenceTimeout_running {due : Nat} (hup : s.link.up = true) (hdue : s.link.silenceDue = some due) :
    exec .silenceTimeout s = .next (((s.reach due).loseLink.holdIf .a).holdIf .b) := by
  rw [exec_silenceTimeout, execSilenceTimeout, hup, hdue]

end

/-- Settles O19: each lane by `State.holdIf_lane` and `State.holdIf_noticed`, the other lane being out of the hold's reach. -/
theorem silenceHoldsBothLanes : Obligations.SilenceHoldsBothLanes := by
  intro s due hup hdue
  have ha := (s.reach due).loseLink.holdIf_keeps .a
  have hb := ((s.reach due).loseLink.holdIf .a).holdIf_keeps .b
  have hlaneB : ((s.reach due).loseLink.holdIf .a).lane .b = s.laneB := ha.other
  have hclock : ((s.reach due).loseLink.holdIf .a).clock = max s.clock due := ha.clock
  refine ⟨_, (s.reach due).loseLink.holdIf .a, exec_silenceTimeout_running hup hdue, ?_, ?_, hb.clock.trans hclock,
    hb.layouts.trans ha.layouts, ?_, hb.pending.trans ha.pending, fun l => ?_, ?_, ?_, ?_⟩
  · rw [hb.link, ha.link]
    rfl
  · rw [hb.link, ha.link]
    rfl
  · rw [State.holdIf_engine, State.holdIf_engine]
    rfl
  · cases l with
    | a => exact hb.other.trans (State.holdIf_lane _ .a)
    | b =>
      have hheld := ((s.reach due).loseLink.holdIf .a).holdIf_lane .b
      rw [hlaneB, hclock] at hheld
      exact hheld
  · rw [ha.link]
    rfl
  · have hnotice := (s.reach due).loseLink.holdIf_noticed .a
    rw [State.loseLink_lane, State.reach_lane] at hnotice
    split at hnotice
    next hold => exact (if_pos hold).mpr (State.noticed_congr hnotice rfl rfl rfl)
    next hold => exact (if_neg hold).mpr hnotice
  · have hnotice := ((s.reach due).loseLink.holdIf .a).holdIf_noticed .b
    rw [hlaneB] at hnotice
    exact hnotice

/-! ### STATUS (R183) -/

section

variable {s : State} {p : List Byte}

/-- A request to the unit, of the right length, is carried out. -/
theorem forUnit_accepted {n : Nat} (hunit : u8At p 1 = 255) (hn : p.length = n) (o : Handled) : forUnit p n o = o := by
  rw [forUnit, if_neg (fun h => h hunit), if_neg (fun h => h hn)]

theorem State.popRequest_laneStatus (s : State) (l : LaneId) : s.popRequest.laneStatus l = s.laneStatus l := by
  rw [State.laneStatus, State.popRequest_lane]
  rfl

/-- The engine holds a job of the lane where it is busy with one. -/
theorem Engine.holds_iff (e : Engine) (l : LaneId) : e.holds l = true ↔ ∃ k, e.busy = some k ∧ k.lane = l := by
  unfold Engine.holds
  cases e.busy with
  | none => simp
  | some k => simp

theorem exec_status_accepted (ht : s.takes p) (hkind : u8At p 0 = 1) (hunit : u8At p 1 = 255) (hn : p.length = 4) :
    exec .status s =
      .next (s.afterReply (replyTo p .ok (.status s.popRequest.unitStatus (s.laneStatus .a) (s.laneStatus .b)))) := by
  rw [exec_request_taken ht (by rw [hkind]; rfl)]
  show Host.Outcome.next (s.popRequest.conclude p (handleStatus p s.popRequest)) = _
  rw [handleStatus, forUnit_accepted hunit hn, State.popRequest_conclude_same, State.popRequest_laneStatus, State.popRequest_laneStatus]

end

/-- Settles O22: the snapshot of `State.unitStatus` and `State.laneStatus`, value by value. -/
theorem statusReportsAndChangesNothing : Obligations.StatusReportsAndChangesNothing := by
  intro s p ht hkind hunit hn
  refine ⟨_, s.laneStatus, exec_status_accepted ht hkind hunit hn, ?_, fun l => ?_⟩
  · unfold State.unitStatus
    rw [State.popRequest_link, List.length_drop]
    rfl
  · have hengine : s.engine.holds l = decide (∃ e, s.engine.busy = some e ∧ e.lane = l) := by
      rw [Bool.eq_iff_iff, Engine.holds_iff, decide_eq_true_iff]
    unfold State.laneStatus
    rw [hengine]
    cases htube : (s.lane l).ctl.tube <;> simp [Lane.tag, htube, Position.raw]

/-! ### SET_LINK (R160, R181, R182) -/

section

variable {s : State} {p : List Byte}

/-- The four items replaced and a running silence timer reloaded; the pool is not yet tested. -/
def State.relinked (s : State) (silence low resume : Nat) (mask : BitVec 7) : State :=
  { s with
    link := { s.link with
      silence := silence, mask := mask,
      silenceDue := if s.link.up then some (s.clock + silence * Config.nsPerMs) else s.link.silenceDue },
    pool := { s.pool with low := low, resume := resume } }

theorem State.setLink_eq (s : State) (silence low resume : Nat) (mask : BitVec 7) :
    s.setLink silence low resume mask = (s.relinked silence low resume mask).testPool := rfl

/-- The pool as the test of a full or partly full pool leaves it: its state, and the notice of a change (R159, R170). -/
theorem State.testPool_outcome (s : State) (hlow : s.pool.low < s.pool.resume) :
    if s.pool.tight = true then
      if s.pool.free < s.pool.resume then s.testPool.pool.tight = true ∧ s.testPool.pool.queue = s.pool.queue
      else ∃ more, s.testPool.pool.queue = s.pool.queue ++ .notice (unitNotice .poolEasy) :: more
    else
      if s.pool.low < s.pool.free then s.testPool.pool.tight = false ∧ s.testPool.pool.queue = s.pool.queue
      else
        s.testPool.pool.tight = true ∧
          (0 < s.pool.free → ∃ more, s.testPool.pool.queue = s.pool.queue ++ .notice (unitNotice .poolTight) :: more) := by
  split
  next ht =>
    split
    next hbelow =>
      rw [State.testPool_staysTight ht hbelow]
      exact ⟨ht, rfl⟩
    next hhigh =>
      have hfree : 0 < s.pool.free := by omega
      rw [State.testPool_eases ht (Nat.le_of_not_lt hhigh) hfree]
      split
      · obtain ⟨more, hmore⟩ := State.rawNotice_queue
          { s.becomeEasy with pool := { s.becomeEasy.pool with tight := true } } (unitNotice .poolTight)
        exact ⟨more, by rw [State.becomeTight, hmore, State.becomeEasy_pool hfree]; simp⟩
      · exact ⟨[], by rw [State.becomeEasy_pool hfree]⟩
  next ht =>
    have heasy := Bool.eq_false_iff.2 ht
    split
    next habove =>
      rw [State.testPool_staysEasy heasy habove]
      exact ⟨heasy, rfl⟩
    next hdown =>
      rw [State.testPool_tightens heasy (Nat.le_of_not_lt hdown)]
      refine ⟨?_, fun hfree => ⟨[], by rw [State.becomeTight_pool hfree]⟩⟩
      exact (State.rawNotice_levels _ _).2.1

end

/-- Settles O23: the state with the items replaced, its pool tested once, and then the reply. -/
theorem setLinkReplacesTheFourItems : Obligations.SetLinkReplacesTheFourItems := by
  intro s p ht hkind hunit hn hsil hsil' hlow hlow' hres hres'
  have hok : linkFieldsOk (u16At p 4) (u8At p 7) (u8At p 8) = true := by
    simp [linkFieldsOk, within, hsil, hsil', hlow, hlow', hres', Nat.succ_le_of_lt hres]
  generalize hr : replyTo p .ok (.setLink (u16At p 4) (BitVec.ofNat 7 (u8At p 6)) (u8At p 7) (u8At p 8)) = r
  generalize hu : s.popRequest.relinked (u16At p 4) (u8At p 7) (u8At p 8) (BitVec.ofNat 7 (u8At p 6)) = u
  have hexec : exec .setLink s = .next (u.testPool.placeReply r) := by
    rw [exec_request_taken ht (by rw [hkind]; rfl)]
    show Host.Outcome.next (s.popRequest.conclude p (handleSetLink p s.popRequest)) = _
    rw [handleSetLink, forUnit_accepted hunit hn, if_pos hok, State.setLink_eq, hu, State.conclude, hr]
  have htest := u.testPool_reports
  have hreports := htest.trans (u.testPool.placeReply_reports r)
  obtain ⟨_, _, hlevels⟩ := u.testPool_notifies
  have houtcome := u.testPool_outcome (by rw [← hu]; exact hres)
  rw [← State.placeReply_pool u.testPool r] at hlevels houtcome
  have hlink := hreports.link
  obtain ⟨hfree, _, _⟩ := ht
  subst hu
  refine ⟨_, hexec, ?_, ?_, hlevels.low, hlevels.resume, ?_, ?_, ?_, ⟨?_, ?_⟩, houtcome⟩
  · rw [hlink]
    rfl
  · rw [hlink]
    rfl
  · rw [hlink]
    rfl
  · rw [hlink]
    rfl
  · refine s.placeReply_answered _ _ ?_ ?_ <;> rw [htest.link]
    · exact List.drop_one
    · exact hfree
  · exact hreports.laneA
  · exact hreports.laneB

end Sys2Proof.Machine

/-! What the field checks of a request let through (R16, R48, R50, R55, R59, R63, R64, R86, R89, R133, R137, R181). -/

namespace Sys2Proof.Machine

/-! ### Lists of fields -/

section

variable {p : List Byte}

theorem within_iff (lo v hi : Nat) : within lo v hi = true ↔ lo ≤ v ∧ v ≤ hi := by
  rw [within, Bool.and_eq_true, decide_eq_true_iff, decide_eq_true_iff]

theorem u8At_le (p : List Byte) (i : Nat) : u8At p i ≤ 255 := Nat.le_of_lt_succ (p.getD i 0).isLt

theorem u32At_le (p : List Byte) (i : Nat) : u32At p i ≤ 4294967295 := by
  have h0 := u8At_le p i
  have h1 := u8At_le p (i + 1)
  have h2 := u8At_le p (i + 2)
  have h3 := u8At_le p (i + 2 + 1)
  unfold u32At u16At
  omega

theorem getElem_u32List (p : List Byte) {k i j : Nat} (h : j < (u32List p k i).length) : (u32List p k i)[j] = u32At p (i + 4 * j) := by
  induction k generalizing i j with
  | zero => exact absurd h (Nat.not_lt_zero j)
  | succ k ih =>
    cases j with
    | zero => rfl
    | succ j => exact (ih (Nat.lt_of_succ_lt_succ h)).trans (congrArg (u32At p) (by omega))

/-- The slot at an offset (11.3). -/
def slotAt (p : List Byte) (i : Nat) : Slot :=
  { coil := u8At p i, freqIndex := u8At p (i + 1), drive := u8At p (i + 2), gain := u8At p (i + 3), settle := u8At p (i + 4),
    integrate := u8At p (i + 5) }

theorem getElem_slotsAt (p : List Byte) {k i j : Nat} (h : j < (slotsAt p k i).length) : (slotsAt p k i)[j] = slotAt p (i + 6 * j) := by
  induction k generalizing i j with
  | zero => exact absurd h (Nat.not_lt_zero j)
  | succ k ih =>
    cases j with
    | zero => rfl
    | succ j => exact (ih (Nat.lt_of_succ_lt_succ h)).trans (congrArg (slotAt p) (by omega))

@[simp] theorem length_curvePoints (p : List Byte) (k i : Nat) : (curvePoints p k i).length = k := by
  induction k generalizing i with
  | zero => rfl
  | succ k ih => rw [curvePoints, List.length_cons, ih]

/-- The curve point at an offset (11.3). -/
def pointAt (p : List Byte) (i : Nat) : CurvePoint := { phase := u16At p i, depth := u8At p (i + 2) }

theorem getElem_curvePoints (p : List Byte) {k i j : Nat} (h : j < (curvePoints p k i).length) :
    (curvePoints p k i)[j] = pointAt p (i + 4 * j) := by
  induction k generalizing i j with
  | zero => exact absurd h (Nat.not_lt_zero j)
  | succ k ih =>
    cases j with
    | zero => rfl
    | succ j => exact (ih (Nat.lt_of_succ_lt_succ h)).trans (congrArg (pointAt p) (by omega))

theorem ascending_iff (as : List Nat) : ascending as = true ↔ as.IsChain (· < ·) := by
  induction as with
  | nil => simp [ascending]
  | cons a as ih => cases as <;> simp_all [ascending]

theorem curveOrdered_iff (cs : List CurvePoint) :
    curveOrdered cs = true ↔ cs.IsChain fun a b => b.phase < a.phase ∧ a.depth < b.depth := by
  induction cs with
  | nil => simp [curveOrdered]
  | cons c cs ih => cases cs <;> simp_all [curveOrdered]

/-! ### The shared parts (R63, R64) -/

theorem screeningAt_ranges {i : Nat} {k : Screening} (h : screeningAt p i = some k) :
    u8At p i ≤ 1 ∧ u8At p (i + 1) ≤ 1 ∧ 50 ≤ u16At p (i + 2) ∧ u16At p (i + 2) ≤ 30000 ∧ 25 ≤ u16At p (i + 4) ∧
      u16At p (i + 4) ≤ u16At p (i + 2) ∧ 1 ≤ u8At p (i + 6) ∧ u8At p (i + 6) ≤ 4 ∧ 1 ≤ u8At p (i + 7) ∧ u8At p (i + 7) ≤ 8 ∧
      2 ≤ u8At p (i + 8) ∧ u8At p (i + 8) ≤ 10 := by
  unfold screeningAt at h
  dsimp only at h
  obtain ⟨hok, _⟩ := Option.ite_none_right_eq_some.1 h
  simp only [Bool.and_eq_true, within_iff] at hok
  omega

theorem dispositionAt_range {i : Nat} {k : Disposition} (h : dispositionAt p i = some k) : u8At p i ≤ 2 := by
  unfold dispositionAt at h
  split at h
  · omega
  · omega
  · omega
  · cases h

/-- A curve of some points has 2 to 8, each in its range, in order (R64). -/
theorem curveAt_ranges {i : Nat} {cs : List CurvePoint} (h : curveAt p i = some cs) (hn : u8At p i ≠ 0) :
    2 ≤ u8At p i ∧ u8At p i ≤ 8 ∧
      (∀ j < u8At p i, u16At p (i + 4 + 4 * j) ≤ 1800 ∧ 1 ≤ u8At p (i + 6 + 4 * j) ∧ u8At p (i + 6 + 4 * j) ≤ 100) ∧
      ∀ j < u8At p i - 1, u16At p (i + 4 + 4 * (j + 1)) < u16At p (i + 4 + 4 * j) ∧
        u8At p (i + 6 + 4 * j) < u8At p (i + 6 + 4 * (j + 1)) := by
  have hdepth : ∀ j, i + 4 + 4 * j + 2 = i + 6 + 4 * j := fun j => by omega
  unfold curveAt at h
  dsimp only at h
  rw [if_neg hn] at h
  obtain ⟨hok, _⟩ := Option.ite_none_right_eq_some.1 h
  simp only [Bool.and_eq_true, within_iff, List.all_eq_true, curveOrdered_iff, List.isChain_iff_getElem, getElem_curvePoints,
    length_curvePoints, pointAt, hdepth] at hok
  obtain ⟨⟨⟨hmin, hmax⟩, hpoints⟩, hchain⟩ := hok
  refine ⟨hmin, hmax, fun j hj => ?_, fun j hj => hchain j (by omega)⟩
  have hlen : j < (curvePoints p (u8At p i) (i + 4)).length := by rwa [length_curvePoints]
  have hpoint := hpoints _ (List.getElem_mem hlen)
  rw [getElem_curvePoints, pointAt, hdepth] at hpoint
  obtain ⟨⟨_, hphase⟩, hlow, hhigh⟩ := hpoint
  exact ⟨hphase, hlow, hhigh⟩

theorem optionalPart_some {α : Type} {present : Bool} {part : Option α} {o : Option α} (h : optionalPart present part = some o)
    (hp : present = true) : ∃ a, part = some a := by
  unfold optionalPart at h
  rw [if_pos hp] at h
  obtain ⟨a, ha, _⟩ := Option.map_eq_some_iff.1 h
  exact ⟨a, ha⟩

theorem partPlaces_disposition (p : List Byte) (setAt start : Nat) :
    (partPlaces p setAt start).disposition = dispositionOffset p setAt start := by
  unfold partPlaces dispositionOffset
  dsimp only
  split <;> rfl

theorem partPlaces_curve (p : List Byte) (setAt start : Nat) : (partPlaces p setAt start).curve = curveOffset p setAt start := by
  have hd := partPlaces_disposition p setAt start
  unfold partPlaces at hd ⊢
  unfold curveOffset
  rw [← hd]
  dsimp only
  split <;> rfl

theorem partPlaces_total (p : List Byte) (setAt start : Nat) : (partPlaces p setAt start).total = partsEnd p setAt start := by
  have hc := partPlaces_curve p setAt start
  unfold partPlaces at hc ⊢
  unfold partsEnd
  rw [← hc]
  dsimp only
  split
  · rw [Nat.add_assoc]
  · rfl

/-- Parts that pass their checks are in their ranges and consistent. -/
theorem partsGood_of_partsAt {setAt start : Nat} {k : Parts} (h : partsAt p setAt (partPlaces p setAt start) = some k) :
    partsGood p setAt start := by
  unfold partsAt at h
  split at h
  next _ _ _ hs hd hc =>
    rw [partPlaces_disposition] at hd
    rw [partPlaces_curve] at hc
    refine ⟨fun hset => ?_, fun hset => ?_, fun hset i hi n hn hne => ?_⟩
    · obtain ⟨_, hpart⟩ := optionalPart_some hs hset
      exact screeningAt_ranges hpart
    · obtain ⟨_, hpart⟩ := optionalPart_some hd hset
      exact dispositionAt_range hpart
    · obtain ⟨_, hpart⟩ := optionalPart_some hc hset
      subst hi hn
      exact curveAt_ranges hpart hne
  · cases h

/-! ### The fields of each request -/

theorem fieldsGood_of_linkFieldsOk (hk : u8At p 0 = 2) (h : linkFieldsOk (u16At p 4) (u8At p 7) (u8At p 8) = true) : fieldsGood p := by
  simp only [linkFieldsOk, Bool.and_eq_true, within_iff] at h
  unfold fieldsGood
  simp only [hk]
  omega

theorem fieldsGood_of_layoutAt {y : Layout} (hk : u8At p 0 = 3) (h : layoutAt p = some y) : fieldsGood p := by
  unfold layoutAt at h
  dsimp only at h
  obtain ⟨hok, _⟩ := Option.ite_none_right_eq_some.1 h
  simp only [Bool.and_eq_true, within_iff, List.all_eq_true, decide_eq_true_eq, ascending_iff, List.isChain_iff_getElem,
    getElem_u32List, length_u32List] at hok
  obtain ⟨⟨⟨⟨⟨hlen, htn⟩, htf⟩, hn⟩, hchain⟩, hcentres⟩ := hok
  unfold fieldsGood
  rw [hk]
  refine ⟨hlen.1, hlen.2, htn.1, htn.2, htf.1, htf.2, hn.2, fun j hj => ?_, fun j hj => hchain j (by omega)⟩
  have hmem := List.getElem_mem (l := u32List p (u8At p 5) 20) (n := j) (by rwa [length_u32List])
  rw [getElem_u32List] at hmem
  have hcentre := hcentres _ hmem
  omega

theorem fieldsGood_of_scanOk (hk : u8At p 0 = 4) (h : scanOk p = true) : fieldsGood p := by
  simp only [scanOk, scanTables, Bool.and_eq_true, within_iff, List.all_eq_true, Bool.or_eq_true, beq_iff_eq, bne_iff_ne] at h
  obtain ⟨⟨⟨⟨hfreqs, hslots⟩, hfreq⟩, hsome⟩, hslot⟩ := h
  unfold fieldsGood
  rw [hk]
  refine ⟨hfreqs.2, hslots.2, fun j hj => ?_, fun hne => hsome.resolve_left hne, fun j hj i hi => ?_⟩
  · have hmem := List.getElem_mem (l := u32List p (u8At p 4) 8) (n := j) (by rwa [length_u32List])
    rw [getElem_u32List] at hmem
    exact hfreq _ hmem
  · have hmem := List.getElem_mem (l := slotsAt p (u8At p 5) (8 + 4 * u8At p 4)) (n := j) (by rwa [length_slotsAt])
    rw [getElem_slotsAt, ← hi] at hmem
    have hok := hslot _ hmem
    simp only [Slot.ok, Bool.and_eq_true, within_iff, decide_eq_true_eq] at hok
    simp only [slotAt] at hok
    omega

/-- The CALIBRATION part and the shared parts of a SET_CHANNEL (R47, R48). -/
theorem fieldsGood_of_channelParts {cal : Option CalPart} {k : Parts} (hk : u8At p 0 = 5) (hch : within 0 (u8At p 4) 15 = true)
    (hcal : optionalPart (bitAt p 5 0) (calPartAt p 8) = some cal) (hparts : partsAt p 5 (channelPlaces p) = some k) : fieldsGood p := by
  unfold fieldsGood
  rw [hk]
  refine ⟨((within_iff _ _ _).1 hch).2, fun hset => ?_, partsGood_of_partsAt hparts⟩
  obtain ⟨_, hpart⟩ := optionalPart_some hcal hset
  exact (Option.ite_none_right_eq_some.1 hpart).1

/-- A definition's sources and shared parts (R50). -/
theorem fieldsGood_of_mixParts {k : Parts} (hk : u8At p 0 = 6) (hch : within 16 (u8At p 4) 19 = true) (hact : mixDefines p = true)
    (hok : (mixDefAt p).ok = true) (hparts : partsAt p 6 (mixPlaces p) = some k) : fieldsGood p := by
  simp only [MixDef.ok, mixDefAt, Bool.and_eq_true, within_iff, bne_iff_ne] at hok
  obtain ⟨⟨⟨_, hp⟩, _, hq⟩, hne⟩ := hok
  obtain ⟨hlo, hhi⟩ := (within_iff _ _ _).1 hch
  unfold fieldsGood
  rw [hk]
  exact ⟨hlo, hhi, .inr ⟨beq_iff_eq.1 hact, hp, hq, hne, partsGood_of_partsAt hparts⟩⟩

/-- A removal has no fields but its channel (R51). -/
theorem fieldsGood_of_removal (hk : u8At p 0 = 6) (hch : within 16 (u8At p 4) 19 = true) (hact : u8At p 5 = 0) : fieldsGood p := by
  obtain ⟨hlo, hhi⟩ := (within_iff _ _ _).1 hch
  unfold fieldsGood
  rw [hk]
  exact ⟨hlo, hhi, .inl hact⟩

theorem fieldsGood_of_landmarkAt {k : LandmarkSettings} (hk : u8At p 0 = 7) (h : landmarkAt p = some k) : fieldsGood p := by
  unfold landmarkAt at h
  dsimp only at h
  obtain ⟨hok, _⟩ := Option.ite_none_right_eq_some.1 h
  simp only [Bool.and_eq_true, Bool.or_eq_true, within_iff, decide_eq_true_eq, beq_iff_eq, bne_iff_ne] at hok
  unfold fieldsGood
  simp only [hk]
  omega

theorem fieldsGood_of_motionAt {k : Nat × Motion} (hk : u8At p 0 = 8) (h : motionAt p = some k) : fieldsGood p := by
  unfold motionAt at h
  dsimp only at h
  obtain ⟨hok, _⟩ := Option.ite_none_right_eq_some.1 h
  simp only [Bool.and_eq_true, within_iff, decide_eq_true_eq] at hok
  unfold fieldsGood
  simp only [hk]
  omega

/-- A class 0 order gives its length, in range; that of another is not read (R137; log entry 19). -/
theorem orderAt_lengthOk :
    (orderAt p).lengthOk = true ↔ (u8At p 5 = 0 → bitAt p 4 1 = true ∧ 1000000 ≤ u32At p 16 ∧ u32At p 16 ≤ 30000000) := by
  unfold Order.lengthOk orderAt
  dsimp only
  cases bitAt p 4 1 <;> by_cases hcls : u8At p 5 = 0 <;> simp [hcls, within_iff]

/-- A segment's positions, behind the length where that is present (R137). -/
theorem orderAt_segmentOk :
    (orderAt p).segmentOk = true ↔
      (bitAt p 4 2 = true →
        ∀ i : Nat, i = (if bitAt p 4 1 then 20 else 16) → u32At p i ≤ 30000000 ∧ u32At p (i + 4) < u32At p i) := by
  unfold Order.segmentOk orderAt
  dsimp only
  cases bitAt p 4 2
  · simp
  · simp only [if_true, true_imp_iff, forall_eq, Bool.and_eq_true, within_iff, decide_eq_true_eq]
    omega

/-- The checks of an order's fields are the ranges of R137. -/
theorem orderAt_fieldsOk (hk : u8At p 0 = 9) : (orderAt p).fieldsOk = true ↔ fieldsGood p := by
  have hfields : (orderAt p).fieldsOk = true ↔
      (1 ≤ u32At p 12 ∧ 1 ≤ u16At p 6 ∧ u16At p 6 ≤ 999 ∧ 1 ≤ u16At p 8 ∧ u16At p 8 ≤ 999 ∧ u8At p 5 ≤ 16) ∧
        (orderAt p).lengthOk = true ∧ (orderAt p).segmentOk = true := by
    simp only [Order.fieldsOk, Bool.and_eq_true, within_iff]
    constructor
    · rintro ⟨⟨⟨⟨⟨htag, hrow⟩, hcolumn⟩, hcls⟩, hlength⟩, hsegment⟩
      exact ⟨⟨htag.1, hrow.1, hrow.2, hcolumn.1, hcolumn.2, hcls.2⟩, hlength, hsegment⟩
    · rintro ⟨⟨htag₁, hrow₁, hrow₂, hcolumn₁, hcolumn₂, hcls⟩, hlength, hsegment⟩
      exact ⟨⟨⟨⟨⟨⟨htag₁, u32At_le p 12⟩, hrow₁, hrow₂⟩, hcolumn₁, hcolumn₂⟩, Nat.zero_le _, hcls⟩, hlength⟩, hsegment⟩
  rw [hfields, orderAt_lengthOk, orderAt_segmentOk]
  unfold fieldsGood
  simp only [hk, and_assoc]

theorem spanOk_iff (hi lo : Int) : spanOk hi lo = true ↔ spanGood hi lo := by
  rw [spanOk, Bool.and_eq_true, decide_eq_true_iff, decide_eq_true_iff]
  unfold spanGood
  omega

theorem fieldsGood_span_iff (hk : u8At p 0 = 0x10) :
    fieldsGood p ↔
      (within 100 (u16At p 6) 30000 && within 0 (u16At p 8) 3599) = true ∧ spanOk (s32At p 12) (s32At p 16) = true := by
  rw [spanOk_iff, Bool.and_eq_true, within_iff, within_iff]
  unfold fieldsGood
  simp only [hk]
  unfold spanGood
  omega

theorem fieldsGood_mix_iff (hk : u8At p 0 = 0x11) : fieldsGood p ↔ spanOk (s32At p 8) (s32At p 12) = true := by
  rw [spanOk_iff]
  unfold fieldsGood
  simp only [hk]

end

end Sys2Proof.Machine

/-! Refusals (R177, R185, R188): the checks of every request in their order, and the code of each. -/

namespace Sys2Proof.Machine

section

variable {s : State} {p : List Byte} {c : Instr} {l : LaneId} {k n : Nat} {code : ReplyCode}

/-! ### The checks that requests have in common (R177) -/

/-- A request that its handler refuses changes nothing but the link (R185). -/
theorem State.refuses_of_handler (ht : s.takes p) (hk : requestKind c = some (u8At p 0))
    (h : requestHandler c p s.popRequest = .refused code) : s.refuses c p code := by
  unfold State.refuses
  rw [exec_request_taken ht hk, h, State.conclude_refused]

theorem laneOf_none (h : 1 < u8At p 1) : laneOf p = none := by
  rw [laneOf, if_neg (by omega), if_neg (by omega)]

theorem LaneState.setup_iff (st : LaneState) : st.setup = true ↔ st = .idle ∨ st = .faulted := by
  cases st <;> simp [LaneState.setup]

theorem forSetup_busy (f : LaneId → Handled) (hl : laneOf p = some l) (hidle : (s.lane l).ctl.state ≠ .idle)
    (hfaulted : (s.lane l).ctl.state ≠ .faulted) : forSetup p s n f = .refused .busy := by
  have hset : (s.lane l).ctl.state.setup = false := by
    rw [← Bool.not_eq_true, LaneState.setup_iff]
    exact fun h => h.elim hidle hfaulted
  rw [forSetup, forLane_named hl, if_pos hset]

theorem forSetup_badLength (f : LaneId → Handled) (hl : laneOf p = some l)
    (hst : (s.lane l).ctl.state = .idle ∨ (s.lane l).ctl.state = .faulted) (hn : p.length ≠ n) :
    forSetup p s n f = .refused .badLength := by
  have hset := (LaneState.setup_iff _).2 hst
  rw [forSetup, forLane_named hl, if_neg (by rw [hset]; exact nofun), if_pos hn]

theorem forLaneLength_badLength (f : LaneId → Handled) (hl : laneOf p = some l) (hn : p.length ≠ n) :
    forLaneLength p n f = .refused .badLength := by
  rw [forLaneLength, forLane_named hl, if_pos hn]

/-! ### Requests by their addressee (11.3) -/

/-- The kinds from 4 on are requests to a lane. -/
theorem requestHandler_lane (hk : requestKind c = some k) (h : 4 ≤ k) (s : State) : ∃ f, requestHandler c p s = forLane p f := by
  cases c with
  | status | setLink | setLayout => cases hk; contradiction
  | setScan | setChannel | setMix | setLandmark | setMotion | queueTube | cancelTube | abort | hold | resume | retract | laneReset
  | spanCal | solveMix => exact ⟨_, rfl⟩
  | _ => cases hk

/-- The kinds 1 to 3 are requests to the unit, of the length that their kind calls for. -/
theorem requestHandler_unit (hk : requestKind c = some (u8At p 0)) (h : u8At p 0 < 4) (s : State) :
    ∃ o, requestHandler c p s = forUnit p (lengthCalledFor p) o := by
  cases c with
  | status =>
    have hlen : lengthCalledFor p = 4 := by simp only [lengthCalledFor, ← Option.some.inj hk]
    exact ⟨_, by rw [hlen]; rfl⟩
  | setLink =>
    have hlen : lengthCalledFor p = 10 := by simp only [lengthCalledFor, ← Option.some.inj hk]
    exact ⟨_, by rw [hlen]; rfl⟩
  | setLayout =>
    have hlen : lengthCalledFor p = layoutLength p := by simp only [lengthCalledFor, ← Option.some.inj hk, layoutLength]
    exact ⟨_, by rw [hlen]; rfl⟩
  | setScan | setChannel | setMix | setLandmark | setMotion | queueTube | cancelTube | abort | hold | resume | retract | laneReset
  | spanCal | solveMix =>
    rw [← Option.some.inj hk] at h
    contradiction
  | _ => cases hk

theorem forUnit_badLane (o : Handled) (h : u8At p 1 ≠ 255) : forUnit p n o = .refused .badLane := if_pos h

theorem forUnit_badLength (o : Handled) (h : u8At p 1 = 255) (hn : p.length ≠ n) : forUnit p n o = .refused .badLength := by
  rw [forUnit, if_neg (not_not_intro h), if_pos hn]

/-- The kinds from 9 to 15 are requests to a lane in whatever state, of the length that their kind calls for. -/
theorem requestHandler_laneLength (hk : requestKind c = some (u8At p 0)) (h : 9 ≤ u8At p 0) (h' : u8At p 0 ≤ 0x0F) (s : State) :
    ∃ f, requestHandler c p s = forLaneLength p (lengthCalledFor p) f := by
  cases c with
  | queueTube =>
    have hlen : lengthCalledFor p = queueLength p := by simp only [lengthCalledFor, ← Option.some.inj hk, queueLength]
    exact ⟨_, by rw [hlen]; rfl⟩
  | cancelTube =>
    have hlen : lengthCalledFor p = 8 := by simp only [lengthCalledFor, ← Option.some.inj hk]
    exact ⟨_, by rw [hlen]; rfl⟩
  | abort | hold | resume | retract | laneReset =>
    have hlen : lengthCalledFor p = 4 := by simp only [lengthCalledFor, ← Option.some.inj hk]
    exact ⟨_, by rw [hlen]; rfl⟩
  | status | setLink | setLayout | setScan | setChannel | setMix | setLandmark | setMotion =>
    rw [← Option.some.inj hk] at h
    contradiction
  | spanCal | solveMix =>
    rw [← Option.some.inj hk] at h'
    contradiction
  | _ => cases hk

/-! ### Setup requests (R16, R48, R55, R59, R89, R133) -/

/-- The checks of a setup request: its lane, the lane's state, the length, and fields out of their ranges. -/
def SetupChecked (p : List Byte) (s : State) (o : Handled) : Prop :=
  ∃ f : LaneId → Handled, o = forSetup p s (lengthCalledFor p) f ∧ (¬ fieldsGood p → ∀ l, f l = .refused .badField)

theorem handleSetScan_checked (hk : u8At p 0 = 4) (s : State) : SetupChecked p s (handleSetScan p s) := by
  have hlen : scanLength p = lengthCalledFor p := by simp only [lengthCalledFor, hk, scanLength]
  exact ⟨_, by rw [handleSetScan, hlen], fun hbad l => if_neg fun hok => hbad (fieldsGood_of_scanOk hk hok)⟩

theorem handleSetChannel_checked (hk : u8At p 0 = 5) (s : State) : SetupChecked p s (handleSetChannel p s) := by
  have hlen : (channelPlaces p).total = lengthCalledFor p := by
    simp only [lengthCalledFor, hk]
    exact partPlaces_total p 5 _
  refine ⟨_, by rw [handleSetChannel, hlen], fun hbad l => ?_⟩
  split
  · rfl
  next hch =>
    split
    next hcal hparts => exact absurd (fieldsGood_of_channelParts hk (Bool.not_eq_false _ ▸ hch) hcal hparts) hbad
    · rfl

theorem handleSetMix_checked (hk : u8At p 0 = 6) (s : State) : SetupChecked p s (handleSetMix p s) := by
  have hlen : mixLength p = lengthCalledFor p := by
    simp only [lengthCalledFor, hk, mixLength, mixDefines, beq_iff_eq]
    rw [mixPlaces, partPlaces_total]
  refine ⟨_, by rw [handleSetMix, hlen], fun hbad l => ?_⟩
  split
  · rfl
  next hch =>
    have hch := Bool.not_eq_false _ ▸ hch
    split
    next hact => exact absurd (fieldsGood_of_removal hk hch hact) hbad
    · split
      next hact =>
        split
        next hok hparts => exact absurd (fieldsGood_of_mixParts hk hch hact hok hparts) hbad
        · rfl
      · rfl

theorem handleSetLandmark_checked (hk : u8At p 0 = 7) (s : State) : SetupChecked p s (handleSetLandmark p s) := by
  have hlen : lengthCalledFor p = 24 := by simp only [lengthCalledFor, hk]
  refine ⟨_, by rw [hlen]; rfl, fun hbad l => ?_⟩
  split
  next hsome => exact absurd (fieldsGood_of_landmarkAt hk hsome) hbad
  · rfl

theorem handleSetMotion_checked (hk : u8At p 0 = 8) (s : State) : SetupChecked p s (handleSetMotion p s) := by
  have hlen : lengthCalledFor p = 46 := by simp only [lengthCalledFor, hk]
  refine ⟨_, by rw [hlen]; rfl, fun hbad l => ?_⟩
  split
  next hsome => exact absurd (fieldsGood_of_motionAt hk hsome) hbad
  · rfl

theorem handleSpanCal_checked (hk : u8At p 0 = 0x10) (s : State) : SetupChecked p s (handleSpanCal p s) := by
  have hlen : lengthCalledFor p = 20 := by simp only [lengthCalledFor, hk]
  refine ⟨_, by rw [hlen]; rfl, fun hbad l => ?_⟩
  rw [fieldsGood_span_iff hk] at hbad
  dsimp only
  split
  · rfl
  · split
    · rfl
    next hranges =>
      rw [if_pos (Bool.eq_false_iff.2 fun hspan => hbad ⟨Bool.not_eq_false _ ▸ hranges, hspan⟩)]

theorem handleSolveMix_checked (hk : u8At p 0 = 0x11) (s : State) : SetupChecked p s (handleSolveMix p s) := by
  have hlen : lengthCalledFor p = 16 := by simp only [lengthCalledFor, hk]
  refine ⟨_, by rw [hlen]; rfl, fun hbad l => ?_⟩
  rw [fieldsGood_mix_iff hk] at hbad
  dsimp only
  split
  · rw [if_pos (Bool.eq_false_iff.2 hbad)]
  · rfl

/-- Every setup request is checked so (R177). -/
theorem requestHandler_checked (hk : requestKind c = some (u8At p 0)) (h : u8At p 0 ∈ [4, 5, 6, 7, 8, 0x10, 0x11]) (s : State) :
    SetupChecked p s (requestHandler c p s) := by
  cases c with
  | setScan => exact handleSetScan_checked (Option.some.inj hk).symm s
  | setChannel => exact handleSetChannel_checked (Option.some.inj hk).symm s
  | setMix => exact handleSetMix_checked (Option.some.inj hk).symm s
  | setLandmark => exact handleSetLandmark_checked (Option.some.inj hk).symm s
  | setMotion => exact handleSetMotion_checked (Option.some.inj hk).symm s
  | spanCal => exact handleSpanCal_checked (Option.some.inj hk).symm s
  | solveMix => exact handleSolveMix_checked (Option.some.inj hk).symm s
  | status | setLink | setLayout | queueTube | cancelTube | abort | hold | resume | retract | laneReset =>
    rw [← Option.some.inj hk] at h
    exact absurd h (by decide)
  | _ => cases hk

/-! ### The channel and the store of a solve (R55, R59) -/

theorem Lane.solves_span {x : Lane} (hk : u8At p 0 = 0x10) : x.solves p ↔ (within 0 (u8At p 4) 15 && x.active (u8At p 4)) = true := by
  rw [Lane.solves, if_pos hk, Bool.and_eq_true, within_iff]
  refine ⟨fun ⟨hch, hslot⟩ => ⟨⟨Nat.zero_le _, hch⟩, ?_⟩, fun ⟨⟨_, hch⟩, hact⟩ => ⟨hch, ?_⟩⟩
  · rw [x.active_of_base (Nat.lt_succ_of_le hch)]
    exact decide_eq_true hslot
  · rw [x.active_of_base (Nat.lt_succ_of_le hch)] at hact
    exact of_decide_eq_true hact

theorem Lane.solves_mix {x : Lane} (hk : u8At p 0 = 0x11) :
    x.solves p ↔ (within 16 (u8At p 4) 19 && x.mixActive (u8At p 4)) = true ∧ ∃ d, (x.mix (u8At p 4)).defn = some d := by
  rw [Lane.solves, if_neg (by omega), Bool.and_eq_true, within_iff]
  unfold Lane.mixActive Lane.baseActive
  cases (x.mix (u8At p 4)).defn with
  | none => simp
  | some d =>
    simp only [Option.some.injEq, exists_eq_left', exists_eq', and_true, Bool.and_eq_true, decide_eq_true_eq]
    tauto

theorem Lane.spanHeld_false {x : Lane} {hi lo : Int} (h : (∀ k ∈ x.store, k.index ≠ hi) ∨ ∀ k ∈ x.store, k.index ≠ lo) :
    x.spanHeld hi lo = false := by
  have absent : ∀ i, (∀ k ∈ x.store, k.index ≠ i) → x.storeHolds i = false := fun i hi =>
    List.any_eq_false.2 fun k hk => by simpa using hi k hk
  rw [Lane.spanHeld]
  obtain h | h := h
  · rw [absent _ h, Bool.false_and]
  · rw [absent _ h, Bool.and_false]

/-- A SPAN_CAL of a channel that is no active base channel (R55). -/
theorem handleSpanCal_badChannel (hk : u8At p 0 = 0x10) (hl : laneOf p = some l)
    (hst : (s.lane l).ctl.state = .idle ∨ (s.lane l).ctl.state = .faulted) (hn : p.length = 20) (h : ¬ (s.lane l).solves p) :
    handleSpanCal p s = .refused .badField := by
  rw [Lane.solves_span hk, Bool.not_eq_true] at h
  rw [handleSpanCal, forSetup_accepted _ hl hst hn]
  exact if_pos h

/-- A SOLVE_MIX of a channel that is no defined mix with both sources active (R59). -/
theorem handleSolveMix_badChannel (hk : u8At p 0 = 0x11) (hl : laneOf p = some l)
    (hst : (s.lane l).ctl.state = .idle ∨ (s.lane l).ctl.state = .faulted) (hn : p.length = 16) (h : ¬ (s.lane l).solves p) :
    handleSolveMix p s = .refused .badField := by
  rw [Lane.solves_mix hk] at h
  rw [handleSolveMix, forSetup_accepted _ hl hst hn]
  dsimp only
  split
  next hact hd => exact absurd ⟨hact, _, hd⟩ h
  · rfl

/-- A SPAN_CAL whose span the calibration store does not hold (R55). -/
theorem handleSpanCal_noData (hk : u8At p 0 = 0x10) (hl : laneOf p = some l)
    (hst : (s.lane l).ctl.state = .idle ∨ (s.lane l).ctl.state = .faulted) (hn : p.length = 20) (h : (s.lane l).solves p)
    (hgood : fieldsGood p) (hheld : (s.lane l).spanHeld (s32At p 12) (s32At p 16) = false) :
    handleSpanCal p s = .refused .noData := by
  rw [Lane.solves_span hk] at h
  obtain ⟨hranges, hspan⟩ := (fieldsGood_span_iff hk).1 hgood
  rw [handleSpanCal, forSetup_accepted _ hl hst hn]
  dsimp only
  rw [h, hranges, hspan, hheld]
  rfl

/-- A SOLVE_MIX whose span the calibration store does not hold (R59). -/
theorem handleSolveMix_noData (hk : u8At p 0 = 0x11) (hl : laneOf p = some l)
    (hst : (s.lane l).ctl.state = .idle ∨ (s.lane l).ctl.state = .faulted) (hn : p.length = 16) (h : (s.lane l).solves p)
    (hgood : fieldsGood p) (hheld : (s.lane l).spanHeld (s32At p 8) (s32At p 12) = false) :
    handleSolveMix p s = .refused .noData := by
  obtain ⟨hact, d, hd⟩ := (Lane.solves_mix hk).1 h
  have hspan := (fieldsGood_mix_iff hk).1 hgood
  rw [handleSolveMix, forSetup_accepted _ hl hst hn]
  dsimp only
  rw [hact, hd, hspan, hheld]
  rfl

/-! ### SET_LAYOUT (R86) -/

/-- The class of a SET_LAYOUT comes before its use, and both before the other fields. -/
theorem handleSetLayout_checks (hk : u8At p 0 = 3) (hunit : u8At p 1 = 255) (hn : p.length = lengthCalledFor p) (s : State) :
    ∃ o : Handled,
      handleSetLayout p s =
        (if within 1 (u8At p 4) 16 = false then .refused .badField
        else if s.laneA.usesClass (u8At p 4) || s.laneB.usesClass (u8At p 4) then .refused .busy
        else o) ∧
      (layoutAt p = none → o = .refused .badField) := by
  have hlen : lengthCalledFor p = layoutLength p := by simp only [lengthCalledFor, hk, layoutLength]
  exact ⟨_, by rw [handleSetLayout, forUnit_accepted hunit (hn.trans hlen)], fun hnone => by rw [hnone]⟩

theorem Lane.usesClass_true {x : Lane} {u : Tube} {cls : Nat} (h : x.ctl.tube = some u) (hcls : u.order.cls = cls) :
    x.usesClass cls = true := by
  rw [Lane.usesClass, h]
  exact beq_iff_eq.2 hcls

theorem handleSetLayout_badClass (hk : u8At p 0 = 3) (hunit : u8At p 1 = 255) (hn : p.length = lengthCalledFor p)
    (hcls : u8At p 4 < 1 ∨ 16 < u8At p 4) : handleSetLayout p s = .refused .badField := by
  obtain ⟨_, heq, _⟩ := handleSetLayout_checks hk hunit hn s
  have hout : within 1 (u8At p 4) 16 = false := by
    rw [← Bool.not_eq_true, within_iff]
    omega
  rw [heq, if_pos hout]

theorem handleSetLayout_busy {u : Tube} (hk : u8At p 0 = 3) (hunit : u8At p 1 = 255) (hn : p.length = lengthCalledFor p)
    (hcls : 1 ≤ u8At p 4 ∧ u8At p 4 ≤ 16) (htube : (s.lane l).ctl.tube = some u) (huse : u.order.cls = u8At p 4) :
    handleSetLayout p s = .refused .busy := by
  have hused : (s.laneA.usesClass (u8At p 4) || s.laneB.usesClass (u8At p 4)) = true := by
    have huses := Lane.usesClass_true htube huse
    rw [Bool.or_eq_true]
    cases l
    · exact .inl huses
    · exact .inr huses
  obtain ⟨_, heq, _⟩ := handleSetLayout_checks hk hunit hn s
  rw [heq, (within_iff _ _ _).2 hcls, if_neg nofun, if_pos hused]

theorem handleSetLayout_badField (hk : u8At p 0 = 3) (hunit : u8At p 1 = 255) (hn : p.length = lengthCalledFor p)
    (hcls : 1 ≤ u8At p 4 ∧ u8At p 4 ≤ 16) (hfree : ∀ l, (s.lane l).usesClass (u8At p 4) = false) (hbad : ¬ fieldsGood p) :
    handleSetLayout p s = .refused .badField := by
  have ha : s.laneA.usesClass (u8At p 4) = false := hfree .a
  have hb : s.laneB.usesClass (u8At p 4) = false := hfree .b
  have hnone : layoutAt p = none := Option.eq_none_iff_forall_ne_some.2 fun y hsome => hbad (fieldsGood_of_layoutAt hk hsome)
  obtain ⟨_, heq, hfail⟩ := handleSetLayout_checks hk hunit hn s
  rw [heq, (within_iff _ _ _).2 hcls, if_neg nofun, ha, hb, if_neg nofun, hfail hnone]

/-! ### QUEUE_TUBE (R138) -/

theorem Lane.ready_iff (x : Lane) : x.ready = true ↔ x.exc.slots ≠ [] ∧ x.pos.scale ≠ none ∧ x.motion.pitch ≠ none := by
  rw [Lane.ready, Bool.and_eq_true, Bool.and_eq_true, Bool.not_eq_true', List.isEmpty_eq_false_iff, Option.isSome_iff_ne_none,
    Option.isSome_iff_ne_none, and_assoc]

theorem State.orderOk_iff (hk : u8At p 0 = 9) (s : State) :
    s.orderOk (orderAt p) = true ↔ fieldsGood p ∧ (u8At p 5 ≠ 0 → s.layout (u8At p 5) ≠ none) := by
  have hcls : (orderAt p).cls = u8At p 5 := rfl
  rw [State.orderOk, Bool.and_eq_true, orderAt_fieldsOk hk, Bool.or_eq_true, beq_iff_eq, Option.isSome_iff_ne_none, hcls,
    or_iff_not_imp_left]

/-- The checks of a QUEUE_TUBE in their order, the request being of the right length. -/
theorem handleQueueTube_eq (hk : u8At p 0 = 9) (hl : laneOf p = some l) (hn : p.length = lengthCalledFor p) (s : State) :
    handleQueueTube p s =
      if (s.lane l).ready = false then .refused .notReady
      else if s.orderOk (orderAt p) = false then .refused .badField
      else if stopsOk (s.lane l).pitch (s.stops l (orderAt p)) = false then .refused .badField
      else if 32 ≤ (s.lane l).ctl.worklist.length then .refused .full
      else if (s.lane l).hasTag (u32At p 12) then .refused .duplicate
      else
        .done ((s.upd l fun y => y.appendOrder (orderAt p)).takeFrontOrder l)
          (.queueTube ((s.lane l).ctl.worklist.length + 1) (s.stops l (orderAt p)).1 (s.stops l (orderAt p)).2) := by
  have hlen : lengthCalledFor p = queueLength p := by simp only [lengthCalledFor, hk, queueLength]
  rw [handleQueueTube, forLaneLength_accepted _ hl (hn.trans hlen)]
  rfl

theorem stopsOk_iff (pitch : Nat) (ab : Int × Int) : stopsOk pitch ab = true ↔ ab.2 + (pitch : Int) < ab.1 := decide_eq_true_iff

theorem handleQueueTube_badField (hk : u8At p 0 = 9) (hl : laneOf p = some l) (hn : p.length = lengthCalledFor p)
    (hready : (s.lane l).ready = true)
    (h : s.orderOk (orderAt p) = false ∨ stopsOk (s.lane l).pitch (s.stops l (orderAt p)) = false) :
    handleQueueTube p s = .refused .badField := by
  rw [handleQueueTube_eq hk hl hn, hready, if_neg nofun]
  split
  · rfl
  next horder => exact if_pos (h.resolve_left horder)

end

end Sys2Proof.Machine

/-! Refusals (R177, R185): each request's refusals as the statement has them. -/

namespace Sys2Proof.Machine

section

variable {s : State} {p : List Byte} {c : Instr} {l : LaneId}

/-! ### BAD_KIND, BAD_LANE and the lengths (R177, R188) -/

theorem State.refuses_badKind (ht : s.takes p) (h : u8At p 0 < 1 ∨ 0x11 < u8At p 0) : s.refuses .badKind p .badKind := by
  have hkind : (!isRequestKind (u8At p 0)) = true := by
    rw [Bool.not_eq_true', ← Bool.not_eq_true, isRequestKind, within_iff]
    omega
  have hexec : exec .badKind s = execBadKind s := rfl
  unfold State.refuses
  rw [hexec, execBadKind, State.handle_takes s _ _ p ht hkind, State.conclude_refused]

theorem State.refuses_badLane (ht : s.takes p) (hk : requestKind c = some (u8At p 0)) (hlane : 4 ≤ u8At p 0) (h : 1 < u8At p 1) :
    s.refuses c p .badLane := by
  obtain ⟨f, hf⟩ := requestHandler_lane (p := p) hk hlane s.popRequest
  exact State.refuses_of_handler ht hk (by rw [hf, forLane, laneOf_none h])

theorem State.refuses_unit (ht : s.takes p) (hk : requestKind c = some (u8At p 0)) (hunit : u8At p 0 < 4) :
    (u8At p 1 ≠ 255 → s.refuses c p .badLane) ∧
      (u8At p 1 = 255 → p.length ≠ lengthCalledFor p → s.refuses c p .badLength) := by
  obtain ⟨o, ho⟩ := requestHandler_unit hk hunit s.popRequest
  refine ⟨fun h => ?_, fun h hn => ?_⟩
  · exact State.refuses_of_handler ht hk (ho.trans (forUnit_badLane o h))
  · exact State.refuses_of_handler ht hk (ho.trans (forUnit_badLength o h hn))

/-! ### The owning rules -/

/-- A setup request: the lane's state, the length, the fields. -/
theorem State.refuses_setup (ht : s.takes p) (ha : asks c p l) (hmem : u8At p 0 ∈ [4, 5, 6, 7, 8, 0x10, 0x11]) :
    ((s.lane l).ctl.state ≠ .idle → (s.lane l).ctl.state ≠ .faulted → s.refuses c p .busy) ∧
      ((s.lane l).ctl.state = .idle ∨ (s.lane l).ctl.state = .faulted →
        (p.length ≠ lengthCalledFor p → s.refuses c p .badLength) ∧
        (p.length = lengthCalledFor p → ¬ fieldsGood p → s.refuses c p .badField)) := by
  obtain ⟨hk, hl⟩ := ha
  obtain ⟨f, hf, hfields⟩ := requestHandler_checked hk hmem s.popRequest
  rw [← s.popRequest_lane]
  refine ⟨fun hidle hfaulted => ?_, fun hst => ⟨fun hn => ?_, fun hn hbad => ?_⟩⟩
  · exact State.refuses_of_handler ht hk (hf.trans (forSetup_busy f hl hidle hfaulted))
  · exact State.refuses_of_handler ht hk (hf.trans (forSetup_badLength f hl hst hn))
  · exact State.refuses_of_handler ht hk (hf.trans ((forSetup_accepted f hl hst hn).trans (hfields hbad l)))

/-- A request to a lane in whatever state: the length. -/
theorem State.refuses_laneLength (ht : s.takes p) (ha : asks c p l) (hlo : 9 ≤ u8At p 0) (hhi : u8At p 0 ≤ 0x0F)
    (hn : p.length ≠ lengthCalledFor p) : s.refuses c p .badLength := by
  obtain ⟨hk, hl⟩ := ha
  obtain ⟨f, hf⟩ := requestHandler_laneLength hk hlo hhi s.popRequest
  exact State.refuses_of_handler ht hk (hf.trans (forLaneLength_badLength f hl hn))

theorem State.refuses_setLink (ht : s.takes p) (hk : u8At p 0 = 2) (hunit : u8At p 1 = 255) (hn : p.length = 10)
    (hbad : ¬ fieldsGood p) : s.refuses .setLink p .badField := by
  refine State.refuses_of_handler ht (by rw [hk]; rfl) ?_
  show handleSetLink p s.popRequest = _
  rw [handleSetLink, forUnit_accepted hunit hn, if_neg fun hok => hbad (fieldsGood_of_linkFieldsOk hk hok)]

/-- SET_LAYOUT: the class, BUSY for a class in use, the other fields. -/
theorem State.refuses_setLayout (ht : s.takes p) (hk : u8At p 0 = 3) (hunit : u8At p 1 = 255) (hn : p.length = lengthCalledFor p) :
    (u8At p 4 < 1 ∨ 16 < u8At p 4 → s.refuses .setLayout p .badField) ∧
      (1 ≤ u8At p 4 → u8At p 4 ≤ 16 →
        ((∃ (l : LaneId) (u : Tube), (s.lane l).ctl.tube = some u ∧ u.order.cls = u8At p 4) → s.refuses .setLayout p .busy) ∧
        ((∀ (l : LaneId) (u : Tube), (s.lane l).ctl.tube = some u → u.order.cls ≠ u8At p 4) → ¬ fieldsGood p →
          s.refuses .setLayout p .badField)) := by
  have refused : ∀ {code : ReplyCode}, handleSetLayout p s.popRequest = .refused code → s.refuses .setLayout p code :=
    fun h => State.refuses_of_handler ht (by rw [hk]; rfl) h
  refine ⟨fun hcls => refused (handleSetLayout_badClass hk hunit hn hcls), fun hlo hhi => ⟨?_, fun hfree hbad => ?_⟩⟩
  · rintro ⟨l, u, htube, huse⟩
    rw [← s.popRequest_lane] at htube
    exact refused (handleSetLayout_busy hk hunit hn ⟨hlo, hhi⟩ htube huse)
  · refine refused (handleSetLayout_badField hk hunit hn ⟨hlo, hhi⟩ (fun l => ?_) hbad)
    rw [State.popRequest_lane]
    exact Lane.usesClass_false (hfree l)

/-- QUEUE_TUBE: NOT_READY, the fields with the class and the stops, FULL, DUPLICATE (R138). -/
theorem State.refuses_queueTube (ht : s.takes p) (ha : asks .queueTube p l) (hn : p.length = lengthCalledFor p) :
    ((s.lane l).exc.slots = [] ∨ (s.lane l).pos.scale = none ∨ (s.lane l).motion.pitch = none → s.refuses .queueTube p .notReady) ∧
      ∀ (pitch : Nat) (ab : Int × Int),
        (s.lane l).exc.slots ≠ [] → (s.lane l).pos.scale ≠ none → (s.lane l).motion.pitch = some pitch →
        ab = s.stops l (orderAt p) →
          (¬ fieldsGood p ∨ u8At p 5 ≠ 0 ∧ s.layout (u8At p 5) = none ∨ ab.1 ≤ ab.2 + (pitch : Int) →
            s.refuses .queueTube p .badField) ∧
          (fieldsGood p → (u8At p 5 ≠ 0 → s.layout (u8At p 5) ≠ none) → ab.2 + (pitch : Int) < ab.1 →
            (32 ≤ (s.lane l).ctl.worklist.length → s.refuses .queueTube p .full) ∧
            ((s.lane l).ctl.worklist.length < 32 → u32At p 12 ∈ (s.lane l).tags → s.refuses .queueTube p .duplicate)) := by
  obtain ⟨hkind, hl⟩ := ha
  have hk : u8At p 0 = 9 := (Option.some.inj hkind).symm
  have refused : ∀ {code : ReplyCode}, handleQueueTube p s.popRequest = .refused code → s.refuses .queueTube p code :=
    fun h => State.refuses_of_handler ht hkind h
  have horder : s.popRequest.orderOk (orderAt p) = s.orderOk (orderAt p) := rfl
  refine ⟨fun hnot => refused ?_, fun pitch ab hslots hscale hpitch hab => ?_⟩
  · have hready : (s.lane l).ready = false := by
      rw [← Bool.not_eq_true, Lane.ready_iff]
      tauto
    rw [handleQueueTube_eq hk hl hn, State.popRequest_lane, if_pos hready]
  · have hready : (s.lane l).ready = true := (Lane.ready_iff _).2 ⟨hslots, hscale, by rw [hpitch]; exact nofun⟩
    have hstops : stopsOk (s.lane l).pitch (s.stops l (orderAt p)) = true ↔ ab.2 + (pitch : Int) < ab.1 := by
      rw [stopsOk_iff, ← hab, Lane.pitch, hpitch]
      rfl
    refine ⟨fun hbad => refused ?_, fun hgood hclass hapart => ?_⟩
    · refine handleQueueTube_badField hk hl hn (by rw [State.popRequest_lane]; exact hready) ?_
      rw [horder, State.popRequest_lane, State.popRequest_stops, ← Bool.not_eq_true, ← Bool.not_eq_true, State.orderOk_iff hk, hstops]
      obtain hfields | ⟨hcls, hnone⟩ | hclose := hbad
      · exact .inl fun h => hfields h.1
      · exact .inl fun h => h.2 hcls hnone
      · exact .inr (Int.not_lt.2 hclose)
    · have hchecked := handleQueueTube_eq hk hl hn s.popRequest
      rw [horder, State.popRequest_lane, State.popRequest_stops, hready, (State.orderOk_iff hk s).2 ⟨hgood, hclass⟩,
        hstops.2 hapart, if_neg nofun, if_neg nofun, if_neg nofun] at hchecked
      refine ⟨fun hfull => refused (hchecked.trans (if_pos hfull)), fun hroom hdup => refused ?_⟩
      rw [hchecked, if_neg (Nat.not_le.2 hroom), if_pos ((Lane.hasTag_iff _ _).2 hdup)]

/-- SPAN_CAL: the channel, and then NO_DATA for a span that is not stored (R55). -/
theorem State.refuses_spanCal (ht : s.takes p) (hk : u8At p 0 = 0x10) (hl : laneOf p = some l)
    (hst : (s.lane l).ctl.state = .idle ∨ (s.lane l).ctl.state = .faulted) (hn : p.length = lengthCalledFor p) :
    (¬ (s.lane l).solves p → s.refuses .spanCal p .badField) ∧
      ((s.lane l).solves p → fieldsGood p → (s.lane l).spanHeld (s32At p 12) (s32At p 16) = false → s.refuses .spanCal p .noData) := by
  have hlen : lengthCalledFor p = 20 := by simp only [lengthCalledFor, hk]
  rw [← s.popRequest_lane] at hst ⊢
  refine ⟨fun h => ?_, fun h hgood hheld => ?_⟩ <;> refine State.refuses_of_handler ht (by rw [hk]; rfl) ?_
  · exact handleSpanCal_badChannel hk hl hst (hn.trans hlen) h
  · exact handleSpanCal_noData hk hl hst (hn.trans hlen) h hgood hheld

/-- SOLVE_MIX: the channel, and then NO_DATA for a span that is not stored (R59). -/
theorem State.refuses_solveMix (ht : s.takes p) (hk : u8At p 0 = 0x11) (hl : laneOf p = some l)
    (hst : (s.lane l).ctl.state = .idle ∨ (s.lane l).ctl.state = .faulted) (hn : p.length = lengthCalledFor p) :
    (¬ (s.lane l).solves p → s.refuses .solveMix p .badField) ∧
      ((s.lane l).solves p → fieldsGood p → (s.lane l).spanHeld (s32At p 8) (s32At p 12) = false → s.refuses .solveMix p .noData) := by
  have hlen : lengthCalledFor p = 16 := by simp only [lengthCalledFor, hk]
  rw [← s.popRequest_lane] at hst ⊢
  refine ⟨fun h => ?_, fun h hgood hheld => ?_⟩ <;> refine State.refuses_of_handler ht (by rw [hk]; rfl) ?_
  · exact handleSolveMix_badChannel hk hl hst (hn.trans hlen) h
  · exact handleSolveMix_noData hk hl hst (hn.trans hlen) h hgood hheld

theorem eq_spanCal_of_kind (h : requestKind c = some 0x10) : c = .spanCal := by cases c <;> first | rfl | cases h

theorem eq_solveMix_of_kind (h : requestKind c = some 0x11) : c = .solveMix := by cases c <;> first | rfl | cases h

/-! ### STATE (R151 to R154) -/

theorem State.abortLane_none (h : (s.lane l).phaseOrHeld ∈ [.idle, .faulted, .retract]) : s.abortLane l = none := by
  unfold State.abortLane
  simp only [List.mem_cons, List.not_mem_nil, or_false] at h
  obtain h | h | h := h <;> rw [h]

/-- ABORT, HOLD, RESUME and RETRACT in a state that does not take them. -/
theorem requestHandler_state (hk : plainRequest c p l)
    (h : c = .abort ∧ (s.lane l).phaseOrHeld ∈ [.idle, .faulted, .retract] ∨
      c = .hold ∧ (s.lane l).ctl.state ∈ [.idle, .finish, .faulted] ∨ c = .resume ∧ (s.lane l).ctl.state ≠ .held ∨
      c = .retract ∧ ((s.lane l).ctl.state ∉ [.idle, .faulted] ∨ (s.lane l).drive.home.active = true)) :
    requestHandler c p s = .refused .state := by
  obtain ⟨⟨_, hl⟩, hn⟩ := hk
  obtain ⟨rfl, hst⟩ | ⟨rfl, hst⟩ | ⟨rfl, hst⟩ | ⟨rfl, hst⟩ := h
  · show handleAbort p s = _
    rw [handleAbort, forLaneLength_accepted _ hl hn, State.abortLane_none hst]
  · show handleHold p s = _
    rw [handleHold, forLaneLength_accepted _ hl hn]
    simp only [List.mem_cons, List.not_mem_nil, or_false] at hst
    obtain hst | hst | hst := hst <;> rw [hst] <;> rfl
  · show handleResume p s = _
    rw [handleResume, forLaneLength_accepted _ hl hn, if_neg hst]
  · show handleRetract p s = _
    rw [handleRetract, forLaneLength_accepted _ hl hn]
    refine if_neg fun hok => ?_
    rw [Bool.and_eq_true, LaneState.setup_iff, Bool.not_eq_true'] at hok
    obtain ⟨hset, hhome⟩ := hok
    obtain hst | hst := hst
    · exact hst (by simpa using hset)
    · exact Bool.false_ne_true (hhome.symm.trans hst)

end

/-- Settles O21: `State.refuses_of_handler` for each check, in the order of the statement. -/
theorem refusedRequestsChangeNothing : Obligations.RefusedRequestsChangeNothing := by
  refine ⟨fun s p ht h => State.refuses_badKind ht h,
    fun s p c ht hk => ⟨State.refuses_badLane ht hk, fun hunit => (State.refuses_unit ht hk hunit).1,
      fun hunit => (State.refuses_unit ht hk hunit).2⟩,
    fun s p c l ht ha hmem => State.refuses_setup ht ha hmem, fun s p c l ht ha hmem hn => ?lane,
    fun s p ht hk hunit hn hbad => State.refuses_setLink ht hk hunit hn hbad,
    fun s p ht hk hunit hn => State.refuses_setLayout ht hk hunit hn, fun s p l ht ha hn => State.refuses_queueTube ht ha hn,
    fun s p c l hi lo ht ha hkind hst hn => ?solve, fun s p c l ht hp h => ?state⟩
  case lane =>
    simp only [List.mem_cons, List.not_mem_nil, or_false] at hmem
    exact State.refuses_laneLength ht ha (by omega) (by omega) hn
  case solve =>
    obtain ⟨hc, hl⟩ := ha
    obtain ⟨hk, rfl, rfl⟩ | ⟨hk, rfl, rfl⟩ := hkind
    · obtain rfl := eq_spanCal_of_kind (hk ▸ hc)
      obtain ⟨hchannel, hdata⟩ := State.refuses_spanCal ht hk hl hst hn
      exact ⟨hchannel, fun hsolves hgood hnot => hdata hsolves hgood (Lane.spanHeld_false hnot)⟩
    · obtain rfl := eq_solveMix_of_kind (hk ▸ hc)
      obtain ⟨hchannel, hdata⟩ := State.refuses_solveMix ht hk hl hst hn
      exact ⟨hchannel, fun hsolves hgood hnot => hdata hsolves hgood (Lane.spanHeld_false hnot)⟩
  case state =>
    rw [← s.popRequest_lane] at h
    have ⟨⟨hk, _⟩, _⟩ := hp
    exact State.refuses_of_handler ht hk (requestHandler_state hp h)

end Sys2Proof.Machine

/-! Message and record formats (chapter 11): the lengths of fields, replies and records. The long byte lists are opened by `unfold`:
their equation lemmas, which `rw` and `simp` would form, cost too much. -/

namespace Sys2Proof.Machine

/-! ### Fields (11.1, R188, R189) -/

@[simp] theorem length_sField (k : Nat) (v : Int) : (sField k v).length = k := length_leBytes k _

@[simp] theorem length_bitsField (bits : List Bool) : (bitsField bits).length = 1 := length_uField 1 _

@[simp] theorem length_reserved (k : Nat) : (reserved k).length = k := length_leBytes k 0

@[simp] theorem length_uOpt (k : Nat) (v : Option Nat) : (uOpt k v).length = k := length_uField k _

@[simp] theorem length_sOpt (k : Nat) (v : Option Int) : (sOpt k v).length = k := length_sField k _

@[simp] theorem length_vecField (v : Vec) : (vecField v).length = 4 := by simp [vecField]

@[simp] theorem length_tagField (tag : BitVec 16) : (tagField tag).length = 2 := length_leBytes 2 _

/-- Parts of `n` bytes each, one after the other. -/
theorem length_flatMap_of_forall {α : Type} {f : α → List Byte} {n : Nat} {parts : List α}
    (h : ∀ a ∈ parts, (f a).length = n) : (parts.flatMap f).length = parts.length * n := by
  rw [List.length_flatMap, List.map_congr_left h, List.map_const', List.sum_replicate, smul_eq_mul]

/-! ### Replies (11.4) -/

/-- A reply's header has four bytes and its code one (R187). -/
theorem Reply.length_payload (r : Reply) : r.payload.length = 5 + r.body.bytes.length := by
  simp only [Reply.payload, List.length_append, List.length_cons, List.length_nil, length_tagField, length_uField]

@[simp] theorem UnitStatus.length_bytes (u : UnitStatus) : u.bytes.length = 28 := by
  unfold UnitStatus.bytes
  simp [length_uField]

@[simp] theorem LaneStatus.length_bytes (l : LaneStatus) : l.bytes.length = 44 := by
  unfold LaneStatus.bytes
  simp [length_uField]

/-! ### Records (11.5) -/

@[simp] theorem length_recordHeader (kind lane : Nat) : (recordHeader kind lane).length = 4 := by
  simp [recordHeader, length_uField]

theorem BlockLine.length_bytes (k : BlockLine) : k.bytes.length = 4 + 4 * k.values.length := by
  have hvalues : (k.values.flatMap vecField).length = k.values.length * 4 := length_flatMap_of_forall fun v _ => length_vecField v
  rw [BlockLine.bytes, List.length_append, length_uField, hvalues, Nat.mul_comm]

/-- A block whose lines each hold a value per masked channel (R162). -/
theorem Block.length_bytes {b : Block} (h : ∀ k ∈ b.lines, k.values.length = b.mask.length) :
    b.bytes.length = 20 + b.lines.length * (4 + 4 * b.mask.length) := by
  have hlines : (b.lines.flatMap BlockLine.bytes).length = b.lines.length * (4 + 4 * b.mask.length) :=
    length_flatMap_of_forall fun k hk => by rw [k.length_bytes, h k hk]
  unfold Block.bytes
  simp only [List.length_append, length_uField, length_sField, length_reserved, hlines]

theorem length_lineBlock (l : LaneId) {b : Block} (h : ∀ k ∈ b.lines, k.values.length = b.mask.length) :
    (Record.lineBlock l b).payload.length = 24 + b.lines.length * (4 + 4 * b.mask.length) := by
  rw [Record.payload, List.length_append, length_recordHeader, Block.length_bytes h]
  omega

/-- The lines of a block within its capacity take at most 1984 bytes (R162). -/
theorem mul_le_of_le_capacity {c k : Nat} (h : c ≤ capacity k) : c * (4 + 4 * k) ≤ 1984 :=
  (Nat.le_div_iff_mul_le (by omega)).1 (h.trans (min_le_right ..))

@[simp] theorem CatEntry.length_bytes (e : CatEntry) : e.bytes.length = 36 := by
  unfold CatEntry.bytes
  simp [length_uField]

theorem length_catalogue (l : LaneId) (tag number count : Nat) (entries : List CatEntry) :
    (Record.catalogue l tag number count entries).payload.length = 12 + 36 * entries.length := by
  have hentries : (entries.flatMap CatEntry.bytes).length = entries.length * 36 :=
    length_flatMap_of_forall fun e _ => e.length_bytes
  simp only [Record.payload, List.length_append, length_recordHeader, length_uField, length_reserved, hentries]
  omega

@[simp] theorem LandmarkEntry.length_bytes (e : LandmarkEntry) : e.bytes.length = 16 := by
  unfold LandmarkEntry.bytes
  simp [length_uField]

theorem Summary.length_bytes (c : Summary) : c.bytes.length = 54 + 16 * c.landmarks.length := by
  have hlandmarks : (c.landmarks.flatMap LandmarkEntry.bytes).length = c.landmarks.length * 16 :=
    length_flatMap_of_forall fun e _ => e.length_bytes
  unfold Summary.bytes
  simp only [List.length_append, length_uField, length_sField, length_bitsField, length_uOpt, length_sOpt, length_reserved,
    hlandmarks]
  omega

theorem length_summary (l : LaneId) (c : Summary) : (Record.summary l c).payload.length = 58 + 16 * c.landmarks.length := by
  rw [Record.payload, List.length_append, length_recordHeader, c.length_bytes]
  omega

theorem length_notice (n : Notice) : (Record.notice n).payload.length = 12 := by
  simp [Record.payload, Notice.bytes, length_uField]

/-- Settles O60: the fields of each reply add up, and so do those of each record, with the parts it repeats. -/
theorem payloadsHaveTheirLengths : Obligations.PayloadsHaveTheirLengths := by
  refine ⟨fun r => ?reply, fun l b h => ⟨length_lineBlock l h, fun hcapacity => ?block⟩, length_catalogue, length_summary,
    length_notice⟩
  case block =>
    rw [length_lineBlock l h]
    exact Nat.add_le_add_left (mul_le_of_le_capacity hcapacity) 24
  case reply =>
    obtain ⟨hdr, code, body⟩ := r
    rw [Reply.length_payload]
    refine congrArg (5 + ·) ?_
    cases body with
    | empty => rfl
    | setLink => simp [ReplyBody.bytes, length_uField]
    | setLayout => simp [ReplyBody.bytes, length_uField]
    | setScan => simp [ReplyBody.bytes, length_uField]
    | setChannel => simp [ReplyBody.bytes]
    | active => exact length_bitsField _
    | setMotion => simp [ReplyBody.bytes, length_uField]
    | queueTube => simp [ReplyBody.bytes, length_uField]
    | cancelTube => exact length_uField 1 _
    | spanCal angle vpp coefficient => cases coefficient <;> simp [ReplyBody.bytes, length_uField]
    | solveMix => simp [ReplyBody.bytes, length_uField]
    | status u la lb => simp [ReplyBody.bytes]

end Sys2Proof.Machine

/-! The step takes the front command (3.3), and an event of one lane leaves the other alone (3.1, 3.2). -/

namespace Sys2Proof.Machine

/-- Settles O1: the step is defined by the front of its queue. -/
theorem stepTakesTheFrontCommand : Obligations.StepTakesTheFrontCommand := by
  intro s c rest h
  rw [step, h]

/-! ### An event of a lane keeps to that lane -/

/-- What an event of lane `l` can do: the clock moves on to a due time, and from there nothing outside the lane differs but the
engine, record memory, the reply slot and the transmitter. -/
def State.EventKeepsTo (l : LaneId) (s t : State) : Prop := ∃ due, State.KeepsTo l (s.reach due) t

section

variable {s t : State} {l : LaneId}

/-- An event that is not timed. -/
theorem State.KeepsTo.untimed (h : State.KeepsTo l s t) : s.EventKeepsTo l t := by
  have hnow : s.reach 0 = s := by rw [State.reach, Nat.max_zero]
  exact ⟨0, hnow.symm ▸ h⟩

theorem State.EventKeepsTo.refl (l : LaneId) (s : State) : s.EventKeepsTo l s := (State.KeepsTo.refl l s).untimed

theorem execDebouncedStateChange_keeps {i : InputId} (h : execDebouncedStateChange l i s = .next t) : s.EventKeepsTo l t := by
  cases h
  split
  · exact .refl l s
  · exact ⟨_, State.inputChange_keeps _ l i⟩

theorem execEdge_keeps {phase : EncPhase} (h : execEdge l phase s = .next t) : s.EventKeepsTo l t := by
  cases h
  refine State.KeepsTo.untimed (.upd_trans (f := fun x => x.accept phase) ?_)
  split
  · exact .upd l _ _
  · split
    · exact State.moveCount_keeps _ l _
    · exact .refl l _

theorem execStall_keeps (h : execStall l s = .next t) : s.EventKeepsTo l t := by
  cases h
  split
  · exact State.KeepsTo.untimed (.upd_trans (State.stallEvent_keeps _ l _))
  · exact .refl l s

theorem execSwitchEnd_keeps (h : execSwitchEnd l s = .next t) : s.EventKeepsTo l t := by
  cases h
  split
  · exact ⟨_, .upd l _ _⟩
  · exact .refl l s

theorem execSettleEnd_keeps (h : execSettleEnd l s = .next t) : s.EventKeepsTo l t := by
  cases h
  split
  · exact ⟨_, .upd l _ _⟩
  · exact .refl l s

theorem State.endSlot_keeps (s : State) (l : LaneId) (r : Running) (k : Sample) : s.EventKeepsTo l (s.endSlot l r k) := by
  refine ⟨(s.lane l).exc.slotDue r, ?_⟩
  unfold State.endSlot
  dsimp only
  split
  · exact .upd l _ _
  · exact .upd_trans (State.captureCycle_keeps _ l _)

theorem execSlotEnd_keeps {d : Demod} (h : execSlotEnd l d s = .next t) : s.EventKeepsTo l t := by
  cases h
  split
  · exact s.endSlot_keeps l _ _
  · exact .refl l s

theorem execGuidePoll_keeps (h : execGuidePoll l s = .next t) : s.EventKeepsTo l t := by
  cases h
  split
  · exact ⟨_, .upd_trans (State.guideTest_keeps _ l)⟩
  · exact .refl l s

theorem execTurnDwellEnd_keeps (h : execTurnDwellEnd l s = .next t) : s.EventKeepsTo l t := by
  cases h
  split
  · exact ⟨_, State.enterPull_keeps _ l⟩
  · exact .refl l s

theorem State.report_keeps (s : State) (l : LaneId) (u : Tube) : State.KeepsTo l s (s.report l u) := by
  unfold State.report
  split
  · exact .upd_trans (State.queueRecord_keeps _ l _)
  · exact (s.queueRecord_keeps l _).trans (State.leaveFinish_keeps _ l _)

theorem execReportRecord_keeps (h : execReportRecord l s = .next t) : s.EventKeepsTo l t := by
  cases h
  split
  · split
    · exact (s.report_keeps l _).untimed
    · exact .refl l s
  · exact .refl l s

/-- Every event keeps to the lane that it names; an event of the unit and a request name none. -/
theorem exec_keepsToEventLane {c : Instr} (hl : eventLane c = some l) (h : exec c s = .next t) : s.EventKeepsTo l t := by
  cases c with
  | rawLevelChange k i level => cases hl; cases h; exact (State.KeepsTo.upd l s _).untimed
  | debouncedStateChange k i => cases hl; exact execDebouncedStateChange_keeps h
  | edge k phase => cases hl; exact execEdge_keeps h
  | controlPeriodEnd k => cases hl; cases h; exact ⟨_, .upd l _ _⟩
  | stall k => cases hl; exact execStall_keeps h
  | switchEnd k => cases hl; exact execSwitchEnd_keeps h
  | settleEnd k => cases hl; exact execSettleEnd_keeps h
  | slotEnd k d => cases hl; exact execSlotEnd_keeps h
  | guidePoll k => cases hl; exact execGuidePoll_keeps h
  | turnDwellEnd k => cases hl; exact execTurnDwellEnd_keeps h
  | takeOrder k => cases hl; cases h; exact (s.takeFrontOrder_keeps l).untimed
  | reportRecord k => cases hl; exact execReportRecord_keeps h
  | _ => cases hl

end

/-- Settles O14: an event moves the clock and keeps to its lane (`exec_keepsToEventLane`), and the clock is nothing of the other
lane, the layouts or the link. -/
theorem eventsKeepToTheirLane : Obligations.EventsKeepToTheirLane := by
  intro s t c l hl h
  obtain ⟨due, hkeeps⟩ := exec_keepsToEventLane hl h
  exact ⟨hkeeps.other.trans (s.reach_lane due _), hkeeps.layouts, hkeeps.pending, hkeeps.link⟩

end Sys2Proof.Machine
